-- ==== Sys2Proof/Word.lean ====
section
/-! DEFINITION. The word, byte and line types of the package, and the sparse table that every banked
piece of state is kept in. -/

namespace Sys2Proof

/-- A 64-bit register, CSR or doubleword (R46, R9). -/
abbrev W64 := BitVec 64

/-- A byte of memory. -/
abbrev Byte := BitVec 8

/-- A 64-byte line (R4: the line size is 64 bytes everywhere), byte i at bits [8i+7:8i]. -/
abbrev LineData := BitVec 512

/-- A sparse table: pairs of an index and a value, indices strictly rising, no pair that holds the
table's default. -/
abbrev Tab (V : Type) := List (Nat × V)

end Sys2Proof
end

