-- ==== Sys2Proof/Syntax.lean ====
section
/-! DEFINITION. The commands of the block: one constructor of `Instr` per row of the operation and
event table, and the operand types they use. -/

namespace Sys2Proof

/-- The common part of an instruction's issue: its core, its context slot on that core, whether it is
16 bits long (R47 PC2) and its bits (R59 writes them to mtval or stval). -/
structure Ins where
  core : Nat
  ctx : Nat
  rvc : Bool
  raw : BitVec 32
  deriving DecidableEq, Repr

/-- The integer ALU operations of R15's first row: RV64I, Zba, Zbb, Zbs and Zicond (R54). -/
inductive AluOp where
  | add | sub | sll | slt | sltu | xor | srl | sra | or | and
  | addw | subw | sllw | srlw | sraw | lui | auipc
  | adduw | sh1add | sh2add | sh3add | sh1adduw | sh2adduw | sh3adduw | slliuw
  | andn | orn | xnor | clz | clzw | ctz | ctzw | cpop | cpopw
  | max | maxu | min | minu | sextb | sexth | zexth
  | rol | rolw | ror | rorw | orcb | rev8
  | bclr | bext | binv | bset | czeroeqz | czeronez
  deriving DecidableEq, Repr

/-- The second source of an integer operation: a register or an immediate already extended. -/
inductive Src2 where
  | reg (r : Nat)
  | imm (v : W64)
  deriving DecidableEq, Repr

/-- The multiplies of R18. -/
inductive MulOp where
  | mul | mulh | mulhsu | mulhu | mulw
  deriving DecidableEq, Repr

/-- The divides and remainders of R18. -/
inductive DivOp where
  | div | divu | rem | remu | divw | divuw | remw | remuw
  deriving DecidableEq, Repr

/-- The floating-point formats of R54 (F and D). -/
inductive FpFmt where
  | s | d
  deriving DecidableEq, Repr

/-- IEEE 754 rounding modes as the rm field codes them; `dyn` takes fcsr.frm. -/
inductive RoundMode where
  | rne | rtz | rdn | rup | rmm | dyn
  deriving DecidableEq, Repr

/-- The integer side of a floating-point conversion. -/
inductive IntFmt where
  | w | wu | l | lu
  deriving DecidableEq, Repr

/-- The floating-point operations of R18 other than FDIV and FSQRT. -/
inductive FpOp where
  | add | sub | mul | madd | msub | nmadd | nmsub
  | eq | lt | le | min | max | sgnj | sgnjn | sgnjx | classify
  | mvToInt | mvFromInt | cvtToInt (i : IntFmt) | cvtFromInt (i : IntFmt) | cvtFmt
  deriving DecidableEq, Repr

/-- Conditional branches (R22). -/
inductive BrCond where
  | eq | ne | lt | ge | ltu | geu
  deriving DecidableEq, Repr

/-- The AMO operations of R114. -/
inductive AmoOp where
  | swap | add | and | or | xor | min | max | minu | maxu
  deriving DecidableEq, Repr

/-- What the predecoder finds in a fetched block (R21.3): nothing that stops the stream, an
instruction that stops it, or a direct jump with its target. `last` is the virtual address just past
the stopping instruction. -/
inductive Predecode where
  | runs
  | stops (last : Nat)
  | jumps (last target : Nat)
  deriving DecidableEq, Repr

/-- An error of an on-die core structure met by an access (R30, R344). -/
inductive CoreErr where
  | none | l1Parity | l2DataCe | l2DataUe | l2TagUe | regParity | rowCe | rowUe | sbUe
  deriving DecidableEq, Repr

/-- An error of a home-slice structure met at lookup (R132, R181, R344). -/
inductive HomeErr where
  | none | dupCe | dupUe (core set way : Nat) | mscCe | mscDataUe | mscTagUe | trkCe | trkUe | dirCe | dirUe
  deriving DecidableEq, Repr

/-- The width and kind of a load or store: log2 of the size, sign extension, FP destination. -/
structure MemOp where
  sz : Nat
  sgn : Bool
  fp : Bool
  deriving DecidableEq, Repr

/-- The CSR instructions of R367. -/
inductive CsrOp where
  | rw | rs | rc | rwi | rsi | rci
  deriving DecidableEq, Repr

/-- Who makes a control-space access: the control host, a context, or the kiln (R8, R288). -/
inductive Req where
  | host
  | ctx (core slot : Nat)
  | kiln
  deriving DecidableEq, Repr

/-- The kinds of coherence and control message (R103, R134). -/
inductive MsgKind where
  | rdS | rdM | upg | amoH | wb | evc | snpAck | snpData
  | dataS | dataM | amoRet | snpInv | snpShd | ackUpg | wbAck | evcAck | long | credit
  | wake | spawn | spawnRsp | deliver | complete | post | shoot | shootAck
  deriving DecidableEq, Repr

/-- The operation an AMO_H carries (R103, R117): an AMO or a clean or flush. -/
inductive FarOp where
  | amo (op : AmoOp) (sz : Nat) (arg : W64) (addr : Nat)
  | clean
  | flush
  deriving DecidableEq, Repr

/-- A fabric message (R103, R104). `line` is PA[51:6], `tag` the requester's system context number,
`at_` the F-cycle in which it is in the receiving engine (R133, R140). -/
structure Msg where
  kind : MsgKind
  line : Nat := 0
  core : Nat := 0
  tag : Nat := 0
  part : Nat := 0
  slice : Nat := 0
  pkg : Nat := 0
  data : LineData := 0
  hasData : Bool := false
  status : Nat := 0
  flag : Bool := false
  poison : Bool := false
  way : Nat := 0
  far : FarOp := .flush
  arg : Nat := 0
  val : W64 := 0
  at_ : Nat := 0
  words : List W64 := []
  deriving DecidableEq, Repr

/-- The opcodes of a reel message (R208). -/
inductive ReelOp where
  | rdS | rdM | upg | amoH | rsnpShd | rsnpInv | rsnpAck | rsnpData
  | dataS | dataM | amoRet | ackUpg | wb | evc | wbAck | evcAck
  | wake | spawn | spawnRsp | deliver | complete | post | shoot | shootAck
  | tsync | hello | resync | resyncAck | krelay | ncrd | ncwr | nccpl
  | other (opc : Nat)
  deriving DecidableEq, Repr

/-- A reel message (R207, R208): `m` holds the fields it shares with the fabric messages, `ctl` the
bytes 4 to 15 that a control message defines. `vec` is a presence vector. -/
structure RMsg where
  op : ReelOp
  m : Msg := { kind := .long }
  src : Nat := 0
  vec : Nat := 0
  ctl : BitVec 96 := 0
  len : Nat := 0
  excl : Bool := false
  deriving DecidableEq, Repr

/-- One cell of a flit (R204): its class, whether it starts a message, its phase, and the message it
belongs to with its index among that message's cells. -/
structure Cell where
  cls : Nat
  start : Bool
  phase : Nat
  idx : Nat
  msg : RMsg
  deriving DecidableEq, Repr

/-- A flit (R204): the link-layer field, the credit return and the cells. -/
structure Flit where
  fseq : Nat
  ackSeq : Nat
  cmd : Nat
  null : Bool
  crCls : Nat
  crCnt : Nat
  cells : List Cell
  deriving DecidableEq, Repr

/-- How a flit arrives: intact, corrected by FEC, or failing its CRC (R205, R206). -/
inductive FlitRx where
  | intact | corrected | crcFail
  deriving DecidableEq, Repr

/-- A PCIe request from a device below a root port (R355). -/
inductive UpKind where
  | read | write | atomic
  deriving DecidableEq, Repr

/-- How a non-posted PCIe request completes (R353, R356). -/
inductive CplStat where
  | ok | ur | ca | crs | ep
  deriving DecidableEq, Repr

/-- A kiln-relay payload (R214, R218, R221, R234, R268, R340): a relayed command packet (`here`: for the part of a partition on the target alone),
its reply, a formation report, the formed member set with the lead's time base in F-cycles, an expulsion or a loss report. -/
inductive KRelay where
  | command (pkt : List W64) (priv : Nat) (part : Nat) (rid : Nat) (here : Bool)
  | reply (rid : Nat) (pkt : List W64)
  | report (pkg links : Nat)
  | formed (members lead fTime : Nat)
  | expel (x : Nat)
  | loss (p q : Nat)
  | windowCopy (part pkg : Nat) (wins cores : List W64)
  | restart (pkg : Nat)
  | wakeup (pkg : Nat)
  | choice (pkg state : Nat)
  | powerTo (state : Nat)
  deriving DecidableEq, Repr

/-- A symbol error of a received DRAM word: its codeword position and the value XORed into it (R184). -/
structure SymErr where
  pos : Nat
  xor : Nat
  deriving DecidableEq, Repr

/-- What boot finds of a DIMM position over the SPD hub (R171 to R173). -/
structure DimmSpd where
  supported : Bool
  density32 : Bool
  pranks : Nat
  stackLog : Nat
  maxSpeed : Nat
  taaPs : Nat
  trcdPs : Nat
  trpPs : Nat
  deriving DecidableEq, Repr

/-- What a boot stage's work finds outside the package (R331): the image's boot configuration, the
sideband and training results, the SPD contents. -/
structure BootObs where
  deadSideband : List Nat := []
  crcBad : List Nat := []
  orient : List (Nat × Bool × Bool) := []
  slipBadWires : List (Nat × Nat × Nat) := []
  slipBadClocks : List (Nat × Nat) := []
  recheckBad : List (Nat × Nat) := []
  dimms : List (Nat × DimmSpd) := []
  trainFail : List Nat := []
  deriving DecidableEq, Repr

/-- The boot configuration record (R333). -/
structure BootCfg where
  reelMask : BitVec 10 := 0
  bifurc : BitVec 20 := 0
  p0cores : Nat := 0
  p0mem : Nat := 0
  p0rports : BitVec 20 := 0
  p0entry : Nat := 0
  deriving DecidableEq, Repr

/-- A boot or firmware image as the kiln's verification sees it (R253, R332). -/
structure Image where
  sigOk : Bool
  version : Nat
  secLevel : Nat
  cfg : BootCfg
  payload : List Byte
  deriving DecidableEq, Repr

/-- Where a register write is addressed: control space, the endpoint's BAR0 or its configuration space
(R7, R283, R285). -/
inductive RegSpace where
  | control | bar0 | config
  deriving DecidableEq, Repr

/-- The result of a reel training stage (R212). -/
inductive TrainRes where
  | ok | fail
  deriving DecidableEq, Repr

/-- The commands of the block, one per row of the operation and event table. -/
inductive Instr where
  /-- R18: An integer ALU, Zba, Zbb, Zbs or Zicond instruction issues on either lane and writes its result with latency 1. -/
  | integerAlu (h : Ins) (op : AluOp) (rd rs1 : Nat) (b : Src2)
  /-- R18: A multiply instruction issues on lane 0 into the pipelined multiplier with latency 3. -/
  | multiply (h : Ins) (op : MulOp) (rd rs1 rs2 : Nat)
  /-- R18: An integer divide or remainder issues on lane 0 and holds the non-pipelined divider for an operand-dependent latency. -/
  | divide (h : Ins) (op : DivOp) (rd rs1 rs2 : Nat)
  /-- R19: An integer or FP divide completes, writes its result and frees its unit for any context of the core. -/
  | dividerFree (core : Nat) (fp : Bool)
  /-- R18: An FP arithmetic, compare, convert or move instruction issues on lane 0 with its class latency. -/
  | fpOperation (h : Ins) (op : FpOp) (fmt : FpFmt) (rm : RoundMode) (rd rs1 rs2 rs3 : Nat)
  /-- R19: An FDIV or FSQRT issues and holds the non-pipelined FP divide and square-root unit for its full latency. -/
  | fpDivide (h : Ins) (sqrt : Bool) (fmt : FpFmt) (rm : RoundMode) (rd rs1 rs2 : Nat)
  /-- R22: A conditional branch resolves in EX and restarts fetch at target or fall-through, costing 4 bubbles either way. -/
  | conditionalBranch (h : Ins) (c : BrCond) (rs1 rs2 : Nat) (off : W64)
  /-- R22: A JAL or C.J is resolved by the IF2 adder and issues, costing one bubble only when it issues in b + 2. -/
  | directJump (h : Ins) (rd : Nat) (off : W64)
  /-- R22: A JALR, C.JR or C.JALR resolves in EX and restarts fetch at its target, costing 4 bubbles. -/
  | indirectJump (h : Ins) (rd rs1 : Nat) (off : W64)
  /-- R21: IF1 selects a slot and fetches one aligned 16-byte block under the one-block, byte-limit and fetch-stop rules. -/
  | instructionFetch (core ctx : Nat) (pd : Predecode) (e : CoreErr)
  /-- R25: A load issues on lane 1, passes the MA1 fault check, and completes from the L1D or store buffer or misses to the L2. -/
  | load (h : Ins) (m : MemOp) (rd rs1 : Nat) (off : W64) (e : CoreErr)
  /-- R32: A load held by a partial store-buffer overlap is sent to the L2 in the cycle after that entry drains. -/
  | loadAfterDrain (core ctx : Nat) (e : CoreErr)
  /-- R31: A store issues only with a free store-buffer entry, reserves it at issue and fills it in MA2. -/
  | store (h : Ins) (m : MemOp) (rs2 rs1 : Nat) (off : W64) (e : CoreErr)
  /-- R33: One entry whose line the L2 holds in M drains to the L2 in program order per context and becomes visible. -/
  | storeBufferDrain (core ctx : Nat)
  /-- R368: A store error that reached the core is taken as a deferred store/AMO access fault at the context's next instruction boundary. -/
  | deferredStoreFault (core ctx : Nat)
  /-- R114: An AMO waits for its context's stores to drain, then is performed in the L2 if held in M or sent as AMO_H. -/
  | amo (h : Ins) (op : AmoOp) (sz rd rs1 rs2 : Nat)
  /-- R53: An LR takes its line in S and sets the context's reservation when it completes. -/
  | lr (h : Ins) (sz rd rs1 : Nat)
  /-- R53: An SC succeeds only with an intact reservation, obtaining M by UPG if needed, and clears the reservation. -/
  | sc (h : Ins) (sz rd rs1 rs2 : Nat)
  /-- R35: A FENCE or FENCE.TSO issues once nothing older is in flight and the context's stores and device accesses have completed. -/
  | fence (h : Ins)
  /-- R35: FENCE.I serialises, waits for the context's stores to drain, discards the fetch buffer and restarts fetch. -/
  | fenceI (h : Ins)
  /-- R367: A CSR instruction serialises and reads or writes a CSR under the RISC-V rules and the W1C/W1S operand rule. -/
  | csrAccess (h : Ins) (op : CsrOp) (csr rd src : Nat)
  /-- R28: ECALL traps to its handler, whose first instruction issues no earlier than t + 5. -/
  | ecall (h : Ins)
  /-- R28: EBREAK traps to its handler, whose first instruction issues no earlier than t + 5. -/
  | ebreak (h : Ins)
  /-- R28: An instruction marked illegal at DE issues on lane 0 as a trap marker and raises an illegal-instruction exception. -/
  | illegalInstruction (h : Ins)
  /-- R22: MRET returns from an M-mode trap, resolving in EX and restarting fetch at mepc. -/
  | mret (h : Ins)
  /-- R22: SRET returns from an S-mode trap, resolving in EX and restarting fetch at sepc. -/
  | sret (h : Ins)
  /-- R39: WFI parks the context in IDLE unless an interrupt is pending and enabled in mie, or traps under TW. -/
  | wfi (h : Ins)
  /-- R93: SFENCE.VMA drains the context's stores, invalidates matching TLB entries of its partition on this core and restarts walks. -/
  | sfenceVma (h : Ins) (rs1 rs2 : Nat)
  /-- R117: CBO.CLEAN writes back a held M line with RETAIN or sends AMO_H(CLEAN) so the latest data is in the MSC. -/
  | cboClean (h : Ins) (rs1 : Nat)
  /-- R117: CBO.FLUSH removes the line from every L2, writing M data to the MSC. -/
  | cboFlush (h : Ins) (rs1 : Nat)
  /-- R117: CBO.INVAL is performed exactly as CBO.FLUSH and never discards dirty data. -/
  | cboInval (h : Ins) (rs1 : Nat)
  /-- R118: CBO.ZERO obtains the line with RD_M carrying ZERO and installs 64 zero bytes in M. -/
  | cboZero (h : Ins) (rs1 : Nat)
  /-- R48: CTX.YIELD parks the context to READY at the queue tail when another unheld context is READY, else continues. -/
  | ctxYield (h : Ins)
  /-- R49: CTX.WAIT consumes a wake token or reservation, or arms a watch on the line and parks in WAIT or MISS. -/
  | ctxWait (h : Ins) (rs1 : Nat)
  /-- R48: CTX.SLEEP consumes a wake token, completes for a past deadline, or parks in SLEEP with a heap entry. -/
  | ctxSleep (h : Ins) (rs1 : Nat)
  /-- R48: CTX.WAKE drains the context's stores and sends a wake to the named system context number. -/
  | ctxWake (h : Ins) (rs1 : Nat)
  /-- R48: CTX.SPAWN asks for an EMPTY context of the partition to start at rs1 and waits in its slot for the reply. -/
  | ctxSpawn (h : Ins) (rd rs1 rs2 : Nat)
  /-- R48: CTX.EXIT drains the context's stores, discards its watch, deadline, reservation and interrupts, and makes it EMPTY. -/
  | ctxExit (h : Ins)
  /-- R28: A pending and enabled interrupt is taken at an instruction boundary of the context at the cost of 4 bubbles. -/
  | interruptTaken (core ctx : Nat)
  /-- R43: A LONG hint for an access a context waits on parks it in MISS with the access's PKIND, unless the fill already arrived. -/
  | longHint (core : Nat)
  /-- R374: A held fetch LONG hint is taken in the cycle after the context has no data access waiting and nothing before MA1. -/
  | heldFetchHint (core ctx : Nat)
  /-- R42: A park stream writes the outgoing context's lean and dirty FP rows to its record, alone or as part of a swap. -/
  | contextPark (core ctx : Nat)
  /-- R40: The head of the ready queue is unparked into a free or parking issue slot by reading its lean rows. -/
  | contextUnpark (core islot : Nat)
  /-- R40: A context ACTIVE for QUANTUM × 256 core cycles parks to READY at its next boundary while the queue is not empty. -/
  | quantumExpiry (core ctx : Nat)
  /-- R44: A fill completing into a parked record writes its rows, and the context becomes READY or WAIT. -/
  | recordFill (core ctx : Nat)
  /-- R45: An access completing as a bus error into a parked record sets BERR and the reason, and makes the context READY. -/
  | recordBusError (core ctx : Nat)
  /-- R369: A store error for a parked context writes PKIND 5 and the reason into its record and wakes it as required. -/
  | parkedStoreError (core ctx : Nat)
  /-- R48: A wake reaching its target core makes a WAIT, SLEEP or IDLE context READY or sets WTOK, or is discarded. -/
  | wakeDelivery (core : Nat)
  /-- R48: A spawn at the target core makes the chosen EMPTY context READY with its initial state, or refuses. -/
  | spawnRequest (core : Nat)
  /-- R48: The spawn reply reaches the spawner, which writes the new number or −1 into rd and continues. -/
  | spawnResponse (core : Nat)
  /-- R51: At a time-base tick the core pops every due heap entry, making sleepers READY and timer interrupts pending. -/
  | deadlineExpiry (core : Nat)
  /-- R66: At each tick the per-core M-mode timer sets MTIP of its target context while enabled and time reaches mtmrcmp. -/
  | mtimerCompare (core : Nat)
  /-- R66: STIP of a context becomes 1 when STCE is set and time reaches its stimecmp. -/
  | stimerCompare (core ctx : Nat)
  /-- R46: An mctxdata access reads or writes doubleword DW of record SLOT, or is refused with ERR set. -/
  | mctxdataAccess (h : Ins) (op : CsrOp) (rd src : Nat)
  /-- R38: A write of mctxhold sets or clears HOLD on the named context, parking an ACTIVE one at its next boundary. -/
  | mctxholdWrite (h : Ins) (op : CsrOp) (rd src : Nat)
  /-- R76: A write of sxlt installs a valid size list and ASID or is refused with XLT_SIZE_LIST_INVALID. -/
  | sxltWrite (h : Ins) (op : CsrOp) (rd src : Nat)
  /-- R77: A write of sxltbase setting EN runs the table check and enables the partition's table or refuses. -/
  | sxltbaseWrite (h : Ins) (op : CsrOp) (rd src : Nat)
  /-- R94: A write of sxltinv drains the context's stores and starts a partition shootdown across its span. -/
  | sxltinvWrite (h : Ins) (op : CsrOp) (rd src : Nat)
  /-- R61: A write of a PMP CSR changes the core's entries for every context from the next instruction issued. -/
  | pmpWrite (h : Ins) (op : CsrOp) (csr rd src : Nat)
  /-- R68: A write of mifclaim or sifclaim returns the highest pending enabled vector of its level and clears its pending bit. -/
  | ifClaim (h : Ins) (op : CsrOp) (mLevel : Bool) (rd src : Nat)
  /-- R69: A write of mifeoi or sifeoi sends COMPLETE for the vector to the interrupt router. -/
  | ifEoi (h : Ins) (op : CsrOp) (mLevel : Bool) (rd src : Nat)
  /-- R72: A write of mifpost or sifpost drains the context's stores and sets the vector pending at the target context. -/
  | ifPost (h : Ins) (op : CsrOp) (mLevel : Bool) (rd src : Nat)
  /-- R72: A source event on an enabled route sends DELIVER when not SENT, or sets PEND. -/
  | routeEvent (route : Nat) (asserted : Bool)
  /-- R72: A DELIVER at the target core sets IPEND of the vector, possibly waking the context, or is refused and the route sets LOST. -/
  | deliver (core : Nat)
  /-- R72: A COMPLETE at the router clears SENT on matching routes and delivers again if PEND or the level persists. -/
  | complete
  /-- R71: A write of IRT_ROUTEn sets fields or, setting EN, runs the consistency check, and clearing EN drops SENT and PEND. -/
  | irtRouteWrite (q : Req) (n : Nat) (v : W64)
  /-- R73: A write of IRT_MSI fires the named message route, or is discarded and logged. -/
  | msiDoorbell (q : Req) (v : BitVec 32)
  /-- R85: A TLB miss that finds no STLB hit starts a walk on a free walker, or joins a matching walk in flight. -/
  | walkStart (core ctx : Nat) (fetch : Bool)
  /-- R371: When the last bucket of a round completes, the walker ends with a match, an error, a page fault, or runs round 2. -/
  | walkRoundDecision (core w : Nat)
  /-- R91: The OR's old value returns and is compared, completing the walk, restarting it, or faulting. -/
  | adFlagOrReturn (core w : Nat)
  /-- R94: A core receiving a shootdown invalidates matching TLB entries and discards walks in flight. -/
  | shootdownReceipt (core : Nat)
  /-- R94: Once its store entries and pre-receipt accesses have completed, a core acknowledges the shootdown. -/
  | shootdownLocalDone (core : Nat)
  /-- R94: An acknowledgement reaches the issuer, and the last one clears BUSY, sets DONE and wakes the issuing context. -/
  | shootdownAck
  /-- R100: The L2 sends a miss request once a victim can be placed in a free eviction-buffer entry. -/
  | l2MissRequest (core line : Nat)
  /-- R135: A request waiting at the die egress is launched when its (partition, slice) queue holds a credit and the pointer picks it. -/
  | requestLaunch (die : Nat)
  /-- R143: A credit-return item reaches the die, which may use the credit again from that F-cycle. -/
  | creditReturn (die : Nat)
  /-- R107: An RD_S reaches its home slice and waits in the arrival queue for admission. -/
  | rdS (slice : Nat)
  /-- R107: An RD_M, with or without ZERO, reaches its home slice and waits for admission. -/
  | rdM (slice : Nat)
  /-- R113: A UPG reaches its home slice and waits for admission, being handled as RD_M if the requester shows I. -/
  | upg (slice : Nat)
  /-- R116: An AMO_H reaches its home, its implied eviction is applied as a release, and it waits for admission. -/
  | amoH (slice : Nat)
  /-- R105: The slice admits one request per F-cycle, a ready line-queue head first, and looks it up to snoop, read or grant. -/
  | homeAdmission (slice : Nat) (e : HomeErr)
  /-- R106: A WB is applied in the release port on arrival, updating the duplicate entry, writing the MSC and sending WB_ACK. -/
  | wb (slice : Nat)
  /-- R106: An EVC is applied in the release port on arrival, clearing the duplicate entry and sending EVC_ACK. -/
  | evc (slice : Nat)
  /-- R108: A snoop answer without data reaches its tracker, which grants and closes once every copy is known gone. -/
  | snpAck (slice : Nat)
  /-- R108: A snoop answer with data reaches its tracker, which writes the MSC and grants or discards per R112. -/
  | snpData (slice : Nat)
  /-- R99: A DATA_S fill installs the line in S, or with an error status completes the access as a bus error. -/
  | dataS (core : Nat) (e : CoreErr)
  /-- R99: A DATA_M fill installs the line in M, with zeros for CBO.ZERO, or completes as a bus error. -/
  | dataM (core : Nat)
  /-- R116: An AMO_RET completes the far operation, writing rd with the old value or raising its bus error. -/
  | amoRet (core : Nat)
  /-- R100: An ACK_UPG grants ownership of a line held in SM, which becomes M. -/
  | ackUpg (core : Nat)
  /-- R100: A WB_ACK frees the line's eviction-buffer entry. -/
  | wbAck (core : Nat)
  /-- R100: An EVC_ACK frees the line's eviction-buffer entry. -/
  | evcAck (core : Nat)
  /-- R110: An SNP_INV at the L2 invalidates the line and answers per its state, or is held in IS or IM. -/
  | snpInv (core : Nat)
  /-- R110: An SNP_SHD at the L2 downgrades an M line to S with data and answers per its state, or is held. -/
  | snpShd (core : Nat)
  /-- R111: A snoop held for an IS or IM line is answered once the fill is installed and the access performed once. -/
  | heldSnoopAnswer (core line : Nat)
  /-- R120: A non-coherent agent's read is served at the MSC of the line's home, or from DRAM on a miss. -/
  | ncRead (slice : Nat)
  /-- R120: A non-coherent agent's write is installed or merged at the MSC of the line's home. -/
  | ncWrite (slice : Nat)
  /-- R184: DRAM read data returns and is decoded CLEAN, CORRECTED, POISONED or UNCORRECTABLE before the home continues. -/
  | dramReadComplete (mc : Nat) (errs : List SymErr)
  /-- R128: A request forwarded from another package arrives at its home and takes a reel-pool tracker for admission. -/
  | reelRequest (slice : Nat)
  /-- R128: A remote SNP_SHD at the owning package's slice snoops its M holder and returns the data. -/
  | rsnpShd (slice : Nat)
  /-- R128: A remote SNP_INV invalidates every holder in the receiving package before it answers. -/
  | rsnpInv (slice : Nat)
  /-- R128: A remote holder's answer without data reaches the home tracker. -/
  | rsnpAck (slice : Nat)
  /-- R128: A remote holder's answer with the line reaches the home, which writes its MSC. -/
  | rsnpData (slice : Nat)
  /-- R140: A grant from a remote home reaches the requester's slice, which updates its duplicate entry and launches the fill. -/
  | relayedResponse (slice : Nat)
  /-- R129: A forwarded WB or EVC from the last holder in a package reaches the home, which clears its presence bit. -/
  | forwardedRelease (slice : Nat)
  /-- R208: A WB_ACK or EVC_ACK over a reel link completes a forwarded release at the sending package. -/
  | remoteReleaseAck (slice : Nat)
  /-- R119: A range-clean engine takes a pipeline slot and snoops matching duplicate-tag entries of one set. -/
  | rangeCleanScan (slice : Nat)
  /-- R119: When every engine in every package has finished, MEM_CLEAN_RANGE replies. -/
  | rangeCleanDone
  /-- R148: A tracker's timer reaches HS_TMO.LIMIT and the die is fenced, the link failed, or the request ends with DEVICE_ERROR. -/
  | trackerTimeout (slice line : Nat)
  /-- R166: The 1 ms sideband poll of a die is made and a third consecutive miss fences it. -/
  | sidebandPoll (die : Nat) (answered : Bool)
  /-- R157: A slip frame is received, its beats checked by SEC-DED, and it is delivered, corrected or discarded. -/
  | slipFrameReceive (die g : Nat) (beats : List (BitVec 72))
  /-- R159: A replay request reaches the transmitter, which relaunches the named frame and every later one. -/
  | slipReplayRequest (die g frame : Nat)
  /-- R160: At each 2^WINDOW F-cycles the receiver clears its per-wire and per-group counters. -/
  | slipErrorWindow (die g : Nat)
  /-- R162: The repair window ends and the group returns with its new map, or is retired on a failed check. -/
  | slipRepairDone (die g : Nat) (pass : Bool)
  /-- R165: After 8 F-cycles of waiting for replays, a moved stream continues on its new group. -/
  | streamHandoverEnd (die g : Nat)
  /-- R171: A same-bank refresh is issued at tREFI, or twice as often while hot, preceded by its precharge. -/
  | refresh (mc : Nat)
  /-- R171: Every 100 ms the kiln reads each channel's SPD hub and thermal sensors over I3C. -/
  | spdSensorPoll (temps : List (Nat × Nat))
  /-- R171: An ALERT_N assertion is a CA parity error, retried once and then a controller error. -/
  | alertN (mc : Nat)
  /-- R344: A channel retrain after a second RCD parity error ends, returning the channel or taking it out of service. -/
  | channelRetrainDone (mc : Nat) (ok : Bool)
  /-- R189: A spaced patrol read of the next line is made and a corrected line written back. -/
  | patrolRead (mc : Nat) (errs : List SymErr)
  /-- R185: The 2^WINDOW counting window for device events and page corrected reads ends and restarts. -/
  | memrasWindow
  /-- R191: ECT OP 1 flushes the line and writes ECT_DATA and ECT_CHECK with no encode. -/
  | ectWriteRaw (q : Req)
  /-- R191: ECT OP 2 flushes the line, encodes ECT_DATA, XORs ECT_CHECK into the checks and writes the result. -/
  | ectWriteEnc (q : Req)
  /-- R191: ECT OP 3 flushes the line and reads its data and check symbols into the window with no decode. -/
  | ectReadRaw (q : Req)
  /-- R191: ECT OP 4 flushes the line and decodes it with the current marks, returning data and outcome. -/
  | ectReadDec (q : Req)
  /-- R191: An ECC test operation completes, clearing BUSY and setting DONE and its status. -/
  | ectOpDone
  /-- R193: A 64 GiB granule finishes firing and is released as fired for assignment. -/
  | fireGranuleDone
  /-- R180: The last dirty write of the isolation scan completes and the waiting command proceeds. -/
  | mscScanDone
  /-- R205: In every flit time the transmitter sends a sequenced flit from its packer and wheel, or a NULL flit. -/
  | reelFlitTransmit (k : Nat)
  /-- R205: A received flit is checked, delivered in sequence with its credits and ACKSEQ, or discarded with a NAK. -/
  | reelFlitReceive (k : Nat) (rx : FlitRx) (f : Flit)
  /-- R220: 1,024 F-cycles without an intact flit make the link retrain on its stored presets. -/
  | reelSilenceTimeout (k : Nat)
  /-- R220: A retrain reaches L0, possibly at lower width or speed with a longer crossing. -/
  | reelRetrainDone (k : Nat) (x16 g64 : Bool)
  /-- R220: A retrain not reaching L0 within 256 µs declares the link failed. -/
  | reelRetrainTimeout (k : Nat)
  /-- R211: A RESYNC naming a failed link reaches the receiver, which answers RESYNC_ACK with per-class RFSEQ values. -/
  | resync (src slot : Nat)
  /-- R211: The transmitter resends undelivered messages on the new mapping and resumes. -/
  | resyncAck (src slot : Nat) (rfseq : List Nat)
  /-- R211: After a link is added or removed, every sequenced flit is acknowledged and the bundle resumes on the new mapping. -/
  | bundleQuiesced (peer : Nat)
  /-- R212: A reel training stage completes or fails with its stage reason. -/
  | reelTrainingStage (k stage : Nat) (r : TrainRes) (x16 g64 : Bool) (flight : Nat)
  /-- R213: A peer's HELLO is checked for revision, ID and topology and the link accepted or taken down. -/
  | hello (k : Nat) (ctl : BitVec 96)
  /-- R218: A relayed kiln command, reply or formation report arrives and is executed or delivered in arrival order. -/
  | krelay (src : Nat) (p : KRelay)
  /-- R214: After 2 s without exactly one lead, the package disables its reel links and runs alone. -/
  | formationTimeout
  /-- R217: Every 4,096 F-cycles the lead sends TSYNC to each member. -/
  | tsyncSend
  /-- R217: A member compares a received TSYNC with its time base and adjusts each tick by one F-cycle. -/
  | tsync (k fTime : Nat)
  /-- R221: A LOSS report reaches the lead or deputy, which expels a package or forwards it. -/
  | loss (p q : Nat)
  /-- R222: An EXPEL takes links to the package down, marks it LOST and applies R131, or makes the receiver run alone. -/
  | expel (x : Nat)
  /-- R221: After 200 µs with no bundle failure toward it, the deputy becomes lead and expels the old lead. -/
  | deputyWaitExpiry
  /-- R221: No EXPEL within 1 ms of a LOSS makes the reporting package expel itself. -/
  | lossTimeout
  /-- R216: A non-coherent read from another package is served at this home's MSC and answered with NCCPL. -/
  | ncrd (slice : Nat)
  /-- R216: A non-coherent write from another package is performed at this home's MSC. -/
  | ncwr (slice : Nat)
  /-- R216: A non-coherent read completion with status returns to the requesting agent. -/
  | nccpl
  /-- R229: A DRAINING partition's last request and started mailbox command end, and it becomes DEFINED. -/
  | partitionDrainDone (p : Nat)
  /-- R339: The L2 is written back and emptied, the context store zeroed and core state reset. -/
  | coreResetDone (core : Nat)
  /-- R240: A write of MBX_DOORBELL submits a command slot or is refused with QUEUE_FULL. -/
  | mbxDoorbell (q : Req) (p : Nat) (v : W64)
  /-- R245: An accepted command waiting on ORDERED, a shared object or an engine starts once it is free. -/
  | deferredCommandStart (id : Nat)
  /-- R238: A held reply is written to its reply ring or slot once there is room, advancing indices and signalling. -/
  | replyWrite
  /-- R243: A queued notice is written to reply ring 0 and to the concerned partition's mailbox. -/
  | noticeWrite
  /-- R248: ECHO returns its parameters unchanged. -/
  | echo (id : Nat)
  /-- R248: GET_INFO returns the selected identity and memory-layout section. -/
  | getInfo (id : Nat)
  /-- R248: GET_STATUS returns set-check, population, boot stage, firing, log and alarm status. -/
  | getStatus (id : Nat)
  /-- R256: SET_MODE sets a function to HW or ASSIST and returns the previous mode. -/
  | setMode (id : Nat)
  /-- R248: GET_MODE returns the mode of a function. -/
  | getMode (id : Nat)
  /-- R232: PART_CREATE takes a FREE partition to DEFINED across its span with its level and privilege. -/
  | partCreate (id : Nat)
  /-- R232: PART_ASSIGN_CORES adds or removes cores of a partition, resetting each core that moves. -/
  | partAssignCores (id : Nat)
  /-- R232: PART_ASSIGN_MEMORY adds a checked window or removes one, firing released units. -/
  | partAssignMemory (id : Nat)
  /-- R249: PART_ASSIGN_IO adds or removes DMA channels and root ports of a partition. -/
  | partAssignIo (id : Nat)
  /-- R249: PART_SET_QOS applies the selected grants, reservation, way mask, wheels and weight, all or none. -/
  | partSetQos (id : Nat)
  /-- R233: PART_ENABLE runs the enable checks and makes the first context READY across the span. -/
  | partEnable (id : Nat)
  /-- R229: PART_DISABLE empties the partition's contexts, clears its routes and channels and resets its cores. -/
  | partDisable (id : Nat)
  /-- R232: PART_DESTROY takes a DEFINED partition to FREE and releases its resources for firing. -/
  | partDestroy (id : Nat)
  /-- R249: PART_QUERY returns the partition's control, core, IO, way and window registers. -/
  | partQuery (id : Nat)
  /-- R266: PWR_SET_PACKAGE requests PS0 to PS3 or AUTO, holding and quiescing contexts for a deeper state. -/
  | pwrSetPackage (id : Nat)
  /-- R277: PWR_SET_PSTATE requests a die P-state and core frequencies. -/
  | pwrSetPstate (id : Nat)
  /-- R250: PWR_QUERY returns package, die and power status. -/
  | pwrQuery (id : Nat)
  /-- R279: PWR_SET_LIMIT sets the package power limit and averaging window. -/
  | pwrSetLimit (id : Nat)
  /-- R194: MEM_FIRE unfires, discards and fires a range of whole units, clearing their suspect state. -/
  | memFire (id : Nat)
  /-- R190: MEM_SCRUB_RANGE starts a scrub pass over a range in every channel. -/
  | memScrubRange (id : Nat)
  /-- R190: A range scrub finishes and replies with its counts and lowest non-CLEAN address. -/
  | scrubRangeDone
  /-- R189: MEM_SET_PATROL sets the patrol period or stops patrol. -/
  | memSetPatrol (id : Nat)
  /-- R195: MEM_RETIRE_PAGE flushes a page and installs it in the retired-page table. -/
  | memRetirePage (id : Nat)
  /-- R185: MEM_MARK_DEVICE replaces the marked device of a subchannel and rank. -/
  | memMarkDevice (id : Nat)
  /-- R197: MEM_BANK_ACCEPT clears the suspect state of the named banks. -/
  | memBankAccept (id : Nat)
  /-- R119: MEM_CLEAN_RANGE starts the range-clean engines of every slice of the span. -/
  | memCleanRange (id : Nat)
  /-- R252: LINK_QUERY returns the status and error counts of a slip group or reel slot. -/
  | linkQuery (id : Nat)
  /-- R162: LINK_REPAIR starts the repair of a due wire in ASSIST mode, or refuses with LINK_NO_SPARE. -/
  | linkRepair (id : Nat)
  /-- R252: LINK_TEST runs the interconnect test of an offline slip link or an inactive reel slot. -/
  | linkTest (id : Nat) (passed : BitVec 16) (x16 g64 : Bool)
  /-- R215: REEL_ENABLE trains a reel slot and adds it to its peer's bundle. -/
  | reelEnable (id : Nat)
  /-- R215: REEL_DISABLE stops a link, waits for acknowledgements and takes it down. -/
  | reelDisable (id : Nat)
  /-- R252: LOG_READ writes log records from a sequence number to the source's destination. -/
  | logRead (id : Nat)
  /-- R346: LOG_CLEAR removes log records up to a sequence number. -/
  | logClear (id : Nat)
  /-- R252: DIE_OFFLINE writes back and empties the die's L2s and holds it out of service. -/
  | dieOffline (id : Nat)
  /-- R167: DIE_ONLINE resets a die, reapplies its repairs, tests and retrains its slip link. -/
  | dieOnline (id : Nat) (badWires : List (Nat × Nat)) (recheckBad : List Nat)
  /-- R329: PMU_WINDOW_SET sets or stops a bandwidth window. -/
  | pmuWindowSet (id : Nat)
  /-- R253: FW_STAGE verifies an image in the staging area and copies it to standby SRAM. -/
  | fwStage (id : Nat) (img : Image)
  /-- R254: FW_ACTIVATE stops accepting commands and finishes those started before the switch. -/
  | fwActivate (id : Nat)
  /-- R254: Once started commands finish, the kiln switches to the staged image, which replies and resumes. -/
  | fwSwitch
  /-- R264: A core whose conditions and T allow enters CS1, CS2 or CS3. -/
  | coreStateEntry (core : Nat)
  /-- R272: A core's exit completes its restore stages and it can issue again. -/
  | coreExitDone (core : Nat)
  /-- R264: A die whose cores all allow enters DS1 or DS2. -/
  | dieStateEntry (die : Nat)
  /-- R272: A die's exit completes its restore stages and it returns to DS0. -/
  | dieExitDone (die : Nat)
  /-- R262: A write of PWR_SPILLc setting EN checks the area and flushes its lines from every L2. -/
  | pwrSpillWrite (q : Req) (c : Nat) (v : W64)
  /-- R262: A write of DEEPEST limits the core's state and makes a CS3 core exit when lowered. -/
  | pwrCorectlWrite (q : Req) (c : Nat) (v : W64)
  /-- R264: A write of DEEPEST limits the die's state. -/
  | pwrDiectlWrite (q : Req) (d : Nat) (v : W64)
  /-- R266: No context is in MISS and every store buffer has drained, so package entry proceeds. -/
  | pkgQuiesceDone
  /-- R267: A package entry step ends, and the next starts, the target is reached, or undoing begins. -/
  | pkgEntryStepDone
  /-- R270: A wake sets its PEND bit, requests PS0, and the package undoes steps after the current one. -/
  | packageWake (src port : Nat)
  /-- R272: A package exit restore stage completes, and the next stage or PS0 follows. -/
  | pkgExitStepDone
  /-- R273: A ready signal not seen in time fences the die or leaves the package in the state reached. -/
  | restoreReadyTimeout (what idx : Nat)
  /-- R264: A sleeping core, die or package starts its exit at the deadline less its exit latency. -/
  | deadlinePrewake (level idx : Nat)
  /-- R274: A squelch detector recognises the reel wake pattern and wakes the package. -/
  | reelWakePattern (k bursts periodNs : Nat)
  /-- R275: A filtered WAKE_IN assertion or deassertion wakes or holds the package or fires its route. -/
  | wakeInChange (i : Nat) (high : Bool)
  /-- R275: An input asserted for 1 s becomes STUCK. -/
  | wakeInStuck (i : Nat)
  /-- R275: A STUCK input deasserted for 10 ms leaves STUCK. -/
  | wakeInUnstuck (i : Nat)
  /-- R275: A chatter-masked source with no event for one second is unmasked. -/
  | wakeMaskExpiry (kind idx : Nat)
  /-- R277: A voltage settles or a frequency step ends, continuing the P-state change. -/
  | vfTransitionDone (die : Nat)
  /-- R279: Every 1 ms the kiln measures power and moves one die's cap toward the limit. -/
  | powerSample (watts : Nat) (temps : List (Nat × Nat))
  /-- R280: A sensor crossing THROT or its hysteresis changes thermal caps or sends a notice. -/
  | thermalSample (blk temp : Nat)
  /-- R280: A filtered HOT_N change caps every die at P7 or releases the caps, or sends a notice. -/
  | hotNChange (asserted : Bool)
  /-- R280: A filtered MEMHOT_N change doubles or restores refresh and halves activates. -/
  | memhotNChange (asserted : Bool)
  /-- R281: A sensor at 115 °C asserts THERMTRIP_N, stops every clock and holds all but AON in reset. -/
  | thermtrip (blk temp : Nat)
  /-- R299: A filtered PERST# change takes endpoint link reset and clears sticky AER and PME_En. -/
  | perstChange (asserted : Bool)
  /-- R299: A hot reset or link down of the endpoint takes endpoint link reset. -/
  | endpointLinkDown
  /-- R298: A Function Level Reset disables every ring, quarantines reads and resets endpoint function registers. -/
  | flr
  /-- R297: Clearing Bus Master Enable stops endpoint writes, reads and MSI-X, holding replies. -/
  | busMasterEnableClear
  /-- R297: Setting Bus Master Enable writes held replies, sends pending vectors and resumes fetching. -/
  | busMasterEnableSet
  /-- R293: Setting MSI-X Enable makes vectors pending for set events, and clearing it clears the PBA. -/
  | msixEnableChange (on : Bool)
  /-- R293: Clearing a function or vector mask sends the pending MSI-X message. -/
  | msixUnmask (vec : Option Nat)
  /-- R284: A write of PMCSR moves the endpoint between D0 and D3hot or changes PME bits. -/
  | pmcsrWrite (v : BitVec 16)
  /-- R286: A BAR0 aperture access reaches the physical address EP_WINBASE names. -/
  | windowAccess (write : Bool) (off size : Nat) (data : List Byte)
  /-- R288: A BAR2 access reaches the mailbox block with the control host's reach. -/
  | bar2Access (write : Bool) (off size : Nat) (data : List Byte)
  /-- R289: Setting EP_RINGCTLr.EN runs the ring check and starts the ring pair RUNNING with indices 0. -/
  | ringEnable (r : Nat) (v : W64)
  /-- R296: Clearing EP_RINGCTLr.EN stops fetching and discards the ring's completions and replies. -/
  | ringDisable (r : Nat) (v : W64)
  /-- R290: A write of EP_CRPIr makes the endpoint issue reads for the new units. -/
  | crpiWrite (r : Nat) (v : W64)
  /-- R290: A read completion fills ring units, passes whole packets in order, or faults the ring. -/
  | ringReadCompletion (tag : Nat) (st : CplStat) (units : List W64)
  /-- R294: A ring read times out, quarantining its tag and faulting the ring. -/
  | ringReadTimeout (tag : Nat)
  /-- R300: After 32 µs idle with nothing outstanding the endpoint requests L1. -/
  | aspmL1Entry
  /-- R301: On PME_Turn_Off the endpoint answers PME_TO_Ack and lets the link enter L2. -/
  | pmeTurnOff
  /-- R303: Setting DMA_CHCTL.EN checks the channel and starts it IDLE with an empty ring. -/
  | dmaChannelEnable (q : Req) (ch : Nat) (v : W64)
  /-- R316: Clearing DMA_CHCTL.EN stops the channel, abandons its entry and starts DRAINING. -/
  | dmaChannelDisable (q : Req) (ch : Nat) (v : W64)
  /-- R310: A write of DMA_CHPI acts as a trigger carrying its PI. -/
  | dmaChpiWrite (q : Req) (ch : Nat) (v : W64)
  /-- R310: A trigger notice reaches the engine, which reads the trigger line. -/
  | dmaTriggerNotice (ch : Nat)
  /-- R311: The trigger line's PI and RESUME arrive and entries are triggered, withdrawn or the channel halts or resumes. -/
  | triggerLineReadDone (ch : Nat)
  /-- R308: An engine free of its last read picks the held chain or the next eligible channel and fetches a descriptor. -/
  | dmaNextDescriptor (e : Nat)
  /-- R306: A fetched descriptor is checked and its transfer begins or its entry completes with the reason. -/
  | descriptorArrival (e : Nat)
  /-- R315: A source line read returns and its bytes are written onward, poisoned or skipped on error. -/
  | dmaReadReturn (e : Nat)
  /-- R313: A destination write is acknowledged, and when an entry's writes have all arrived CI advances and its record is written. -/
  | dmaWriteAck (e : Nat)
  /-- R313: The completion record's write is acknowledged and the channel's route fires if required. -/
  | completionRecordAck (ch : Nat)
  /-- R314: A BAR descriptor becomes eligible once earlier writes and posted device writes have arrived. -/
  | barrierRelease (ch : Nat)
  /-- R316: A DRAINING channel's last access ends and it reads DISABLED. -/
  | dmaDrainDone (ch : Nat)
  /-- R320: A core counter wraps, setting OF and raising LCOFIP or a sample as configured. -/
  | counterWrap (core n : Nat)
  /-- R321: A sample's instruction completes or traps and its record is buffered, or counted in LOST or DROP. -/
  | sampleRecord (core n : Nat)
  /-- R324: The core reads CI and writes buffered records into the sample ring. -/
  | sampleSpill (core : Nat)
  /-- R324: Once every record write is acknowledged the core writes PI and LOST to the header. -/
  | sampleSpillAck (core : Nat)
  /-- R325: Setting CD_SMPRING.EN checks the ring and writes PI and LOST as 0. -/
  | smpRingEnable (q : Req) (die l : Nat) (v : W64)
  /-- R328: A block counter wraps, setting OF and firing its block kind's route when INT = 1. -/
  | blockCounterWrap (kind idx n : Nat)
  /-- R329: A bandwidth window's interval ends, latching its totals, incrementing SEQ and logging mailbox windows. -/
  | bwWindowInterval (w : Nat)
  /-- R337: AON power-good rising takes AON reset, clearing every domain. -/
  | aonReset
  /-- R331: 1 ms after AON, reference and I/O power-good, AON reset is released, straps sampled and the ROM runs. -/
  | aonResetRelease (samples : List (BitVec 5))
  /-- R332: A boot image from flash or the staging area verifies, or the ROM waits for a pushed image. -/
  | bootImageVerified (copyA copyB : Option Image)
  /-- R332: A write of GLB_BOOTIMG with GO starts verification of a pushed image. -/
  | glbBootimgGo (q : Req) (v : W64) (img : Option Image)
  /-- R334: A rail raised at boot reports power-good and bring-up continues. -/
  | railPowerGood (rail : Nat)
  /-- R334: A rail without power-good in 10 ms fences its die or stops boot. -/
  | railPgTimeout (rail : Nat)
  /-- R331: A boot stage finishes its work and the next stage begins. -/
  | bootStageComplete (o : BootObs)
  /-- R337: Loss of I/O power-good takes package reset, keeping ranks in self-refresh. -/
  | packageReset
  /-- R337: A host write of GLB_RESET with PKG and the key takes package reset. -/
  | glbResetPkg (q : Req) (v : W64)
  /-- R340: A host write of GLB_RESET with KILN and the key takes a kiln reset. -/
  | glbResetKiln (q : Req) (v : W64)
  /-- R340: The watchdog expires without a signal and a kiln reset follows. -/
  | kilnWatchdog
  /-- R362: A filtered loss of a rail's power-good fences a die or takes package reset. -/
  | pgFall (rail : Nat)
  /-- R357: Setting RPT_CTLn.EN enables the root port and trains its link, or is refused. -/
  | rptEnable (q : Req) (n : Nat) (v : W64)
  /-- R357: A root-port link down or EN clear ends downstream requests with DEVICE_ERROR and starts draining. -/
  | rptLinkDown (enWrite : Option (Req × W64)) (n : Nat)
  /-- R357: A draining root port performs its last received upstream TLP and leaves DRAINING. -/
  | rptDrainDone (n : Nat)
  /-- R355: An upstream TLP from a device is blocked, fires the doorbell, is refused, or is performed at the MSC. -/
  | upstreamTlp (n : Nat) (k : UpKind) (addr len : Nat) (data : List Byte) (ep : Bool)
  /-- R356: A root-port completion completes a core's device access, or as a bus error. -/
  | downstreamCompletion (n id : Nat) (st : CplStat) (val : W64)
  /-- R356: A downstream request without completion in the CTO time completes with DEVICE_ERROR. -/
  | rootPortCplTimeout (n id : Nat)
  /-- R353: A configuration request answered with retry status is resent every 1 ms for up to 1 s. -/
  | configRetry (n id : Nat)
  /-- R10: A write to a register with no row of its own sets, clears or ignores its fields by access code. -/
  | registerWrite (sp : RegSpace) (q : Req) (off size : Nat) (v : W64)
  /-- R265: Under AUTO in HW mode, the package starts entry toward the deepest state whose threshold T meets and whose conditions hold. -/
  | pkgAutoEntry
  /-- R64: The completion of a core's control-space or non-cacheable access returns to the core, giving load data or completing the store, or a bus error. -/
  | deviceAccessCompletion (id : Nat)
  /-- R357: A root-port link finishes training and reaches L0, and RPT_STAT shows its rate, width and flit mode. -/
  | rootPortLinkUp (n gen width : Nat) (flit : Bool)
  /-- R269: A root-port link enters or leaves ASPM L1, changing the PS2 condition and, on leaving L1, raising the ROOTPORT wake. -/
  | rootPortL1Change (n : Nat) (enter : Bool)
  /-- R301: The control endpoint's link reaches L0, which releases WAKE# and lets held replies and interrupts flow. -/
  | endpointLinkUp
  /-- R300: With ASPM L0s enabled, an endpoint transmitter with nothing to send for 1 µs enters L0s. -/
  | aspmL0sEntry
  /-- R298: 10 µs after an FLR is initiated, the endpoint accepts configuration requests again and reports Transactions Pending = 0. -/
  | flrComplete
  /-- R163: The forwarded clock of a slip group fails, and the group is retired and its stream carried elsewhere, or the die is fenced. -/
  | forwardedClockFailure (die g : Nat)
  deriving DecidableEq, Repr

end Sys2Proof
end

