-- ==== Sys2Proof/Machine/Bits.lean ====
section
/-! DEFINITION. Bit fields, bytes and the sparse table's operations (R10 register fields, R46
little-endian layouts). -/

namespace Sys2Proof

/-- The entry of a table at an index, or the default. -/
def Tab.get {V : Type} (d : V) : Tab V → Nat → V
  | [], _ => d
  | (k, v) :: m, i => if i = k then v else Tab.get d m i

/-- The entry of a table at an index, if it has one. -/
def Tab.find {V : Type} : Tab V → Nat → Option V
  | [], _ => none
  | (k, v) :: m, i => if i = k then some v else Tab.find m i

/-- A table without the entry at an index. -/
def Tab.del {V : Type} : Tab V → Nat → Tab V
  | [], _ => []
  | (k, v) :: m, i => if i = k then Tab.del m i else (k, v) :: Tab.del m i

/-- A table with a (non-default) value placed at an index. -/
def Tab.ins {V : Type} : Tab V → Nat → V → Tab V
  | [], i, w => [(i, w)]
  | (k, v) :: m, i, w =>
    if i = k then (i, w) :: m else if i < k then (i, w) :: (k, v) :: m else (k, v) :: Tab.ins m i w

/-- A write of a table: writing the default removes the entry, so equal tables are equal data. -/
def Tab.put {V : Type} [DecidableEq V] (d : V) (m : Tab V) (i : Nat) (w : V) : Tab V :=
  if w = d then Tab.del m i else Tab.ins m i w

/-- Every index of the table is at least a bound and the indices rise strictly. -/
def Tab.sortedFrom {V : Type} : Nat → Tab V → Bool
  | _, [] => true
  | b, (k, _) :: m => decide (b ≤ k) && Tab.sortedFrom (k + 1) m

/-- The canonical form of a table with a default. -/
def Tab.wf {V : Type} [DecidableEq V] (d : V) (m : Tab V) : Bool :=
  Tab.sortedFrom 0 m && m.all (fun e => decide (e.2 ≠ d))

/-- Bits [lo+len-1:lo] of a word, as a number. -/
def bits {n : Nat} (v : BitVec n) (lo len : Nat) : Nat :=
  (v.toNat >>> lo) % 2 ^ len

/-- A word with bits [lo+len-1:lo] replaced. -/
def setBits {n : Nat} (v : BitVec n) (lo len x : Nat) : BitVec n :=
  let m := (2 ^ len - 1) <<< lo
  (v &&& ~~~ (BitVec.ofNat n m)) ||| BitVec.ofNat n ((x % 2 ^ len) <<< lo)

/-- One bit of a word. -/
def bit {n : Nat} (v : BitVec n) (i : Nat) : Bool := v.getLsbD i

/-- A word with one bit set to a value. -/
def setBit {n : Nat} (v : BitVec n) (i : Nat) (b : Bool) : BitVec n := setBits v i 1 b.toNat

/-- A signed number cut to a word. -/
def wordOfInt (i : Int) : W64 := BitVec.ofInt 64 i

/-- A 32-bit value sign-extended to 64 bits. -/
def sext32 (v : BitVec 32) : W64 := v.signExtend 64

/-- The low 32 bits of a word. -/
def lo32 (v : W64) : BitVec 32 := v.truncate 32

/-- A value of 2^sz bytes extended to 64 bits, by its sign or by zeros. -/
def extendLoad (sz : Nat) (sgn : Bool) (v : Nat) : W64 :=
  let w := 8 * 2 ^ sz
  let v := v % 2 ^ w
  if sgn && decide (2 ^ (w - 1) ≤ v) then BitVec.ofNat 64 (2 ^ 64 - 2 ^ w + v) else BitVec.ofNat 64 v

/-- Little-endian bytes of a number, lowest first. -/
def leBytes : Nat → Nat → List Byte
  | 0, _ => []
  | n + 1, v => BitVec.ofNat 8 v :: leBytes n (v / 256)

/-- The number that little-endian bytes spell. -/
def leNat : List Byte → Nat
  | [] => 0
  | b :: bs => b.toNat + 256 * leNat bs

/-- The number of a truth value. -/
def b2n (b : Bool) : Nat := b.toNat

end Sys2Proof
end

