-- ==== Sys2Proof/Machine/Alu.lean ====
section
/-! DEFINITION. The integer functions of R15's first rows and of M: RV64I, Zba, Zbb, Zbs, Zicond, multiply,
divide, the branch conditions and the AMO functions, as the RISC-V unprivileged specification that R54 names gives
them (PRESUMED, log 5), and the divide latency of R18. -/

namespace Sys2Proof.Machine

/-- The number of leading zeros of a value of w bits. -/
def clzNat (w v : Nat) : Nat := w - (if v = 0 then 0 else v.log2 + 1)

/-- The number of trailing zeros of a value of w bits. -/
def ctzNat : Nat → Nat → Nat
  | 0, _ => 0
  | w + 1, v => if v % 2 = 1 then 0 else 1 + ctzNat w (v / 2)

/-- The number of ones of a value of w bits. -/
def popNat : Nat → Nat → Nat
  | 0, _ => 0
  | w + 1, v => v % 2 + popNat w (v / 2)

/-- A word whose bytes are a function of another's. -/
def mapBytes (f : Nat → Byte) : W64 := BitVec.ofNat 64 (leNat ((List.range 8).map f))

/-- Byte i of a word. -/
def byteOf (v : W64) (i : Nat) : Byte := BitVec.ofNat 8 (bits v (8 * i) 8)

/-- The result of an integer ALU operation; `pc` is the instruction's address (AUIPC). -/
def aluFn (op : AluOp) (pc a b : W64) : W64 :=
  let s6 := b.toNat % 64
  let s5 := b.toNat % 32
  let a32 := lo32 a
  let zx := (lo32 a).zeroExtend 64
  match op with
  | .add => a + b
  | .sub => a - b
  | .sll => a <<< s6
  | .slt => if a.slt b then 1 else 0
  | .sltu => if a.ult b then 1 else 0
  | .xor => a ^^^ b
  | .srl => a >>> s6
  | .sra => a.sshiftRight s6
  | .or => a ||| b
  | .and => a &&& b
  | .addw => sext32 (a32 + lo32 b)
  | .subw => sext32 (a32 - lo32 b)
  | .sllw => sext32 (a32 <<< s5)
  | .srlw => sext32 (a32 >>> s5)
  | .sraw => sext32 (a32.sshiftRight s5)
  | .lui => b
  | .auipc => pc + b
  | .adduw => zx + b
  | .sh1add => (a <<< 1) + b
  | .sh2add => (a <<< 2) + b
  | .sh3add => (a <<< 3) + b
  | .sh1adduw => (zx <<< 1) + b
  | .sh2adduw => (zx <<< 2) + b
  | .sh3adduw => (zx <<< 3) + b
  | .slliuw => zx <<< s6
  | .andn => a &&& ~~~ b
  | .orn => a ||| ~~~ b
  | .xnor => ~~~ (a ^^^ b)
  | .clz => BitVec.ofNat 64 (clzNat 64 a.toNat)
  | .clzw => BitVec.ofNat 64 (clzNat 32 a32.toNat)
  | .ctz => BitVec.ofNat 64 (ctzNat 64 a.toNat)
  | .ctzw => BitVec.ofNat 64 (ctzNat 32 a32.toNat)
  | .cpop => BitVec.ofNat 64 (popNat 64 a.toNat)
  | .cpopw => BitVec.ofNat 64 (popNat 32 a32.toNat)
  | .max => if a.slt b then b else a
  | .maxu => if a.ult b then b else a
  | .min => if a.slt b then a else b
  | .minu => if a.ult b then a else b
  | .sextb => (a.truncate 8).signExtend 64
  | .sexth => (a.truncate 16).signExtend 64
  | .zexth => (a.truncate 16).zeroExtend 64
  | .rol => a.rotateLeft s6
  | .rolw => sext32 (a32.rotateLeft s5)
  | .ror => a.rotateRight s6
  | .rorw => sext32 (a32.rotateRight s5)
  | .orcb => mapBytes (fun i => if byteOf a i = 0 then 0 else 0xFF)
  | .rev8 => mapBytes (fun i => byteOf a (7 - i))
  | .bclr => a &&& ~~~ ((1 : W64) <<< s6)
  | .bext => (a >>> s6) &&& 1
  | .binv => a ^^^ ((1 : W64) <<< s6)
  | .bset => a ||| ((1 : W64) <<< s6)
  | .czeroeqz => if b = 0 then 0 else a
  | .czeronez => if b = 0 then a else 0

/-- The result of a multiply (R18): the product of the integers, its low or high half. -/
def mulFn (op : MulOp) (a b : W64) : W64 :=
  match op with
  | .mul => a * b
  | .mulh => wordOfInt ((a.toInt * b.toInt) / 2 ^ 64)
  | .mulhsu => wordOfInt ((a.toInt * (b.toNat : Int)) / 2 ^ 64)
  | .mulhu => BitVec.ofNat 64 ((a.toNat * b.toNat) / 2 ^ 64)
  | .mulw => sext32 (lo32 a * lo32 b)

/-- Signed and unsigned quotient and remainder of w-bit numbers, with the results of the RISC-V specification for
a zero divisor and for overflow. -/
def divFn (op : DivOp) (a b : W64) : W64 :=
  let a32 := lo32 a
  let b32 := lo32 b
  match op with
  | .div => if b = 0 then -1 else wordOfInt (a.toInt.tdiv b.toInt)
  | .divu => if b = 0 then -1 else a / b
  | .rem => if b = 0 then a else wordOfInt (a.toInt.tmod b.toInt)
  | .remu => if b = 0 then a else a % b
  | .divw => if b32 = 0 then -1 else sext32 (BitVec.ofInt 32 (a32.toInt.tdiv b32.toInt))
  | .divuw => if b32 = 0 then -1 else sext32 (a32 / b32)
  | .remw => if b32 = 0 then sext32 a32 else sext32 (BitVec.ofInt 32 (a32.toInt.tmod b32.toInt))
  | .remuw => if b32 = 0 then sext32 a32 else sext32 (a32 % b32)

/-- R18: the magnitude of the quotient a divide or remainder computes; none for a zero divisor. -/
def divQuot (op : DivOp) (a b : W64) : Option Nat :=
  let a32 := lo32 a
  let b32 := lo32 b
  match op with
  | .div => if b = 0 then none else some (a.toInt.tdiv b.toInt).natAbs
  | .rem => if b = 0 then none else some (a.toInt.tdiv b.toInt).natAbs
  | .divu => if b = 0 then none else some (a.toNat / b.toNat)
  | .remu => if b = 0 then none else some (a.toNat / b.toNat)
  | .divw => if b32 = 0 then none else some (a32.toInt.tdiv b32.toInt).natAbs
  | .remw => if b32 = 0 then none else some (a32.toInt.tdiv b32.toInt).natAbs
  | .divuw => if b32 = 0 then none else some (a32.toNat / b32.toNat)
  | .remuw => if b32 = 0 then none else some (a32.toNat / b32.toNat)

/-- R18: the latency of a divide in core cycles: 3 for a zero divisor, else 4 + ⌈q / 2⌉ and at least 8, q the significant
bits of the quotient's magnitude. The overflow case is a quotient of the full width by its magnitude. -/
def divLatency (op : DivOp) (a b : W64) : Nat :=
  match divQuot op a b with
  | none => 3
  | some m =>
    let q := if m = 0 then 0 else m.log2 + 1
    max 8 (4 + (q + 1) / 2)

/-- R22: whether a branch condition holds. -/
def brCond (c : BrCond) (a b : W64) : Bool :=
  match c with
  | .eq => decide (a = b)
  | .ne => decide (a ≠ b)
  | .lt => a.slt b
  | .ge => !a.slt b
  | .ltu => a.ult b
  | .geu => !a.ult b

/-- R114: the new memory value of an AMO from the old value and the operand, in 32 or 64 bits. -/
def amoFn (op : AmoOp) (sz : Nat) (old arg : W64) : W64 :=
  let o := if sz = 2 then sext32 (lo32 old) else old
  let g := if sz = 2 then sext32 (lo32 arg) else arg
  let ou := if sz = 2 then (lo32 old).toNat else old.toNat
  let gu := if sz = 2 then (lo32 arg).toNat else arg.toNat
  match op with
  | .swap => g
  | .add => o + g
  | .and => o &&& g
  | .or => o ||| g
  | .xor => o ^^^ g
  | .min => if o.slt g then o else g
  | .max => if o.slt g then g else o
  | .minu => if ou < gu then o else g
  | .maxu => if ou < gu then g else o

end Sys2Proof.Machine
end

