-- ==== Sys2Proof/Config.lean ====
section
/-! DEFINITION. The free values of the model: what the spec leaves open, as opaque constants that nothing can
evaluate. Each is applied to the state's count of free values taken, or to the operands it depends on. -/

namespace Sys2Proof

/-- The victim way of a pseudo-LRU choice (R29, R84, R99, R178): the spec names the policy and not its state. -/
opaque Config.freeWay (n : Nat) : Nat

end Sys2Proof
end

