-- ==== Sys2Proof/Machine/State.lean ====
section
/-! DEFINITION. The state of the block as plain data: every register, FIFO, buffer, counter, mode and
pin the spec gives the package, the queue of commands that wait, and the state after reset. -/

namespace Sys2Proof.Machine

/-- Why the block stops with a fault. No behaviour of this block ends in a fault: a command that cannot act waits or
is discarded as its rule says. The constructor is kept for a command whose operand names a unit that the
package does not have (a core above 239, a slice above 15), which no agent can send; safe. -/
inductive Fault where
  /-- Raised by no meaning; a closed type needs a constructor. Safe. -/
  | noSuchUnit
  deriving DecidableEq, Repr

/-- Why the block refuses a command. -/
inductive Refusal where
  /-- Raised by the dispatch for a command that has no meaning yet. Safe. -/
  | notModelled (mnemonic : String)
  deriving DecidableEq, Repr

/-- R38: the states of a context. -/
inductive CtxState where
  | empty | ready | active | miss | wait | sleep | idle
  deriving DecidableEq, Repr

/-- R47 PRV: privilege modes. -/
inductive Prv where
  | u | s | m
  deriving DecidableEq, Repr

/-- What an access of a context does at the L2 or at its target (R43, R114, R117, R118, R49). -/
inductive AccOp where
  | load | lr | sc | amo (op : AmoOp) | clean | flush | zero | fetch | drain | watch
  deriving DecidableEq, Repr

/-- An access a context waits on (R43: the record's pending-access fields PKIND, PVA, PRD, PFP, PSGN,
POFF, PSZ, PC2, with the physical address, operand and issue cycle the core holds for it). `stage` is
1 until the L2 has sent the request (R100), 2 while the answer is
awaited, 3 while a store-buffer overlap drains (R32). -/
structure Acc where
  op : AccOp
  kind : Nat
  va : Nat
  pa : Nat
  rd : Nat := 0
  fp : Bool := false
  sgn : Bool := false
  sz : Nat := 0
  arg : W64 := 0
  rvc : Bool := false
  dev : Bool := false
  stage : Nat := 1
  issued : Nat := 0
  long : Bool := false
  raw : BitVec 32 := 0
  flags : Nat := 0
  /-- R21: what the predecoder finds in the block of a fetch. -/
  pd : Predecode := .runs
  deriving DecidableEq, Repr

/-- A fetched block of a slot's fetch buffer (R21): the first and one-past-last virtual address of the bytes that may issue, and the
first cycle in which they can issue. -/
structure FBlock where
  lo : Nat
  hi : Nat
  ready : Nat
  deriving DecidableEq, Repr

/-- A pending trap: cause, tval, sbuserr reason and whether it is deferred (R28, R34, R59). -/
structure Trap where
  cause : Nat
  tval : W64
  reason : Nat := 0
  dfr : Bool := false
  deriving DecidableEq, Repr

/-- A park that has been triggered and whose stream has not yet started (R39, R42). -/
structure Park where
  dest : CtxState
  trig : Nat
  deadline : Nat := 0
  deriving DecidableEq, Repr

/-- The kinds of access as R88 tells their permissions apart. -/
inductive AKind where
  | fetch | load | store | amo | cbo
  deriving DecidableEq, Repr

/-- A TLB miss of a context that waits for a translation (R85). -/
structure TlbMiss where
  va : Nat
  kind : AKind
  cycle : Nat
  walk : Bool := false
  deriving DecidableEq, Repr

/-- One context: its architectural state as the record lays it out (R46, R47, R57), and its issue-slot
state while it is ACTIVE (R14 to R25, R41). -/
structure Ctx where
  /-- R38 STATE. -/
  st : CtxState := .empty
  /-- R38 HOLD. -/
  hold : Bool := false
  /-- R39 wake token. -/
  wtok : Bool := false
  /-- R47 PRV. -/
  prv : Prv := .u
  /-- R45 BERR: a bus error completed into the record. -/
  berr : Bool := false
  /-- R47 PACT: a fill is outstanding for this record. -/
  pact : Bool := false
  /-- R47 PKIND, PRD, PFP, PSGN, POFF, PSZ, PC2 and R46 PACC. -/
  pkind : Nat := 0
  prd : Nat := 0
  pfp : Bool := false
  psgn : Bool := false
  poff : Nat := 0
  psz : Nat := 0
  pc2 : Bool := false
  pva : BitVec 48 := 0
  preason : BitVec 16 := 0
  /-- R47 SBD: sbuserr.DEF. -/
  sbd : Bool := false
  /-- R47 sbuserr.REASON. -/
  sbuserr : BitVec 16 := 0
  /-- R46 PC. -/
  pc : W64 := 0
  /-- R46 x1 to x31. -/
  x : Tab W64 := []
  /-- R46 f0 to f31. -/
  f : Tab W64 := []
  /-- R46 fcsr: frm [7:5], fflags [4:0]. -/
  fcsr : BitVec 8 := 0
  mstatus : W64 := 0
  mepc : W64 := 0
  mtval : W64 := 0
  mtvec : W64 := 0
  mscratch : W64 := 0
  sepc : W64 := 0
  stval : W64 := 0
  stvec : W64 := 0
  sscratch : W64 := 0
  stimecmp : W64 := 0
  /-- R46 XLT: the size list and ASID (sxlt). -/
  xlt : W64 := 0
  /-- R46 TRAPCFG: medeleg, mideleg, mie, mcounteren[2:0], scounteren[2:0]. -/
  medeleg : W64 := 0
  mideleg : W64 := 0
  mie : W64 := 0
  mcounteren : BitVec 3 := 0
  scounteren : BitVec 3 := 0
  /-- R47 mcause and scause: [7] interrupt, [4:0] code. -/
  mcause : BitVec 8 := 0
  scause : BitVec 8 := 0
  /-- R47 SSIP. -/
  ssip : Bool := false
  /-- R66 STIP as the last compare left it. -/
  stip : Bool := false
  /-- R67 the interrupt file. -/
  ipend : W64 := 0
  ien : W64 := 0
  /-- R94 sxltstat: BUSY, DONE, REASON. -/
  xbusy : Bool := false
  xdone : Bool := false
  xreason : BitVec 16 := 0
  /-- R41: the first cycle in which the slot is eligible again. -/
  runAt : Nat := 0
  /-- R14, R20, R22: the first cycle in which the next instruction may issue. -/
  nextIssue : Nat := 0
  /-- R14: the first cycle in which the slot may issue again (one issue a cycle). -/
  iss : Nat := 0
  /-- R23: the first cycle in which a memory instruction may issue. -/
  memFree : Nat := 0
  /-- R24: the last cycle of the shadow, and whether what issues in it is cancelled. -/
  shadowEnd : Nat := 0
  shadowKill : Bool := false
  /-- R20, R42: the cycle in which the last issued instruction reaches WB. -/
  inflight : Nat := 0
  /-- R17: per register (x0 to x31, then f0 to f31 at 32 up) the first cycle in which a dependent may issue. -/
  regReady : Tab Nat := []
  /-- R41: the FP part is in the slot; the cycle its read ends; it has been written since unpark. -/
  fpHere : Bool := false
  fpAt : Option Nat := none
  fpDirty : Bool := false
  /-- R40: the cycle of the last unpark. -/
  since : Nat := 0
  /-- R21: the fetch buffer, the next fetch address, the first cycle of IF1, whether the stream has stopped,
  and a fetch fault found. -/
  fbuf : List FBlock := []
  fnext : Nat := 0
  fmin : Nat := 0
  fstop : Bool := false
  ffault : Option Trap := none
  /-- R25, R43: the data access and the fetch the context waits on. -/
  acc : Option Acc := none
  facc : Option Acc := none
  /-- R43 kind 5: an instruction of the context waits for its stores to drain. -/
  dwait : Bool := false
  /-- R374: a fetch LONG hint is held. -/
  heldHint : Bool := false
  /-- R39, R42: a triggered park. -/
  park : Option Park := none
  /-- R34, R368: a deferred store fault that is due (ACTIVE), with the cycle it reached the core; or that waits to be written into the record (R369). -/
  dfault : Option (Nat × W64 × Nat) := none
  /-- R48, R223: CTX.SPAWN waits for its reply into this register, from the package at 32 times its number. -/
  spawnRd : Option Nat := none
  /-- R85: a TLB miss waits for its walk. -/
  tmiss : Option TlbMiss := none
  /-- R85, R89: the fault a walk set against the access. -/
  wfault : Option Trap := none
  /-- R321: samples that wait for an instruction of this context (counter indices). -/
  smp : List Nat := []
  /-- R322: the DTLB miss and the walk of the access that is to issue again, as FLAGS has them. -/
  sflags : Nat := 0
  deriving DecidableEq, Repr

/-- A store-buffer entry (R31 to R34). `reqd` is set once ownership has been requested. -/
structure SbEnt where
  ctx : Nat
  va : Nat
  pa : Nat
  sz : Nat
  val : W64
  mt : Nat
  fp : Bool
  filled : Nat
  reqd : Bool := false
  devSent : Bool := false
  deriving DecidableEq, Repr

/-- States of an L2 line other than I (R99, R100). -/
inductive L2St where
  | s | m | is | im | sm
  deriving DecidableEq, Repr

/-- A line of a core's L2 (R99, R100): state, data, way, whether its data is poisoned (R344), and snoops held under R111. -/
structure L2Line where
  st : L2St
  data : LineData := 0
  way : Nat := 0
  performed : Bool := true
  held : List Msg := []
  deriving DecidableEq, Repr

/-- An eviction-buffer entry (R100): MI with data, or SI. -/
structure EvbEnt where
  line : Nat
  mi : Bool
  data : LineData
  poison : Bool := false
  deriving DecidableEq, Repr

/-- A miss of the core's L2 (R100): the request to send for a line, on behalf of a context tag. -/
structure Miss where
  line : Nat
  req : MsgKind
  zero : Bool := false
  far : FarOp := .flush
  ctx : Nat := 0
  walker : Option Nat := none
  sent : Bool := false
  found : Nat := 0
  deriving DecidableEq, Repr

/-- A TLB entry (R84). -/
structure TlbE where
  part : Nat
  asid : Nat
  size : Nat
  vpn : Nat
  ppn : Nat
  g : Bool
  r : Bool
  w : Bool
  x : Bool
  u : Bool
  d : Bool
  mt : Nat
  deriving DecidableEq, Repr

/-- How a bucket read of a walk stands (R83, R371). -/
inductive BkRes where
  | waiting
  | ok (data : LineData)
  | target
  | pmp
  | bus (reason : Nat)
  deriving DecidableEq, Repr

/-- A bucket of a walk's round: its size's list index, whether it is b2, its address, result and the cycle it completes (R82, R85). -/
structure Bk where
  idx : Nat
  second : Bool
  pa : Nat
  res : BkRes
  done : Nat
  deriving DecidableEq, Repr

/-- A walker (R82, R85, R91): whose miss it serves, its key, its round, its buckets, and the flag OR in progress. -/
structure Walk where
  ctx : Nat
  kind : AKind
  start : Nat
  va : Nat
  asid : Nat
  xlt : W64
  part : Nat
  round : Nat
  bks : List Bk
  restarted : Bool := false
  hw : Bool := false
  orWord : Option (Nat × W64 × W64 × TlbE) := none
  orBack : Option (Nat × Nat × W64) := none
  en : Bool := true
  deriving DecidableEq, Repr

/-- A watch-table entry (R49, R50). -/
structure Watch where
  line : Nat
  ctxs : List Nat
  deriving DecidableEq, Repr

/-- A deadline-heap entry (R51). -/
structure Heap where
  val : Nat
  ctx : Nat
  timer : Bool
  deriving DecidableEq, Repr

/-- A reservation-table entry (R53); `lost` keeps R49's armed-then-lost case. -/
structure Resv where
  ctx : Nat
  line : Nat
  lost : Bool := false
  deriving DecidableEq, Repr

/-- A fill for a parked record, in the fill buffer (R42, R44, R45). -/
structure Fill where
  ctx : Nat
  fetch : Bool
  status : Nat
  val : W64
  at_ : Nat
  deriving DecidableEq, Repr

/-- A held divide (R19): who issued it, its destination, result and flags, and the cycle the unit frees. -/
structure UnitOp where
  ctx : Nat
  rd : Nat
  fp : Bool
  val : W64
  flags : Nat
  free : Nat
  deriving DecidableEq, Repr

/-- A shootdown a core is completing (R94): issuer, partition and what it still waits for (R94 steps 3 and 4). -/
structure Shoot where
  tag : Nat
  pkg : Nat
  stores : List (Nat × Nat)
  accs : List Nat
  deriving DecidableEq, Repr

/-- A sample record in a core's buffer (R322). -/
structure SampleRec where
  pc : W64
  addr : W64
  insn : BitVec 32
  ctx : Nat
  ctr : Nat
  lat : Nat
  event : Nat
  flags : Nat
  time : Nat
  deriving DecidableEq, Repr

/-- What a completed or trapped instruction leaves for a sample of it (R321 to R323). -/
structure Retire where
  ctx : Nat
  pc : W64
  addr : W64
  raw : BitVec 32
  issued : Nat
  done : Nat
  flags : Nat
  prv : Prv
  deriving DecidableEq, Repr

/-- A counter of a core (R317 to R320): its count (at or above 2^48 while a wrap waits to be taken), its selector, its owner, the value O of the
previous cycle for TMODE 2, the cycle after a write of the count, and of the wrap that waits: the context whose event it is and the instruction, if that
has completed. -/
structure Hpm where
  count : Nat := 0
  sel : W64 := 0
  owner : Nat := 0
  prev : Nat := 0
  wrote : Nat := 0
  who : Option Nat := none
  inst : Option Retire := none
  deriving DecidableEq, Repr

/-- R324: a spill of a core's samples in flight: its read of CI, its record writes, and its write of the header. -/
structure Spill where
  rd : Option Nat := none
  wrs : List Nat := []
  hdr : Option Nat := none
  deriving DecidableEq, Repr

/-- Core power states (R258). -/
inductive CState where
  | cs0 | cs1 | cs2 | cs3
  deriving DecidableEq, Repr

/-- One core: pipeline, context store, caches, TLBs, per-core CSRs and counters. -/
structure Core where
  /-- Core-cycle count (R18) as a base at a reference time, and whether the clock runs (R258). -/
  cycBase : Nat := 0
  cycRef : Nat := 0
  clockOn : Bool := true
  /-- R16: the rotating pointer; the cycle after the last use of each lane; the first pick of the last issue cycle. -/
  ptr : Nat := 0
  lane0 : Nat := 0
  lane1 : Nat := 0
  pick1 : Option (Nat × Nat × Bool) := none
  /-- R19: the integer divider and the FP divide and square-root unit. -/
  divu : Option UnitOp := none
  fdivu : Option UnitOp := none
  /-- R38: the eight issue slots, and the cycle in which each one's stream ends (R41). -/
  slots : List (Option Nat) := List.replicate 8 none
  slotEnd : Tab Nat := []
  slotPark : Tab Nat := []
  /-- R42: the first cycle in which the context store's write port and its read port are free of a stream. -/
  wrEnd : Nat := 0
  rdEnd : Nat := 0
  /-- R21: slots selected in IF1 in a cycle (cycle, count). -/
  if1 : Nat × Nat := (0, 0)
  /-- R39: the cycle after the last state change. -/
  chg : Nat := 0
  /-- R40: the ready queue. -/
  readyQ : List Nat := []
  /-- R46: the context store's records and the slots' contexts. -/
  ctxs : Tab Ctx := []
  /-- R49: the watch table. -/
  watch : List Watch := []
  /-- R51: the deadline heap, and the last tick it was popped at. -/
  heap : List Heap := []
  /-- R42: the fill buffer. -/
  fills : List Fill := []
  /-- R53: the reservation table, oldest first. -/
  resv : List Resv := []
  /-- R31: the store buffer, oldest first. -/
  sb : List SbEnt := []
  /-- R33: the first cycle in which an entry may drain. -/
  sbNext : Nat := 0
  /-- R29: lines held in the L1I and the L1D. -/
  l1i : List Nat := []
  l1d : List Nat := []
  l1Parity : Nat := 0
  /-- R99: the L2, by line. -/
  l2 : Tab L2Line := []
  /-- R100: the eviction buffer and the misses. -/
  evb : List EvbEnt := []
  miss : List Miss := []
  /-- R84: the TLBs. -/
  itlb : List TlbE := []
  dtlb : List TlbE := []
  stlb : List TlbE := []
  /-- R85: the walkers and the misses waiting for one. -/
  walks : Tab (Option Walk) := []
  walkQ : List (Nat × Bool) := []
  /-- R94: shootdowns being completed. -/
  shoots : List Shoot := []
  /-- R61: the PMP entries. -/
  pmpcfg : Tab (BitVec 8) := []
  pmpaddr : Tab W64 := []
  /-- Context control registers (R48 to R53): mctxctl, sctxctl, mctxsel, mctxhold. -/
  mctxctl : W64 := 0x1000
  sctxctl : W64 := 0
  mctxsel : W64 := 0
  mctxhold : W64 := 0
  /-- R66: the M-mode timer, MTIP of its target, and the values in effect since the last tick. -/
  mtmrcmp : W64 := 0xFFFFFFFFFFFFFFFF
  mtmrctl : W64 := 0
  mtip : Option Nat := none
  /-- R56: menvcfg, senvcfg, bits [10:3] of mcounteren and scounteren. -/
  menvcfg : W64 := 0
  senvcfg : W64 := 0
  mcountHi : BitVec 8 := 0
  scountHi : BitVec 8 := 0
  /-- R56: mcycle as an offset from the core-cycle count, its frozen value while inhibited, and minstret. -/
  mcycleOff : W64 := 0
  mcycleFrozen : Option W64 := none
  minstret : W64 := 0
  /-- R317: mcountinhibit and the eight counters, index 3 to 10. -/
  mcountinhibit : W64 := 0
  hpm : Tab Hpm := []
  /-- R318: events of the current core cycle: code, context slot, value. -/
  evs : List (Nat × Nat × Nat) := []
  /-- R321: samples that wait for the next instruction of the core (counters), samples whose instruction is known (none where it never ran), and the
  instructions that completed in the current core cycle. -/
  smpWait : List Nat := []
  smpDue : List (Nat × Option Retire) := []
  retire : List Retire := []
  /-- R324: the sample buffer, the ring's PI, a spill in flight, and a spill at CS3 entry found no room. -/
  sbuf : List SampleRec := []
  smpPi : Nat := 0
  spill : Option Spill := none
  spillFull : Bool := false
  /-- R258: the core state, a transition in progress (target, time it is due), and the reset in progress (R339). -/
  cst : CState := .cs0
  exitDue : Option (CState × Nat) := none
  rst : Bool := false
  /-- R339: the core cycle in which the context store is zeroed; R142: the partition the core has left; store-buffer entries that failed with no
  context left to trap. -/
  rstEnd : Option Nat := none
  exPart : Option Nat := none
  badStores : List Nat := []
  deriving DecidableEq, Repr

/-- A duplicate-tag entry (R101, R102): a core that holds the line, in M or S, and its way. -/
structure Dup where
  line : Nat
  core : Nat
  m : Bool
  way : Nat
  deriving DecidableEq, Repr

/-- A tracker (R105, R108, R148). -/
structure Trk where
  req : Msg
  /-- 0 in the line queue, 1 active. -/
  active : Bool
  reel : Bool
  /-- Cores and packages whose snoop answers are awaited. -/
  snp : List Nat := []
  rsnp : List Nat := []
  /-- The line's data once known, and whether it is poisoned or failed with a reason. -/
  data : Option LineData := none
  fail : Nat := 0
  /-- Waits for DRAM, for a remote home, or for nothing more. -/
  dram : Bool := false
  remote : Bool := false
  granted : Bool := false
  long : Bool := false
  timer : Nat := 0
  /-- The requester of a snoop made for another package's home (R128), or 8 for none. -/
  rhome : Nat := 8
  /-- The kiln's removal (R372). -/
  noReq : Bool := false
  /-- R108: closed; the first F-cycle in which the response may be launched; looked up again after its answers (R132, R344). -/
  closed : Bool := false
  ready : Nat := 0
  redo : Bool := false
  deriving DecidableEq, Repr

/-- A home slice (R101 to R108, R145). -/
structure Slice where
  dup : List Dup := []
  trk : List Trk := []
  /-- R105: arrivals waiting for admission, and line-queue heads that are ready. -/
  arr : List Msg := []
  rdy : List Nat := []
  ptr : Nat := 0
  lastAdmit : Option Nat := none
  /-- R145: released lines whose data waits for a slot of their partition. -/
  wbuf : List Msg := []
  /-- R129: releases forwarded to a remote home and not yet acknowledged there. -/
  fwd : List Msg := []
  /-- R119: the range-clean engine: next set, operation, range, snoops outstanding. -/
  rcSet : Option Nat := none
  rcOut : List (Nat × Nat) := []
  rcLast : Nat := 0
  deriving DecidableEq, Repr

/-- An MSC line (R177): data, dirty, poisoned, RMT, and its way. -/
structure Msc where
  data : LineData
  d : Bool
  p : Bool
  rmt : Bool
  way : Nat
  deriving DecidableEq, Repr

/-- Agents of non-coherent accesses (R120). -/
inductive Agent where
  | port (n : Nat)
  | dma (ch : Nat)
  | kiln
  | ep (id : Nat)
  | core (c slot : Nat)
  | peer (pkg : Nat)
  | smp (core : Nat)
  deriving DecidableEq, Repr

/-- Why a DMA channel or another agent made a non-coherent access (R302 to R315). -/
inductive NcUse where
  | plain | trigger | desc | src | dst | record | hdr
  deriving DecidableEq, Repr

/-- A non-coherent access (R120): one piece inside one line. -/
structure NcReq where
  id : Nat
  agent : Agent
  use : NcUse := .plain
  write : Bool
  pa : Nat
  len : Nat
  val : LineData := 0
  poison : Bool := false
  at_ : Nat := 0
  dram : Bool := false
  status : Nat := 0
  deriving DecidableEq, Repr

/-- A DRAM read in progress (R139, R173, R184): for a line's tracker (`nc = none`) or a non-coherent access. -/
structure DramRd where
  slice : Nat
  line : Nat
  nc : Option Nat := none
  ready : Nat
  deriving DecidableEq, Repr

/-- The range-clean operation (R119). -/
structure RangeOp where
  lo : Nat
  hi : Nat
  flush : Bool
  cmd : Nat

  deriving DecidableEq, Repr

/-- Home slices, memory-side cache, directory and non-coherent traffic. -/
structure Home where
  slices : Tab Slice := []
  msc : Tab Msc := []
  /-- R125: presence vectors; R127: lines whose vector is in the directory cache. -/
  vec : Tab (BitVec 8) := []
  dirc : List Nat := []
  /-- R195: the retired-page table. -/
  retired : List Nat := []
  ncq : List NcReq := []
  ncDone : List NcReq := []
  range : Option RangeOp := none
  /-- R180: the isolation scan in progress: partition, waiting command, F-cycle it may end. -/
  scan : Option (Nat × Nat × Nat) := none
  /-- R372: removals of lines from every L2 in progress: purpose (0 a page retired), first line, lines, and the command that waits + 1. -/
  removals : List (Nat × Nat × Nat × Nat) := []
  deriving DecidableEq, Repr

/-- A device access of a core or the host (R37, R64, R74): to control space or a root port. `done` is its status once
performed. -/
structure Dev where
  id : Nat
  who : Req
  pa : Nat
  sz : Nat
  write : Bool
  val : W64
  done : Option Nat := none
  rdata : W64 := 0
  at_ : Nat := 0
  deriving DecidableEq, Repr

/-- The package fabric: messages in flight, die egress queues, credits, device accesses. -/
structure Fab where
  net : List Msg := []
  egress : List Msg := []
  /-- R135: the rotating pointer of each die. -/
  eptr : Tab Nat := []
  /-- R143: credits in use, by (die × 64 + partition) × 16 + slice. -/
  used : Tab Nat := []
  devs : List Dev := []
  devNext : Nat := 0
  /-- R72: asserted level sources, by route. -/
  level : List Nat := []
  /-- R94: shootdowns awaiting acknowledgements: issuer tag, package it came from, acks outstanding. -/
  shoots : List (Nat × Nat × List Nat × Nat) := []
  deriving DecidableEq, Repr

/-- A memory rank of one channel (R196 to R198). -/
structure Rank where
  inSr : Bool := false
  srClean : Bool := false
  seed : W64 := 0
  deriving DecidableEq, Repr

/-- System memory: DRAM contents and the controllers' state (R171 to R198). -/
structure Mem where
  /-- Data bytes, and the XOR of stored check symbols with those of the data's codeword. -/
  dram : List Host.Cell := []
  chk : List Host.Cell := []
  ranks : Tab Rank := []
  /-- R175: open rows by bank. -/
  rows : Tab Nat := []
  reads : List DramRd := []
  /-- R173: programmed timings in ps and the capacity geometry found at boot. -/
  taaPs : Nat := 16250
  trcdPs : Nat := 14000
  trpPs : Nat := 14000
  /-- R171: refresh bank index per controller, time of the next refresh, doubled rate, RCD retry pending. -/
  refBank : Tab Nat := []
  refNext : Tab Nat := []
  hot : Bool := false
  dimmHot : List Nat := []
  actHalf : Bool := false
  caRetry : List Nat := []
  retrain : Tab Nat := []
  dead : List Nat := []
  /-- R197: units fired since the last check of the canaries. -/
  refired : List Nat := []
  /-- R185, R195: counts in the current window: device events by (mc,sub,rank,dev), corrected reads by page. -/
  devEv : Tab Nat := []
  pageCe : Tab Nat := []
  winStart : Nat := 0
  /-- R189: time of the next patrol read per controller. -/
  patNext : Tab Nat := []
  /-- R191: the ECC test operation in progress: operation, line, end time. -/
  ect : Option (Nat × Nat × Nat) := none
  /-- R193, R194: the firing engine: units left to fire, and the commands (id) whose last unit one is. -/
  fireQ : List (Nat × List Nat) := []
  /-- R190: the range scrub in progress (command, base, length). -/
  scrub : Option (Nat × Nat × Nat) := none
  /-- R172: population reason, channel and slot. -/
  popReason : Nat := 0
  popCh : Nat := 0
  popSlot : Nat := 0
  deriving DecidableEq, Repr

/-- A partition (R77, R141, R219, R234, R256). -/
structure Part where
  /-- R77 sxltbase of this package. -/
  xltbase : W64 := 0
  /-- R141 reel-pool reservation; R219 weight. -/
  reelRes : Nat := 0
  weight : Nat := 1
  /-- R256 AD_FLAGS in HW mode. -/
  adHw : Bool := false
  /-- R229: the command that waits for DRAINING to end. -/
  disableCmd : Option Nat := none
  /-- R234: copies of the windows and core maps of other packages of the span: package × 32 + index. -/
  remWin : Tab W64 := []
  remCore : Tab W64 := []
  deriving DecidableEq, Repr

/-- A reel link's port (R203 to R213, R219, R220). -/
structure RPort where
  /-- R204, R205: the next FSEQ, the next one expected, the retry buffer, flits to send again and how often the oldest has been resent, and
  whether a NAK or a STOP is owed and later flits are discarded. -/
  txSeq : Nat := 0
  rxSeq : Nat := 0
  retry : List Flit := []
  resend : List Flit := []
  resends : Nat := 0
  nakOwed : Bool := false
  nakWait : Bool := false
  stopOwed : Bool := false
  /-- R210: by class, cells sent against credits that have not come back, and credits owed to the peer; the class the next return starts from. -/
  used : Tab Nat := []
  owed : Tab Nat := []
  crRot : Nat := 0
  /-- R207, R209: cells waiting in the packer, and cells received of messages not yet complete, with the FSEQ of their flit. -/
  txq : List Cell := []
  rxpart : List (Nat × Cell) := []
  /-- R219: deficits of the weighted round robin by partition, and its turn. -/
  deficit : Tab Nat := []
  drr : Nat := 0
  /-- R205: the F-cycle of the last intact flit and of the next flit to send; the flit last put on the lanes. R220: the end of a retrain. -/
  lastGood : Nat := 0
  nextTx : Nat := 0
  out : Option Flit := none
  retrainEnd : Nat := 0
  /-- R219: flit times since training; R212: the training stage awaited; R213: the peer's BOOT_PKG strap. -/
  flits : Nat := 0
  stage : Nat := 0
  peerBoot : Bool := false
  /-- R215: the command that waits for the link; the link joins or leaves its bundle. -/
  cmd : Option Nat := none
  joining : Bool := false
  draining : Bool := false
  /-- R211: messages whose START cell has been sent and that are not known to be delivered: class, FSEQ, message; and a RESYNC awaits its
  answer. -/
  sentStart : List (Nat × Nat × RMsg) := []
  resyncWait : Bool := false
  deriving DecidableEq, Repr

/-- A message a reel port has delivered: its port, the F-cycle it is there, and its cells still held in the receive buffer (R209, R210). -/
structure RRx where
  port : Nat
  at_ : Nat
  msg : RMsg
  deriving DecidableEq, Repr

/-- The system of packages (R199 to R223). -/
structure Reel where
  ports : Tab RPort := []
  /-- Messages delivered by the reel ports to the slices and control logic. -/
  rx : List RRx := []
  /-- R221, R222: loss reports and expulsions received over the kiln relay and not yet acted on. -/
  told : List KRelay := []
  /-- R214: reports received by the lead, the report sent to it, and the formation deadline. -/
  reports : List (Nat × Nat) := []
  reported : Bool := false
  formBy : Nat := 0
  /-- R218: relayed commands outstanding by target: relay id, target, local command. -/
  relays : List (Nat × Nat × Nat) := []
  relayNext : Nat := 0
  relayOut : List (Nat × KRelay) := []
  /-- R221: the peer named in a LOSS and when it was sent; the deputy's wait. -/
  lossSent : Option (Nat × Nat) := none
  deputyWait : Option Nat := none
  /-- R217: the F-cycle of the next TSYNC; correction left, in F-cycles (positive: behind). -/
  tsyncNext : Nat := 0
  adj : Int := 0
  /-- R211: peers whose bundle launches nothing, and the messages that wait for it, in order. -/
  quiesce : List Nat := []
  held : List (Nat × RMsg) := []
  deriving DecidableEq, Repr

/-- A command source of the kiln (R236); a mailbox slot that the control host submitted has its privilege (R288). -/
inductive KSrc where
  | ring (r : Nat)
  | mbx (p : Nat) (slot : Nat) (host : Bool)
  | peer (pkg : Nat) (rid : Nat) (priv : Nat) (part : Nat) (here : Bool)
  deriving DecidableEq, Repr

/-- A command held by the kiln (R241, R244, R245): accepted, perhaps started, not yet replied. -/
structure KCmd where
  id : Nat
  src : KSrc
  pkt : List W64
  started : Bool
  running : Bool := false
  acc : Nat := 0
  deriving DecidableEq, Repr

/-- A reply that waits to be written (R238, R242). -/
structure KReply where
  src : KSrc
  notify : Bool
  pkt : List W64
  deriving DecidableEq, Repr

/-- A notice (R243). -/
structure Notice where
  tag : Nat
  status : Nat
  result : W64
  kind : Nat
  deriving DecidableEq, Repr

/-- An error-log record (R347). -/
structure LogRec where
  seq : Nat
  cls : Nat
  aon : Bool := false
  srcKind : Nat
  srcIdx : Nat := 0
  part : Option Nat := none
  reason : Nat := 0
  event : Nat
  count : Nat := 1
  time : Nat := 0
  addr : Nat := 0
  ctx : Option Nat := none
  detail : Nat := 0
  deriving DecidableEq, Repr

/-- The kiln (R236 to R256, R331 to R349). -/
structure Kiln where
  /-- R239: the mailbox block's memory: slots, notice entries and the staging area. -/
  mbx : List Host.Cell := []
  cmds : List KCmd := []
  next : Nat := 0
  replies : List KReply := []
  /-- R218: the replies of a command for several packages, by command and package, until the last one. -/
  got : List (Nat × Nat × List W64) := []
  notices : List Notice := []
  mbxNotices : List (Nat × Notice) := []
  nseq : Nat := 0
  /-- R346: the log and its AON copy. -/
  log : List LogRec := []
  aonLog : List LogRec := []
  /-- R253, R254: the running image's version and level, the staged image, and a switch in progress. -/
  fwVersion : Nat := 0
  fwLevel : Nat := 0
  staged : Option (Nat × Nat) := none
  fwSwitch : Option Nat := none
  /-- R340: when the watchdog last expired. -/
  wdog : Option Nat := none
  /-- R256: the package-wide functions, bit FUNCTION set for HW. -/
  modes : BitVec 8 := 0xF7
  bootSrcHeld : Bool := false
  /-- R331 to R336: the verified image's configuration and payload. -/
  cfg : BootCfg := {}
  payload : List Byte := []
  /-- R334: rails with power-good (0 to 11 the core rails, 12 I/O, 13 saggar, 14 VDDQ), and for a rail trimmed or raised whose power-good has
  not come, when the wait for it ends. -/
  railsUp : List Nat := []
  railDue : Tab Nat := []
  aonHeld : Bool := true
  /-- R336: partition 0's enable: 0 not begun, 1 the payload is being written, 2 asked for or not needed. -/
  p0 : Nat := 0
  /-- R250: the averaging window and limit. -/
  limit : Nat := 700
  window : Nat := 1000
  deriving DecidableEq, Repr

/-- A slip lane group, one direction of one die (R157 to R165). -/
structure SlipG where
  /-- R159: the receiver discards; the number of the frame it expects; the frame it has asked for again; the last frame replayed and how
  often. -/
  discard : Bool := false
  rxFrame : Nat := 0
  replayReq : Option Nat := none
  lastReplay : Nat × Nat := (0, 0)
  /-- R160: replays and corrected errors by wire in the window, and its start. -/
  replays : Nat := 0
  corr : Tab Nat := []
  winStart : Nat := 0
  /-- The payload last delivered. -/
  payload : List (BitVec 64) := []
  /-- R162, R165: end of the repair window and of the handover. -/
  repairEnd : Nat := 0
  handEnd : Nat := 0
  deriving DecidableEq, Repr

/-- A compute die (R149 to R167, R259, R276, R277). -/
structure Die where
  fuses : List W64 := []
  polls : Nat := 0
  groups : Tab SlipG := []
  dst : Nat := 0
  exitDue : Option (Nat × Nat) := none
  /-- R277: a change of P-state or frequency in progress: target, time due, and phase (0 voltage rising, 1 frequency rising, 2 frequency
  falling, 3 voltage falling). -/
  vf : Option (Nat × Nat × Nat) := none
  pcmd : Option Nat := none
  rstHeld : Bool := true
  deriving DecidableEq, Repr

/-- Package power control (R260 to R281). -/
structure Pwr where
  /-- R266: contexts the kiln holds (system context numbers); the PWR_SET_PACKAGE that waits, and the state it asks for. -/
  held : List Nat := []
  cmd : Option Nat := none
  target : Nat := 0
  /-- R267: the entry step in progress, or an undoing step; a wake has asked for PS0 and PS0 is not reached yet (R270). -/
  step : Nat := 0
  undo : Bool := false
  woken : Bool := false
  /-- R268: the choices of the members that the lead has collected. -/
  choices : List (Nat × Nat) := []
  /-- R267: root-port inbound held by flow control; R274: the reel wake pattern is being sent. -/
  portsHeld : Bool := false
  pattern : Bool := false
  /-- R275: filtered levels of WAKE_IN and when they changed; wake events of a source: count, start of its second, last event; R270: routes that
  fire on reaching PS0. -/
  wakeHigh : BitVec 2 := 0
  wakeSince : Tab Nat := []
  chat : Tab (Nat × Nat × Nat) := []
  routeOnPs0 : List Nat := []
  /-- R280: block temperatures, blocks over THROT, when a block's cap may move again, and the I/O die or saggar tile is hot. -/
  temp : Tab Nat := []
  exceed : List Nat := []
  capAt : Tab Nat := []
  ioHot : Bool := false
  /-- R279: the samples of package power in the window, newest first, and when the floor was last logged. -/
  samples : List Nat := []
  floorAt : Option Nat := none
  deriving DecidableEq, Repr

/-- A read of the endpoint (R290, R294): its tag, ring, first unit and count, when it was issued, and whether it is quarantined, by an FLR without a report
(R298). -/
structure EpRead where
  tag : Nat
  ring : Nat
  unit : Nat
  n : Nat
  issued : Nat
  quar : Bool := false
  silent : Bool := false
  deriving DecidableEq, Repr

/-- An endpoint ring's internal state (R289, R290, R295): units requested and passed to the kiln since the enable, units received, and the
first unit that a fault lost. -/
structure EpRing where
  reqd : Nat := 0
  ci : Nat := 0
  got : Tab W64 := []
  gap : Option Nat := none
  deriving DecidableEq, Repr

/-- A read of a root port's device at the MSC (R354, R355), or an access of the aperture (R286): its pieces in progress (access and offset), the bytes
that have returned by offset, and failed pieces with their reasons. -/
structure UpRd where
  len : Nat
  pieces : List (Nat × Nat)
  data : List (Nat × List Byte) := []
  bad : List (Nat × Nat) := []
  deriving DecidableEq, Repr

/-- R286, R287: an aperture access of memory or a root port in progress: its number, and its pieces with what they have returned. -/
structure EpAcc where
  id : Nat
  write : Bool
  rd : UpRd
  deriving DecidableEq, Repr

/-- The control endpoint (R282 to R301). -/
structure Ep where
  /-- R283: configuration-space doublewords that differ from their reset values. -/
  cfg : Tab (BitVec 32) := []
  rings : Tab EpRing := []
  reads : List EpRead := []
  /-- R290: the ring whose turn for a tag is next. -/
  turn : Nat := 0
  /-- R285, R293: the MSI-X table (doubleword index) and the pending bits. -/
  msix : Tab (BitVec 32) := []
  pba : W64 := 0
  /-- Messages sent to the host: MSI-X (address, data), the INTx level, PM_PME and PME_TO_Ack, and writes to host memory. -/
  sent : List (W64 × BitVec 32) := []
  intx : Bool := false
  pmeSent : Bool := false
  pmeAck : Bool := false
  host : List (Nat × List W64) := []
  /-- The link: 0 down, 1 L0, 2 L0s, 3 L1, 4 L2; PERST# asserted; configuration held until (R298); when the link was last used (R300). -/
  link : Nat := 0
  perst : Bool := false
  cfgHeld : Option Nat := none
  idleSince : Nat := 0
  /-- R286, R287: aperture accesses in progress, and completions of host reads: poisoned, and the bytes. -/
  accs : List EpAcc := []
  rdata : List (Bool × List Byte) := []
  deriving DecidableEq, Repr

/-- R313, R315: a started ring entry of a DMA channel: its writes not yet acknowledged, whether its last descriptor has issued all of them, the first
reason and its address, destination lines poisoned and skipped, INT seen, and the last descriptor's TAG. -/
structure DmaEnt where
  idx : Nat
  wrs : List Nat := []
  last : Bool := false
  reason : Nat := 0
  errAddr : Nat := 0
  npois : Nat := 0
  nskip : Nat := 0
  int : Bool := false
  tag : Nat := 0
  deriving DecidableEq, Repr

/-- A DMA channel's working state (R303 to R316). -/
structure DmaCh where
  /-- R311: F, the first entry not yet started. -/
  fIdx : Nat := 0
  /-- R310: the F-cycle in which a notice reaches the engine, the read of the trigger line in progress, whether an enable made it (R303), and a notice
  merged behind it. -/
  note : Option Nat := none
  trigRd : Option Nat := none
  enabling : Bool := false
  trigAgain : Bool := false
  /-- R315: RESUME as recorded at the halt. -/
  haltResume : Nat := 0
  /-- R312: the address of the chained descriptor still to run. -/
  chain : Option Nat := none
  /-- R313: started entries in ring order; completion records not yet acknowledged, and whether each fires the route. -/
  ents : List DmaEnt := []
  recs : List (Nat × Bool) := []
  /-- R314: posted device writes that a barrier waits for, and that the next descriptor waits. -/
  posted : List Nat := []
  barPend : Bool := false
  deriving DecidableEq, Repr

/-- R308: a descriptor an engine has fetched or moves: its channel and address, its fetch, the F-cycle it arrived, its doublewords, whether its
transfer has begun, its entry, source and destination stream positions, reads outstanding with their stream ranges, and source bytes that
have returned (position, count, data, or the failed read's, the F-cycle they may be written from). -/
structure DmaX where
  ch : Nat
  addr : Nat
  chained : Bool := false
  fetch : Option Nat := none
  words : List W64 := []
  begun : Bool := false
  began : Nat := 0
  ent : Nat := 0
  rdPos : Nat := 0
  rdOut : List (Nat × Nat × Nat) := []
  parts : List (Nat × Nat × Option LineData × Nat) := []
  wrPos : Nat := 0
  deriving DecidableEq, Repr

/-- A DMA engine (R302, R308, R309): the descriptor it reads, those whose writes it still issues, the channel whose held chain is next, the
last channel chosen and descriptors in a row, and the F-cycle from which it may issue its next read and its next write. -/
structure DmaEng where
  cur : Option DmaX := none
  xs : List DmaX := []
  held : Option Nat := none
  rr : Nat := 31
  row : Nat := 0
  rdAt : Nat := 0
  wrAt : Nat := 0
  deriving DecidableEq, Repr

/-- A bank counter of a shared block (R326 to R328): working count above 2^48 while its wrap waits, previous O. -/
structure Bank where
  exceed : Nat := 0
  prev : Nat := 0
  deriving DecidableEq, Repr

/-- Performance monitoring of shared blocks (R326 to R329). -/
structure Pmu where
  banks : Tab Bank := []
  evs : List (Nat × Nat × Nat × Nat) := []
  /-- R329: bytes counted so far in directions A and B, and the interval's start, by window. -/
  bwA : Tab Nat := []
  bwB : Tab Nat := []
  bwStart : Tab Nat := []
  deriving DecidableEq, Repr

/-- A downstream non-posted request of a root port that is outstanding (R353, R354, R356): its access, when it was last and first sent, and whether its
last completion asked for a retry. -/
structure Down where
  id : Nat
  sent : Nat
  first : Nat
  retry : Bool := false
  deriving DecidableEq, Repr

/-- An upstream TLP that a root port has received and not yet performed (R122, R355). -/
structure UpReq where
  kind : UpKind
  addr : Nat
  len : Nat
  data : List Byte
  ep : Bool
  deriving DecidableEq, Repr

/-- A root port (R351 to R357): downstream requests outstanding, upstream TLPs and reads in progress, completions sent to the device, and Unexpected
Completions counted. -/
structure Rpt where
  down : List Down := []
  up : List UpReq := []
  reads : List UpRd := []
  cplOut : List (CplStat × List Byte) := []
  unexpected : Nat := 0
  deriving DecidableEq, Repr

/-- Output pins and the package-wide latches (R281, R301, R349). -/
structure Pins where
  thermtrip : Bool := false
  wakeN : Bool := false
  hotN : Bool := false
  memhotN : Bool := false
  pgDown : List Nat := []
  deriving DecidableEq, Repr

/-- The state of the package. -/
structure State where
  /-- The queue of commands that wait, first in, first out. -/
  pending : List Instr := []
  /-- Elapsed time in ticks of 312.5 ps (1/3.2 GHz), from which every clock of the package is counted. -/
  now : Nat := 0
  /-- R65, R217: the time base, the F-cycles of the tick in progress; R145: the F-cycle count at package reset. -/
  tb : W64 := 0
  tbPhase : Nat := 0
  fBase : Nat := 0
  /-- R7, R10: the control-space and endpoint registers that differ from their reset values, by the number of their kind, then their first and
  second index. -/
  cs : Tab (Tab (Tab W64)) := []
  cores : Tab Core := []
  parts : Tab Part := []
  home : Home := {}
  fab : Fab := {}
  mem : Mem := {}
  reel : Reel := {}
  kiln : Kiln := {}
  dies : Tab Die := []
  ioFuses : List W64 := []
  pwr : Pwr := {}
  ep : Ep := {}
  dmaCh : Tab DmaCh := []
  dmaEng : Tab DmaEng := []
  pmu : Pmu := {}
  rpts : Tab Rpt := []
  pins : Pins := {}
  /-- The model's own field: how many free values have been taken. -/
  free : Nat := 0
  deriving DecidableEq, Repr

/-- R152, R373: the fuse block of a compute die at a position: POS, FMT 1, REV 0x0201, the set code, a serial
number, no repairs, the typical P-state voltage codes of R276 and the CRC-32C of words 0 to 6. DESIGN CHOICE
(log 3): the set code, the serial numbers, the empty repair map and typical codes. -/
def dieFuses (d crc : Nat) : List W64 :=
  [BitVec.ofNat 64 (d + 0x484B241602011 * 0x10), BitVec.ofNat 64 (0x100 + d), 0, 0, 0, 0,
    0x2840586C8094A4B4, BitVec.ofNat 64 crc]

/-- R152, R373: the fuse block of the I/O die: POS 0xF, REV 0x0101, VF 0. DESIGN CHOICE (log 3): as above. -/
def ioDieFuses : List W64 := [0x00484B241601011F, 0x200, 0, 0, 0, 0, 0, 0xB5DA78FB]

/-- The twelve compute dies as assembled (R149, R152). -/
def resetDies : Tab Die :=
  [(0, { fuses := dieFuses 0 0x913F8B9E }), (1, { fuses := dieFuses 1 0x135C4B62 }),
   (2, { fuses := dieFuses 2 0x90147C97 }), (3, { fuses := dieFuses 3 0x1277BC6B }),
   (4, { fuses := dieFuses 4 0x9368658C }), (5, { fuses := dieFuses 5 0x110BA570 }),
   (6, { fuses := dieFuses 6 0x92439285 }), (7, { fuses := dieFuses 7 0x10205279 }),
   (8, { fuses := dieFuses 8 0x959057BA }), (9, { fuses := dieFuses 9 0x17F39746 }),
   (10, { fuses := dieFuses 10 0x94BBA0B3 }), (11, { fuses := dieFuses 11 0x16D8604F })]

/-- R337, R11: the package right after AON reset is taken: every register at its reset value, every context EMPTY, no
memory fired, the dies held in reset with their fuses, and AON reset not yet released (R331). No command waits. -/
def State.reset : State := { dies := resetDies, ioFuses := ioDieFuses }

end Sys2Proof.Machine
end

