-- ==== Sys2Proof/Machine/Regs.lean ====
section
/-! DEFINITION. The control-space and endpoint registers: the address, reset domain and fields of each
register as its header line and table give them (R7, R9, R10, R11), the one table that holds their values,
and field access. -/

namespace Sys2Proof.Machine

/-- R10: the access code of a field (reserved fields are not listed: they read 0 and ignore writes). -/
inductive Access where
  | rw | ro | wo | w1c | w1s
  deriving DecidableEq, Repr

/-- R11: the reset domains of these registers. -/
inductive Domain where
  | aon | package | partition | epFunc | epLink
  deriving DecidableEq, Repr

/-- A field of a register: its lowest bit, its length, its access code and its reset value. -/
structure FieldD where
  lo : Nat
  len : Nat
  acc : Access
  rst : Nat
  deriving DecidableEq, Repr

/-- The registers that control space (R7) and the endpoint's BAR0 (R285) hold. -/
inductive RegKind where
  /-- IRT_ROUTEn (03_isa_and_privilege.md). -/
  | irtRoute
  /-- IRT_REASON (03_isa_and_privilege.md). -/
  | irtReason
  /-- HS_DTERR (05_coherence.md). -/
  | hsDterr
  /-- HS_TRKCFG (06_fabric_and_latency.md). -/
  | hsTrkcfg
  /-- CD_CRGRANTp (06_fabric_and_latency.md). -/
  | cdCrgrant
  /-- HS_WHEELn (06_fabric_and_latency.md). -/
  | hsWheel
  /-- HS_TMO (06_fabric_and_latency.md). -/
  | hsTmo
  /-- GLB_SETCHK (07_package_dies_and_slip_lanes.md). -/
  | glbSetchk
  /-- CD_IDENT (07_package_dies_and_slip_lanes.md). -/
  | cdIdent
  /-- CD_SERIAL (07_package_dies_and_slip_lanes.md). -/
  | cdSerial
  /-- SLP_CFG (07_package_dies_and_slip_lanes.md). -/
  | slpCfg
  /-- SLP_DSTATd (07_package_dies_and_slip_lanes.md). -/
  | slpDstat
  /-- SLP_GSTATd_g (07_package_dies_and_slip_lanes.md). -/
  | slpGstat
  /-- SLP_GERRd_g (07_package_dies_and_slip_lanes.md). -/
  | slpGerr
  /-- MC_CFG (08_memory_and_ecc.md). -/
  | mcCfg
  /-- HS_MSCWAYp (08_memory_and_ecc.md). -/
  | hsMscway
  /-- MC_MARKr (08_memory_and_ecc.md). -/
  | mcMark
  /-- GLB_MEMRAS (08_memory_and_ecc.md). -/
  | glbMemras
  /-- MC_PATROL (08_memory_and_ecc.md). -/
  | mcPatrol
  /-- MC_ECCSTAT (08_memory_and_ecc.md). -/
  | mcEccstat
  /-- MC_ECCLAST (08_memory_and_ecc.md). -/
  | mcEcclast
  /-- ECT_ADDR (08_memory_and_ecc.md). -/
  | ectAddr
  /-- ECT_CMD (08_memory_and_ecc.md). -/
  | ectCmd
  /-- ECT_DATAw (08_memory_and_ecc.md). -/
  | ectData
  /-- ECT_CHECKw (08_memory_and_ecc.md). -/
  | ectCheck
  /-- ECT_STATUS (08_memory_and_ecc.md). -/
  | ectStatus
  /-- GLB_FIREDn (08_memory_and_ecc.md). -/
  | glbFired
  /-- MC_SUSPECTr (08_memory_and_ecc.md). -/
  | mcSuspect
  /-- REEL_STATk (09_reel_links.md). -/
  | reelStat
  /-- REEL_ERRk (09_reel_links.md). -/
  | reelErr
  /-- REEL_WHEELk_n (09_reel_links.md). -/
  | reelWheel
  /-- REEL_SYS (09_reel_links.md). -/
  | reelSys
  /-- PRT_CTLp (10_partitions.md). -/
  | prtCtl
  /-- PRT_WINp_w (10_partitions.md). -/
  | prtWin
  /-- PRT_COREp_i (10_partitions.md). -/
  | prtCore
  /-- PRT_IOp_i (10_partitions.md). -/
  | prtIo
  /-- MBX_DOORBELL (11_kiln_commands.md). -/
  | mbxDoorbell
  /-- MBX_STATUS (11_kiln_commands.md). -/
  | mbxStatus
  /-- PWR_STATUS (12_power.md). -/
  | pwrStatus
  /-- PWR_REASON (12_power.md). -/
  | pwrReason
  /-- PWR_WAKECFG (12_power.md). -/
  | pwrWakecfg
  /-- PWR_WAKESRC (12_power.md). -/
  | pwrWakesrc
  /-- PWR_THERM (12_power.md). -/
  | pwrTherm
  /-- PWR_CORECTLc (12_power.md). -/
  | pwrCorectl
  /-- PWR_SPILLc (12_power.md). -/
  | pwrSpill
  /-- PWR_DIECTLd (12_power.md). -/
  | pwrDiectl
  /-- EP_WINBASE (13_control_endpoint.md). -/
  | epWinbase
  /-- EP_WINERR (13_control_endpoint.md). -/
  | epWinerr
  /-- EP_RINGCTLr (13_control_endpoint.md). -/
  | epRingctl
  /-- EP_CRBASEr (13_control_endpoint.md). -/
  | epCrbase
  /-- EP_CRBASEr (13_control_endpoint.md). -/
  | epRrbase
  /-- EP_CRPIr (13_control_endpoint.md). -/
  | epCrpi
  /-- EP_CRPIr (13_control_endpoint.md). -/
  | epCrci
  /-- EP_CRPIr (13_control_endpoint.md). -/
  | epRrpi
  /-- EP_CRPIr (13_control_endpoint.md). -/
  | epRrci
  /-- EP_RINGSTATr (13_control_endpoint.md). -/
  | epRingstat
  /-- EP_STATUS (13_control_endpoint.md). -/
  | epStatus
  /-- EP_REASON (13_control_endpoint.md). -/
  | epReason
  /-- EP_ISTAT (13_control_endpoint.md). -/
  | epIstat
  /-- EP_IEN (13_control_endpoint.md). -/
  | epIen
  /-- DMA_ENGCFGe (14_dma.md). -/
  | dmaEngcfg
  /-- DMA_CHCTLc (14_dma.md). -/
  | dmaChctl
  /-- DMA_CHRINGc (14_dma.md). -/
  | dmaChring
  /-- DMA_CHRINGc (14_dma.md). -/
  | dmaChtrig
  /-- DMA_CHRINGc (14_dma.md). -/
  | dmaChcpl
  /-- DMA_CHPIc (14_dma.md). -/
  | dmaChpi
  /-- DMA_CHSTATc (14_dma.md). -/
  | dmaChstat
  /-- DMA_CHPIVALc (14_dma.md). -/
  | dmaChpival
  /-- CD_SMPRINGl (15_performance_monitoring.md). -/
  | cdSmpring
  /-- CD_SMPHDRl (15_performance_monitoring.md). -/
  | cdSmphdr
  /-- CD_SMPSTATl (15_performance_monitoring.md). -/
  | cdSmpstat
  /-- PMU_SELn (15_performance_monitoring.md). -/
  | pmuHsSel
  /-- PMU_SELn (15_performance_monitoring.md). -/
  | pmuMcSel
  /-- PMU_SELn (15_performance_monitoring.md). -/
  | pmuDmaSel
  /-- PMU_SELn (15_performance_monitoring.md). -/
  | pmuReelSel
  /-- PMU_SELn (15_performance_monitoring.md). -/
  | pmuRptSel
  /-- PMU_CTRn (15_performance_monitoring.md). -/
  | pmuHsCtr
  /-- PMU_CTRn (15_performance_monitoring.md). -/
  | pmuMcCtr
  /-- PMU_CTRn (15_performance_monitoring.md). -/
  | pmuDmaCtr
  /-- PMU_CTRn (15_performance_monitoring.md). -/
  | pmuReelCtr
  /-- PMU_CTRn (15_performance_monitoring.md). -/
  | pmuRptCtr
  /-- BWW_CFGw (15_performance_monitoring.md). -/
  | bwwCfg
  /-- BWW_Aw (15_performance_monitoring.md). -/
  | bwwA
  /-- BWW_Aw (15_performance_monitoring.md). -/
  | bwwB
  /-- BWW_SEQw (15_performance_monitoring.md). -/
  | bwwSeq
  /-- GLB_BOOTSTAT (16_boot_reset_and_errors.md). -/
  | glbBootstat
  /-- GLB_BOOTIMG (16_boot_reset_and_errors.md). -/
  | glbBootimg
  /-- GLB_RESET (16_boot_reset_and_errors.md). -/
  | glbReset
  /-- GLB_ERRSTAT (16_boot_reset_and_errors.md). -/
  | glbErrstat
  /-- RPT_CTLn (17_signals_and_electrical.md). -/
  | rptCtl
  /-- RPT_STATn (17_signals_and_electrical.md). -/
  | rptStat
  /-- GLB_STRAPS (17_signals_and_electrical.md). -/
  | glbStraps
  /-- IRT_MSI (03_isa_and_privilege.md). -/
  | irtMsi
  deriving DecidableEq, Repr

/-- A field named for reading and writing: its register, lowest bit and length. -/
structure Fld where
  kind : RegKind
  lo : Nat
  len : Nat
  deriving DecidableEq, Repr

/-- Register kinds, part 1. -/
def RegKind.all1 : List RegKind :=
  [.irtRoute, .irtReason, .hsDterr, .hsTrkcfg, .cdCrgrant, .hsWheel, .hsTmo, .glbSetchk, .cdIdent, .cdSerial, .slpCfg, .slpDstat]

/-- Register kinds, part 2. -/
def RegKind.all2 : List RegKind :=
  [.slpGstat, .slpGerr, .mcCfg, .hsMscway, .mcMark, .glbMemras, .mcPatrol, .mcEccstat, .mcEcclast, .ectAddr, .ectCmd, .ectData]

/-- Register kinds, part 3. -/
def RegKind.all3 : List RegKind :=
  [.ectCheck, .ectStatus, .glbFired, .mcSuspect, .reelStat, .reelErr, .reelWheel, .reelSys, .prtCtl, .prtWin, .prtCore, .prtIo]

/-- Register kinds, part 4. -/
def RegKind.all4 : List RegKind :=
  [.mbxDoorbell, .mbxStatus, .pwrStatus, .pwrReason, .pwrWakecfg, .pwrWakesrc, .pwrTherm, .pwrCorectl, .pwrSpill, .pwrDiectl, .epWinbase, .epWinerr]

/-- Register kinds, part 5. -/
def RegKind.all5 : List RegKind :=
  [.epRingctl, .epCrbase, .epRrbase, .epCrpi, .epCrci, .epRrpi, .epRrci, .epRingstat, .epStatus, .epReason, .epIstat, .epIen]

/-- Register kinds, part 6. -/
def RegKind.all6 : List RegKind :=
  [.dmaEngcfg, .dmaChctl, .dmaChring, .dmaChtrig, .dmaChcpl, .dmaChpi, .dmaChstat, .dmaChpival, .cdSmpring, .cdSmphdr, .cdSmpstat, .pmuHsSel]

/-- Register kinds, part 7. -/
def RegKind.all7 : List RegKind :=
  [.pmuMcSel, .pmuDmaSel, .pmuReelSel, .pmuRptSel, .pmuHsCtr, .pmuMcCtr, .pmuDmaCtr, .pmuReelCtr, .pmuRptCtr, .bwwCfg, .bwwA, .bwwB]

/-- Register kinds, part 8. -/
def RegKind.all8 : List RegKind :=
  [.bwwSeq, .glbBootstat, .glbBootimg, .glbReset, .glbErrstat, .rptCtl, .rptStat, .glbStraps, .irtMsi]

/-- Every register kind. -/
def RegKind.all : List RegKind := RegKind.all1 ++ RegKind.all2 ++ RegKind.all3 ++ RegKind.all4 ++ RegKind.all5 ++ RegKind.all6 ++ RegKind.all7 ++ RegKind.all8

/-- The key of the endpoint's BAR0 registers: their BAR0 offset above this base, beyond all of control space (R285). -/
def bar0Base : Nat := 0x100000000000

/-- R7 and the header lines: base offset, outer stride and count, inner stride and count. -/
def RegKind.place : RegKind → Nat × Nat × Nat × Nat × Nat
  | .irtRoute => (0x7000000, 0x8, 4096, 0x0, 1)
  | .irtReason => (0x7008000, 0x0, 1, 0x0, 1)
  | .hsDterr => (0x1001000, 0x100000, 16, 0x0, 1)
  | .hsTrkcfg => (0x1002000, 0x100000, 16, 0x0, 1)
  | .cdCrgrant => (0x5002000, 0x100000, 12, 0x8, 64)
  | .hsWheel => (0x1003000, 0x100000, 16, 0x8, 8)
  | .hsTmo => (0x1002008, 0x100000, 16, 0x0, 1)
  | .glbSetchk => (0x100, 0x0, 1, 0x0, 1)
  | .cdIdent => (0x5000000, 0x100000, 12, 0x0, 1)
  | .cdSerial => (0x5000008, 0x100000, 12, 0x0, 1)
  | .slpCfg => (0xC000000, 0x0, 1, 0x0, 1)
  | .slpDstat => (0xC010000, 0x1000, 12, 0x0, 1)
  | .slpGstat => (0xC010100, 0x1000, 12, 0x10, 16)
  | .slpGerr => (0xC010108, 0x1000, 12, 0x10, 16)
  | .mcCfg => (0x2000000, 0x100000, 16, 0x0, 1)
  | .hsMscway => (0x1004000, 0x100000, 16, 0x8, 64)
  | .mcMark => (0x2000200, 0x100000, 16, 0x8, 16)
  | .glbMemras => (0x200, 0x0, 1, 0x0, 1)
  | .mcPatrol => (0x2000300, 0x100000, 16, 0x0, 1)
  | .mcEccstat => (0x2000100, 0x100000, 16, 0x0, 1)
  | .mcEcclast => (0x2000108, 0x100000, 16, 0x0, 1)
  | .ectAddr => (0x9000000, 0x0, 1, 0x0, 1)
  | .ectCmd => (0x9000008, 0x0, 1, 0x0, 1)
  | .ectData => (0x9000100, 0x8, 8, 0x0, 1)
  | .ectCheck => (0x9000140, 0x8, 2, 0x0, 1)
  | .ectStatus => (0x9000180, 0x0, 1, 0x0, 1)
  | .glbFired => (0x1000, 0x8, 256, 0x0, 1)
  | .mcSuspect => (0x2000400, 0x100000, 16, 0x8, 16)
  | .reelStat => (0x4080000, 0x1000, 10, 0x0, 1)
  | .reelErr => (0x4080008, 0x1000, 10, 0x0, 1)
  | .reelWheel => (0x4080100, 0x1000, 10, 0x8, 8)
  | .reelSys => (0x408F000, 0x0, 1, 0x0, 1)
  | .prtCtl => (0x6000000, 0x1000, 64, 0x0, 1)
  | .prtWin => (0x6000100, 0x1000, 64, 0x8, 16)
  | .prtCore => (0x6000200, 0x1000, 64, 0x8, 4)
  | .prtIo => (0x6000300, 0x1000, 64, 0x8, 5)
  | .mbxDoorbell => (0xA000000, 0x1000, 64, 0x0, 1)
  | .mbxStatus => (0xA000008, 0x1000, 64, 0x0, 1)
  | .pwrStatus => (0xB000000, 0x0, 1, 0x0, 1)
  | .pwrReason => (0xB000008, 0x0, 1, 0x0, 1)
  | .pwrWakecfg => (0xB000100, 0x0, 1, 0x0, 1)
  | .pwrWakesrc => (0xB000108, 0x0, 1, 0x0, 1)
  | .pwrTherm => (0xB000200, 0x0, 1, 0x0, 1)
  | .pwrCorectl => (0xB010000, 0x8, 240, 0x0, 1)
  | .pwrSpill => (0xB020000, 0x8, 240, 0x0, 1)
  | .pwrDiectl => (0xB030000, 0x8, 12, 0x0, 1)
  | .epWinbase => (bar0Base + 0x100, 0x0, 1, 0x0, 1)
  | .epWinerr => (bar0Base + 0x108, 0x0, 1, 0x0, 1)
  | .epRingctl => (bar0Base + 0x1000, 0x40, 4, 0x0, 1)
  | .epCrbase => (bar0Base + 0x1008, 0x40, 4, 0x0, 1)
  | .epRrbase => (bar0Base + 0x1010, 0x40, 4, 0x0, 1)
  | .epCrpi => (bar0Base + 0x1018, 0x40, 4, 0x0, 1)
  | .epCrci => (bar0Base + 0x1020, 0x40, 4, 0x0, 1)
  | .epRrpi => (bar0Base + 0x1028, 0x40, 4, 0x0, 1)
  | .epRrci => (bar0Base + 0x1030, 0x40, 4, 0x0, 1)
  | .epRingstat => (bar0Base + 0x1038, 0x40, 4, 0x0, 1)
  | .epStatus => (bar0Base + 0x0, 0x0, 1, 0x0, 1)
  | .epReason => (bar0Base + 0x8, 0x0, 1, 0x0, 1)
  | .epIstat => (bar0Base + 0x10, 0x0, 1, 0x0, 1)
  | .epIen => (bar0Base + 0x18, 0x0, 1, 0x0, 1)
  | .dmaEngcfg => (0x3000000, 0x100000, 8, 0x0, 1)
  | .dmaChctl => (0x3001000, 0x100000, 8, 0x40, 32)
  | .dmaChring => (0x3001008, 0x100000, 8, 0x40, 32)
  | .dmaChtrig => (0x3001010, 0x100000, 8, 0x40, 32)
  | .dmaChcpl => (0x3001018, 0x100000, 8, 0x40, 32)
  | .dmaChpi => (0x3001020, 0x100000, 8, 0x40, 32)
  | .dmaChstat => (0x3001028, 0x100000, 8, 0x40, 32)
  | .dmaChpival => (0x3001030, 0x100000, 8, 0x40, 32)
  | .cdSmpring => (0x5004000, 0x100000, 12, 0x10, 20)
  | .cdSmphdr => (0x5004008, 0x100000, 12, 0x10, 20)
  | .cdSmpstat => (0x5004800, 0x100000, 12, 0x8, 20)
  | .pmuHsSel => (0x1008000, 0x100000, 16, 0x10, 8)
  | .pmuMcSel => (0x2008000, 0x100000, 16, 0x10, 4)
  | .pmuDmaSel => (0x3008000, 0x100000, 8, 0x10, 2)
  | .pmuReelSel => (0x4080800, 0x1000, 10, 0x10, 4)
  | .pmuRptSel => (0x40C0800, 0x1000, 20, 0x10, 4)
  | .pmuHsCtr => (0x1008008, 0x100000, 16, 0x10, 8)
  | .pmuMcCtr => (0x2008008, 0x100000, 16, 0x10, 4)
  | .pmuDmaCtr => (0x3008008, 0x100000, 8, 0x10, 2)
  | .pmuReelCtr => (0x4080808, 0x1000, 10, 0x10, 4)
  | .pmuRptCtr => (0x40C0808, 0x1000, 20, 0x10, 4)
  | .bwwCfg => (0x8000000, 0x20, 32, 0x0, 1)
  | .bwwA => (0x8000008, 0x20, 32, 0x0, 1)
  | .bwwB => (0x8000010, 0x20, 32, 0x0, 1)
  | .bwwSeq => (0x8000018, 0x20, 32, 0x0, 1)
  | .glbBootstat => (0x300, 0x0, 1, 0x0, 1)
  | .glbBootimg => (0x308, 0x0, 1, 0x0, 1)
  | .glbReset => (0x310, 0x0, 1, 0x0, 1)
  | .glbErrstat => (0x400, 0x0, 1, 0x0, 1)
  | .rptCtl => (0x40C0000, 0x1000, 20, 0x0, 1)
  | .rptStat => (0x40C0008, 0x1000, 20, 0x0, 1)
  | .glbStraps => (0x500, 0x0, 1, 0x0, 1)
  | .irtMsi => (0x700F000, 0x0, 1, 0x0, 1)

/-- The reset domain of each register (R11, header lines). -/
def RegKind.domain : RegKind → Domain
  | .irtRoute => .package
  | .irtReason => .package
  | .hsDterr => .package
  | .hsTrkcfg => .package
  | .cdCrgrant => .package
  | .hsWheel => .package
  | .hsTmo => .package
  | .glbSetchk => .package
  | .cdIdent => .package
  | .cdSerial => .package
  | .slpCfg => .package
  | .slpDstat => .package
  | .slpGstat => .package
  | .slpGerr => .package
  | .mcCfg => .package
  | .hsMscway => .package
  | .mcMark => .aon
  | .glbMemras => .aon
  | .mcPatrol => .package
  | .mcEccstat => .package
  | .mcEcclast => .package
  | .ectAddr => .package
  | .ectCmd => .package
  | .ectData => .package
  | .ectCheck => .package
  | .ectStatus => .package
  | .glbFired => .aon
  | .mcSuspect => .aon
  | .reelStat => .package
  | .reelErr => .package
  | .reelWheel => .package
  | .reelSys => .package
  | .prtCtl => .package
  | .prtWin => .package
  | .prtCore => .package
  | .prtIo => .package
  | .mbxDoorbell => .partition
  | .mbxStatus => .partition
  | .pwrStatus => .package
  | .pwrReason => .package
  | .pwrWakecfg => .package
  | .pwrWakesrc => .package
  | .pwrTherm => .package
  | .pwrCorectl => .package
  | .pwrSpill => .package
  | .pwrDiectl => .package
  | .epWinbase => .epFunc
  | .epWinerr => .epFunc
  | .epRingctl => .epFunc
  | .epCrbase => .epFunc
  | .epRrbase => .epFunc
  | .epCrpi => .epFunc
  | .epCrci => .epFunc
  | .epRrpi => .epFunc
  | .epRrci => .epFunc
  | .epRingstat => .epFunc
  | .epStatus => .epLink
  | .epReason => .epFunc
  | .epIstat => .epFunc
  | .epIen => .epFunc
  | .dmaEngcfg => .package
  | .dmaChctl => .package
  | .dmaChring => .package
  | .dmaChtrig => .package
  | .dmaChcpl => .package
  | .dmaChpi => .package
  | .dmaChstat => .package
  | .dmaChpival => .package
  | .cdSmpring => .package
  | .cdSmphdr => .package
  | .cdSmpstat => .package
  | .pmuHsSel => .package
  | .pmuMcSel => .package
  | .pmuDmaSel => .package
  | .pmuReelSel => .package
  | .pmuRptSel => .package
  | .pmuHsCtr => .package
  | .pmuMcCtr => .package
  | .pmuDmaCtr => .package
  | .pmuReelCtr => .package
  | .pmuRptCtr => .package
  | .bwwCfg => .package
  | .bwwA => .package
  | .bwwB => .package
  | .bwwSeq => .package
  | .glbBootstat => .package
  | .glbBootimg => .package
  | .glbReset => .package
  | .glbErrstat => .package
  | .rptCtl => .package
  | .rptStat => .package
  | .glbStraps => .aon
  | .irtMsi => .package

/-- The width in bytes of each register (R9): the MSI doorbell has 32 bits (R73), the others 64. -/
def RegKind.width : RegKind → Nat
  | .irtMsi => 4
  | .irtRoute => 8
  | .irtReason => 8
  | .hsDterr => 8
  | .hsTrkcfg => 8
  | .cdCrgrant => 8
  | .hsWheel => 8
  | .hsTmo => 8
  | .glbSetchk => 8
  | .cdIdent => 8
  | .cdSerial => 8
  | .slpCfg => 8
  | .slpDstat => 8
  | .slpGstat => 8
  | .slpGerr => 8
  | .mcCfg => 8
  | .hsMscway => 8
  | .mcMark => 8
  | .glbMemras => 8
  | .mcPatrol => 8
  | .mcEccstat => 8
  | .mcEcclast => 8
  | .ectAddr => 8
  | .ectCmd => 8
  | .ectData => 8
  | .ectCheck => 8
  | .ectStatus => 8
  | .glbFired => 8
  | .mcSuspect => 8
  | .reelStat => 8
  | .reelErr => 8
  | .reelWheel => 8
  | .reelSys => 8
  | .prtCtl => 8
  | .prtWin => 8
  | .prtCore => 8
  | .prtIo => 8
  | .mbxDoorbell => 8
  | .mbxStatus => 8
  | .pwrStatus => 8
  | .pwrReason => 8
  | .pwrWakecfg => 8
  | .pwrWakesrc => 8
  | .pwrTherm => 8
  | .pwrCorectl => 8
  | .pwrSpill => 8
  | .pwrDiectl => 8
  | .epWinbase => 8
  | .epWinerr => 8
  | .epRingctl => 8
  | .epCrbase => 8
  | .epRrbase => 8
  | .epCrpi => 8
  | .epCrci => 8
  | .epRrpi => 8
  | .epRrci => 8
  | .epRingstat => 8
  | .epStatus => 8
  | .epReason => 8
  | .epIstat => 8
  | .epIen => 8
  | .dmaEngcfg => 8
  | .dmaChctl => 8
  | .dmaChring => 8
  | .dmaChtrig => 8
  | .dmaChcpl => 8
  | .dmaChpi => 8
  | .dmaChstat => 8
  | .dmaChpival => 8
  | .cdSmpring => 8
  | .cdSmphdr => 8
  | .cdSmpstat => 8
  | .pmuHsSel => 8
  | .pmuMcSel => 8
  | .pmuDmaSel => 8
  | .pmuReelSel => 8
  | .pmuRptSel => 8
  | .pmuHsCtr => 8
  | .pmuMcCtr => 8
  | .pmuDmaCtr => 8
  | .pmuReelCtr => 8
  | .pmuRptCtr => 8
  | .bwwCfg => 8
  | .bwwA => 8
  | .bwwB => 8
  | .bwwSeq => 8
  | .glbBootstat => 8
  | .glbBootimg => 8
  | .glbReset => 8
  | .glbErrstat => 8
  | .rptCtl => 8
  | .rptStat => 8
  | .glbStraps => 8

/-- The fields of each register that are not reserved (register tables). -/
def RegKind.fields : RegKind → List FieldD
  | .irtRoute => [⟨0, 1, .rw, 0⟩, ⟨1, 1, .rw, 0⟩, ⟨2, 6, .rw, 0⟩, ⟨8, 6, .rw, 0⟩, ⟨16, 21, .rw, 0⟩, ⟨48, 1, .ro, 0⟩] ++
      [⟨49, 1, .ro, 0⟩, ⟨50, 1, .w1c, 0⟩]
  | .irtReason => [⟨0, 16, .ro, 0⟩, ⟨16, 12, .ro, 0⟩]
  | .hsDterr => [⟨0, 16, .rw, 0⟩, ⟨16, 16, .rw, 0⟩, ⟨32, 16, .ro, 0⟩, ⟨48, 3, .ro, 0⟩]
  | .hsTrkcfg => [⟨0, 13, .ro, 0⟩, ⟨16, 13, .ro, 0⟩, ⟨32, 13, .ro, 0⟩, ⟨48, 13, .rw, 0⟩]
  | .cdCrgrant => [⟨0, 13, .ro, 0⟩, ⟨16, 13, .rw, 0⟩, ⟨32, 32, .rw, 0⟩]
  | .hsWheel => [⟨0, 6, .ro, 0⟩, ⟨6, 1, .ro, 0⟩, ⟨8, 6, .ro, 0⟩, ⟨14, 1, .ro, 0⟩, ⟨16, 6, .ro, 0⟩, ⟨22, 1, .ro, 0⟩] ++
      [⟨24, 6, .ro, 0⟩, ⟨30, 1, .ro, 0⟩, ⟨32, 6, .ro, 0⟩, ⟨38, 1, .ro, 0⟩, ⟨40, 6, .ro, 0⟩, ⟨46, 1, .ro, 0⟩] ++
      [⟨48, 6, .ro, 0⟩, ⟨54, 1, .ro, 0⟩, ⟨56, 6, .ro, 0⟩, ⟨62, 1, .ro, 0⟩]
  | .hsTmo => [⟨0, 24, .rw, 1048576⟩, ⟨32, 16, .rw, 0⟩, ⟨48, 2, .ro, 0⟩]
  | .glbSetchk => [⟨0, 16, .ro, 0⟩, ⟨16, 4, .ro, 0⟩, ⟨20, 1, .ro, 0⟩, ⟨21, 1, .ro, 0⟩, ⟨32, 32, .ro, 0⟩]
  | .cdIdent => [⟨0, 4, .ro, 0⟩, ⟨4, 1, .ro, 0⟩, ⟨5, 1, .ro, 0⟩, ⟨8, 16, .ro, 0⟩, ⟨24, 32, .ro, 0⟩]
  | .cdSerial => [⟨0, 64, .ro, 0⟩]
  | .slpCfg => [⟨0, 6, .rw, 31⟩, ⟨8, 8, .rw, 8⟩, ⟨16, 8, .rw, 16⟩]
  | .slpDstat => [⟨0, 2, .ro, 0⟩, ⟨8, 3, .ro, 0⟩, ⟨16, 16, .ro, 0⟩]
  | .slpGstat => [⟨0, 2, .ro, 0⟩, ⟨2, 2, .ro, 0⟩, ⟨4, 1, .ro, 0⟩, ⟨5, 1, .ro, 0⟩, ⟨6, 1, .ro, 0⟩, ⟨8, 7, .ro, 127⟩] ++
      [⟨16, 7, .ro, 127⟩, ⟨24, 7, .ro, 127⟩]
  | .slpGerr => [⟨0, 16, .rw, 0⟩, ⟨16, 16, .rw, 0⟩, ⟨32, 7, .ro, 127⟩]
  | .mcCfg => [⟨0, 3, .ro, 0⟩, ⟨3, 1, .ro, 0⟩, ⟨4, 1, .ro, 0⟩, ⟨5, 1, .ro, 0⟩, ⟨6, 2, .ro, 0⟩, ⟨8, 5, .ro, 0⟩] ++
      [⟨16, 16, .ro, 0⟩, ⟨32, 1, .ro, 0⟩, ⟨33, 1, .ro, 0⟩]
  | .hsMscway => [⟨0, 16, .ro, 0⟩, ⟨16, 1, .ro, 0⟩]
  | .mcMark => [⟨0, 4, .ro, 0⟩, ⟨4, 1, .ro, 0⟩, ⟨8, 4, .ro, 0⟩, ⟨12, 1, .ro, 0⟩]
  | .glbMemras => [⟨0, 8, .rw, 4⟩, ⟨8, 8, .rw, 16⟩, ⟨16, 6, .rw, 42⟩]
  | .mcPatrol => [⟨0, 8, .ro, 24⟩, ⟨8, 1, .ro, 1⟩, ⟨16, 34, .ro, 0⟩, ⟨56, 8, .ro, 0⟩]
  | .mcEccstat => [⟨0, 16, .rw, 0⟩, ⟨16, 16, .rw, 0⟩, ⟨32, 16, .rw, 0⟩]
  | .mcEcclast => [⟨0, 3, .ro, 0⟩, ⟨3, 1, .ro, 0⟩, ⟨4, 10, .ro, 0⟩, ⟨14, 4, .ro, 0⟩, ⟨18, 34, .ro, 0⟩]
  | .ectAddr => [⟨6, 46, .rw, 0⟩]
  | .ectCmd => [⟨0, 3, .wo, 0⟩]
  | .ectData => [⟨0, 64, .rw, 0⟩]
  | .ectCheck => [⟨0, 64, .rw, 0⟩]
  | .ectStatus => [⟨0, 1, .ro, 0⟩, ⟨1, 1, .w1c, 0⟩, ⟨2, 3, .ro, 0⟩, ⟨5, 4, .ro, 0⟩, ⟨9, 10, .ro, 0⟩, ⟨32, 16, .ro, 0⟩]
  | .glbFired => [⟨0, 64, .ro, 0⟩]
  | .mcSuspect => [⟨0, 32, .ro, 0⟩, ⟨32, 32, .ro, 0⟩]
  | .reelStat => [⟨0, 3, .ro, 0⟩, ⟨3, 1, .ro, 0⟩, ⟨4, 1, .ro, 0⟩, ⟨5, 1, .ro, 0⟩, ⟨6, 3, .ro, 0⟩, ⟨9, 4, .ro, 0⟩] ++
      [⟨16, 4, .ro, 0⟩, ⟨32, 16, .ro, 0⟩]
  | .reelErr => [⟨0, 32, .rw, 0⟩, ⟨32, 16, .rw, 0⟩, ⟨48, 8, .rw, 0⟩]
  | .reelWheel => [⟨0, 6, .ro, 0⟩, ⟨6, 1, .ro, 0⟩, ⟨8, 6, .ro, 0⟩, ⟨14, 1, .ro, 0⟩, ⟨16, 6, .ro, 0⟩, ⟨22, 1, .ro, 0⟩] ++
      [⟨24, 6, .ro, 0⟩, ⟨30, 1, .ro, 0⟩, ⟨32, 6, .ro, 0⟩, ⟨38, 1, .ro, 0⟩, ⟨40, 6, .ro, 0⟩, ⟨46, 1, .ro, 0⟩] ++
      [⟨48, 6, .ro, 0⟩, ⟨54, 1, .ro, 0⟩, ⟨56, 6, .ro, 0⟩, ⟨62, 1, .ro, 0⟩]
  | .reelSys => [⟨0, 8, .ro, 0⟩, ⟨8, 8, .ro, 0⟩, ⟨16, 3, .ro, 0⟩, ⟨19, 1, .ro, 0⟩, ⟨20, 1, .ro, 0⟩, ⟨24, 8, .ro, 0⟩] ++
      [⟨32, 16, .ro, 0⟩]
  | .prtCtl => [⟨0, 2, .ro, 0⟩, ⟨2, 1, .ro, 0⟩, ⟨3, 1, .ro, 0⟩, ⟨8, 8, .ro, 0⟩, ⟨16, 8, .ro, 0⟩, ⟨32, 16, .ro, 0⟩]
  | .prtWin => [⟨0, 1, .ro, 0⟩, ⟨8, 22, .ro, 0⟩, ⟨32, 15, .ro, 0⟩]
  | .prtCore => [⟨0, 64, .ro, 0⟩]
  | .prtIo => [⟨0, 64, .ro, 0⟩]
  | .mbxDoorbell => [⟨0, 2, .wo, 0⟩]
  | .mbxStatus => [⟨0, 4, .ro, 0⟩, ⟨8, 4, .w1c, 0⟩, ⟨16, 8, .ro, 0⟩, ⟨32, 16, .ro, 0⟩]
  | .pwrStatus => [⟨0, 2, .ro, 0⟩, ⟨4, 4, .ro, 0⟩, ⟨8, 4, .ro, 0⟩, ⟨12, 1, .ro, 0⟩, ⟨13, 1, .ro, 0⟩, ⟨14, 1, .ro, 0⟩]
  | .pwrReason => [⟨0, 16, .ro, 0⟩, ⟨16, 8, .ro, 0⟩]
  | .pwrWakecfg => [⟨0, 8, .rw, 255⟩, ⟨8, 8, .rw, 16⟩]
  | .pwrWakesrc => [⟨0, 8, .w1c, 0⟩, ⟨8, 2, .ro, 0⟩, ⟨10, 2, .ro, 0⟩, ⟨12, 10, .ro, 0⟩, ⟨22, 20, .ro, 0⟩, ⟨42, 5, .ro, 0⟩]
  | .pwrTherm => [⟨0, 8, .rw, 95⟩, ⟨8, 8, .rw, 3⟩, ⟨16, 8, .ro, 115⟩, ⟨24, 8, .ro, 0⟩, ⟨32, 4, .ro, 0⟩, ⟨36, 1, .ro, 0⟩] ++
      [⟨37, 1, .ro, 0⟩]
  | .pwrCorectl => [⟨0, 2, .rw, 3⟩, ⟨4, 2, .ro, 0⟩, ⟨8, 6, .ro, 32⟩, ⟨16, 6, .ro, 0⟩]
  | .pwrSpill => [⟨0, 1, .rw, 0⟩, ⟨20, 32, .rw, 0⟩]
  | .pwrDiectl => [⟨0, 2, .rw, 2⟩, ⟨4, 2, .ro, 0⟩, ⟨8, 3, .ro, 0⟩, ⟨12, 3, .ro, 0⟩, ⟨16, 3, .ro, 0⟩, ⟨20, 3, .ro, 0⟩] ++
      [⟨24, 8, .ro, 0⟩, ⟨32, 8, .ro, 0⟩]
  | .epWinbase => [⟨19, 33, .rw, 0⟩]
  | .epWinerr => [⟨0, 16, .ro, 0⟩, ⟨16, 16, .rw, 0⟩, ⟨32, 1, .ro, 0⟩]
  | .epRingctl => [⟨0, 1, .rw, 0⟩, ⟨8, 5, .rw, 0⟩, ⟨16, 5, .rw, 0⟩, ⟨24, 6, .rw, 0⟩, ⟨32, 6, .rw, 0⟩]
  | .epCrbase => [⟨12, 52, .rw, 0⟩]
  | .epRrbase => [⟨12, 52, .rw, 0⟩]
  | .epCrpi => [⟨0, 17, .rw, 0⟩]
  | .epCrci => [⟨0, 17, .ro, 0⟩]
  | .epRrpi => [⟨0, 17, .ro, 0⟩]
  | .epRrci => [⟨0, 17, .rw, 0⟩]
  | .epRingstat => [⟨0, 2, .ro, 0⟩, ⟨8, 4, .ro, 0⟩, ⟨16, 16, .ro, 0⟩]
  | .epStatus => [⟨0, 6, .ro, 0⟩, ⟨6, 6, .ro, 0⟩, ⟨16, 16, .rw, 0⟩]
  | .epReason => [⟨0, 16, .ro, 0⟩, ⟨16, 2, .ro, 0⟩]
  | .epIstat => [⟨0, 4, .w1c, 0⟩, ⟨8, 4, .w1c, 0⟩, ⟨16, 1, .w1c, 0⟩, ⟨17, 1, .w1c, 0⟩]
  | .epIen => [⟨0, 18, .rw, 0⟩, ⟨32, 6, .rw, 0⟩]
  | .dmaEngcfg => [⟨0, 8, .rw, 16⟩, ⟨8, 5, .ro, 0⟩, ⟨13, 1, .ro, 0⟩, ⟨16, 7, .ro, 0⟩, ⟨24, 7, .ro, 0⟩]
  | .dmaChctl => [⟨0, 1, .rw, 0⟩, ⟨8, 5, .rw, 0⟩]
  | .dmaChring => [⟨6, 46, .rw, 0⟩]
  | .dmaChtrig => [⟨6, 46, .rw, 0⟩]
  | .dmaChcpl => [⟨6, 46, .rw, 0⟩]
  | .dmaChpi => [⟨0, 32, .wo, 0⟩]
  | .dmaChstat => [⟨0, 32, .ro, 0⟩, ⟨32, 3, .ro, 0⟩, ⟨35, 1, .ro, 0⟩, ⟨48, 16, .ro, 0⟩]
  | .dmaChpival => [⟨0, 32, .ro, 0⟩, ⟨32, 32, .ro, 0⟩]
  | .cdSmpring => [⟨0, 1, .rw, 0⟩, ⟨8, 5, .rw, 0⟩, ⟨16, 36, .rw, 0⟩]
  | .cdSmphdr => [⟨7, 45, .rw, 0⟩]
  | .cdSmpstat => [⟨0, 16, .ro, 0⟩, ⟨16, 7, .ro, 0⟩, ⟨24, 16, .rw, 0⟩, ⟨40, 16, .rw, 0⟩]
  | .pmuHsSel => [⟨0, 8, .rw, 0⟩, ⟨8, 1, .rw, 0⟩, ⟨9, 1, .rw, 0⟩, ⟨10, 6, .rw, 0⟩, ⟨16, 12, .rw, 0⟩, ⟨28, 2, .rw, 0⟩] ++
      [⟨30, 1, .rw, 0⟩, ⟨63, 1, .w1c, 0⟩]
  | .pmuMcSel => [⟨0, 8, .rw, 0⟩, ⟨8, 1, .rw, 0⟩, ⟨9, 1, .rw, 0⟩, ⟨10, 6, .rw, 0⟩, ⟨16, 12, .rw, 0⟩, ⟨28, 2, .rw, 0⟩] ++
      [⟨30, 1, .rw, 0⟩, ⟨63, 1, .w1c, 0⟩]
  | .pmuDmaSel => [⟨0, 8, .rw, 0⟩, ⟨8, 1, .rw, 0⟩, ⟨9, 1, .rw, 0⟩, ⟨10, 6, .rw, 0⟩, ⟨16, 12, .rw, 0⟩, ⟨28, 2, .rw, 0⟩] ++
      [⟨30, 1, .rw, 0⟩, ⟨63, 1, .w1c, 0⟩]
  | .pmuReelSel => [⟨0, 8, .rw, 0⟩, ⟨8, 1, .rw, 0⟩, ⟨9, 1, .rw, 0⟩, ⟨10, 6, .rw, 0⟩, ⟨16, 12, .rw, 0⟩, ⟨28, 2, .rw, 0⟩] ++
      [⟨30, 1, .rw, 0⟩, ⟨63, 1, .w1c, 0⟩]
  | .pmuRptSel => [⟨0, 8, .rw, 0⟩, ⟨8, 1, .rw, 0⟩, ⟨9, 1, .rw, 0⟩, ⟨10, 6, .rw, 0⟩, ⟨16, 12, .rw, 0⟩, ⟨28, 2, .rw, 0⟩] ++
      [⟨30, 1, .rw, 0⟩, ⟨63, 1, .w1c, 0⟩]
  | .pmuHsCtr => [⟨0, 48, .rw, 0⟩]
  | .pmuMcCtr => [⟨0, 48, .rw, 0⟩]
  | .pmuDmaCtr => [⟨0, 48, .rw, 0⟩]
  | .pmuReelCtr => [⟨0, 48, .rw, 0⟩]
  | .pmuRptCtr => [⟨0, 48, .rw, 0⟩]
  | .bwwCfg => [⟨0, 1, .ro, 0⟩, ⟨1, 1, .ro, 0⟩, ⟨2, 3, .ro, 0⟩, ⟨5, 5, .ro, 0⟩, ⟨10, 6, .ro, 0⟩, ⟨16, 1, .ro, 0⟩] ++
      [⟨24, 40, .ro, 0⟩]
  | .bwwA => [⟨0, 64, .ro, 0⟩]
  | .bwwB => [⟨0, 64, .ro, 0⟩]
  | .bwwSeq => [⟨0, 32, .ro, 0⟩]
  | .glbBootstat => [⟨0, 8, .ro, 0⟩, ⟨8, 1, .ro, 0⟩, ⟨9, 1, .ro, 0⟩, ⟨16, 16, .ro, 0⟩]
  | .glbBootimg => [⟨0, 1, .wo, 0⟩, ⟨3, 20, .rw, 0⟩, ⟨24, 24, .rw, 0⟩]
  | .glbReset => [⟨0, 1, .wo, 0⟩, ⟨1, 1, .wo, 0⟩, ⟨8, 8, .wo, 0⟩]
  | .glbErrstat => [⟨0, 2, .w1c, 0⟩, ⟨2, 1, .ro, 0⟩, ⟨16, 16, .rw, 0⟩, ⟨32, 32, .ro, 0⟩]
  | .rptCtl => [⟨0, 1, .rw, 0⟩, ⟨1, 3, .rw, 6⟩, ⟨4, 4, .rw, 3⟩, ⟨8, 1, .rw, 1⟩, ⟨9, 1, .rw, 0⟩, ⟨16, 1, .ro, 0⟩]
  | .rptStat => [⟨0, 3, .ro, 0⟩, ⟨3, 3, .ro, 0⟩, ⟨6, 5, .ro, 0⟩, ⟨11, 1, .ro, 0⟩, ⟨32, 16, .ro, 0⟩]
  | .glbStraps => [⟨0, 3, .ro, 0⟩, ⟨3, 1, .ro, 0⟩, ⟨4, 1, .ro, 0⟩, ⟨8, 5, .ro, 0⟩]
  | .irtMsi => [⟨0, 32, .wo, 0⟩]

def Fld.irtRouteEn : Fld := ⟨.irtRoute, 0, 1⟩
def Fld.irtRouteLevel : Fld := ⟨.irtRoute, 1, 1⟩
def Fld.irtRouteVector : Fld := ⟨.irtRoute, 2, 6⟩
def Fld.irtRoutePart : Fld := ⟨.irtRoute, 8, 6⟩
def Fld.irtRouteTarget : Fld := ⟨.irtRoute, 16, 21⟩
def Fld.irtRouteSent : Fld := ⟨.irtRoute, 48, 1⟩
def Fld.irtRoutePend : Fld := ⟨.irtRoute, 49, 1⟩
def Fld.irtRouteLost : Fld := ⟨.irtRoute, 50, 1⟩
def Fld.irtReasonReason : Fld := ⟨.irtReason, 0, 16⟩
def Fld.irtReasonRoute : Fld := ⟨.irtReason, 16, 12⟩
def Fld.hsDterrCorr : Fld := ⟨.hsDterr, 0, 16⟩
def Fld.hsDterrRecov : Fld := ⟨.hsDterr, 16, 16⟩
def Fld.hsDterrLastset : Fld := ⟨.hsDterr, 32, 16⟩
def Fld.hsDterrLastway : Fld := ⟨.hsDterr, 48, 3⟩
def Fld.hsTrkcfgReel : Fld := ⟨.hsTrkcfg, 0, 13⟩
def Fld.hsTrkcfgGranted : Fld := ⟨.hsTrkcfg, 16, 13⟩
def Fld.hsTrkcfgInuse : Fld := ⟨.hsTrkcfg, 32, 13⟩
def Fld.hsTrkcfgPeak : Fld := ⟨.hsTrkcfg, 48, 13⟩
def Fld.cdCrgrantGrant : Fld := ⟨.cdCrgrant, 0, 13⟩
def Fld.cdCrgrantMaxuse : Fld := ⟨.cdCrgrant, 16, 13⟩
def Fld.cdCrgrantWait : Fld := ⟨.cdCrgrant, 32, 32⟩
def Fld.hsWheelPart0 : Fld := ⟨.hsWheel, 0, 6⟩
def Fld.hsWheelOwn0 : Fld := ⟨.hsWheel, 6, 1⟩
def Fld.hsWheelPart1 : Fld := ⟨.hsWheel, 8, 6⟩
def Fld.hsWheelOwn1 : Fld := ⟨.hsWheel, 14, 1⟩
def Fld.hsWheelPart2 : Fld := ⟨.hsWheel, 16, 6⟩
def Fld.hsWheelOwn2 : Fld := ⟨.hsWheel, 22, 1⟩
def Fld.hsWheelPart3 : Fld := ⟨.hsWheel, 24, 6⟩
def Fld.hsWheelOwn3 : Fld := ⟨.hsWheel, 30, 1⟩
def Fld.hsWheelPart4 : Fld := ⟨.hsWheel, 32, 6⟩
def Fld.hsWheelOwn4 : Fld := ⟨.hsWheel, 38, 1⟩
def Fld.hsWheelPart5 : Fld := ⟨.hsWheel, 40, 6⟩
def Fld.hsWheelOwn5 : Fld := ⟨.hsWheel, 46, 1⟩
def Fld.hsWheelPart6 : Fld := ⟨.hsWheel, 48, 6⟩
def Fld.hsWheelOwn6 : Fld := ⟨.hsWheel, 54, 1⟩
def Fld.hsWheelPart7 : Fld := ⟨.hsWheel, 56, 6⟩
def Fld.hsWheelOwn7 : Fld := ⟨.hsWheel, 62, 1⟩
def Fld.hsTmoLimit : Fld := ⟨.hsTmo, 0, 24⟩
def Fld.hsTmoExpired : Fld := ⟨.hsTmo, 32, 16⟩
def Fld.hsTmoLastkind : Fld := ⟨.hsTmo, 48, 2⟩
def Fld.glbSetchkReason : Fld := ⟨.glbSetchk, 0, 16⟩
def Fld.glbSetchkDie : Fld := ⟨.glbSetchk, 16, 4⟩
def Fld.glbSetchkDone : Fld := ⟨.glbSetchk, 20, 1⟩
def Fld.glbSetchkPass : Fld := ⟨.glbSetchk, 21, 1⟩
def Fld.glbSetchkSetcode : Fld := ⟨.glbSetchk, 32, 32⟩
def Fld.cdIdentPos : Fld := ⟨.cdIdent, 0, 4⟩
def Fld.cdIdentRot : Fld := ⟨.cdIdent, 4, 1⟩
def Fld.cdIdentOrerr : Fld := ⟨.cdIdent, 5, 1⟩
def Fld.cdIdentRev : Fld := ⟨.cdIdent, 8, 16⟩
def Fld.cdIdentSetcode : Fld := ⟨.cdIdent, 24, 32⟩
def Fld.cdSerialSerial : Fld := ⟨.cdSerial, 0, 64⟩
def Fld.slpCfgWindow : Fld := ⟨.slpCfg, 0, 6⟩
def Fld.slpCfgCorrLimit : Fld := ⟨.slpCfg, 8, 8⟩
def Fld.slpCfgRplyLimit : Fld := ⟨.slpCfg, 16, 8⟩
def Fld.slpDstatState : Fld := ⟨.slpDstat, 0, 2⟩
def Fld.slpDstatFenceCause : Fld := ⟨.slpDstat, 8, 3⟩
def Fld.slpDstatRetired : Fld := ⟨.slpDstat, 16, 16⟩
def Fld.slpGstatState : Fld := ⟨.slpGstat, 0, 2⟩
def Fld.slpGstatSpares : Fld := ⟨.slpGstat, 2, 2⟩
def Fld.slpGstatDeferred : Fld := ⟨.slpGstat, 4, 1⟩
def Fld.slpGstatPending : Fld := ⟨.slpGstat, 5, 1⟩
def Fld.slpGstatMoved : Fld := ⟨.slpGstat, 6, 1⟩
def Fld.slpGstatFailLo : Fld := ⟨.slpGstat, 8, 7⟩
def Fld.slpGstatFailHi : Fld := ⟨.slpGstat, 16, 7⟩
def Fld.slpGstatDue : Fld := ⟨.slpGstat, 24, 7⟩
def Fld.slpGerrCorr : Fld := ⟨.slpGerr, 0, 16⟩
def Fld.slpGerrReplay : Fld := ⟨.slpGerr, 16, 16⟩
def Fld.slpGerrLastwire : Fld := ⟨.slpGerr, 32, 7⟩
def Fld.mcCfgSpeed : Fld := ⟨.mcCfg, 0, 3⟩
def Fld.mcCfgDpc2 : Fld := ⟨.mcCfg, 3, 1⟩
def Fld.mcCfgD32 : Fld := ⟨.mcCfg, 4, 1⟩
def Fld.mcCfgPr2 : Fld := ⟨.mcCfg, 5, 1⟩
def Fld.mcCfgStack : Fld := ⟨.mcCfg, 6, 2⟩
def Fld.mcCfgLranks : Fld := ⟨.mcCfg, 8, 5⟩
def Fld.mcCfgCapg : Fld := ⟨.mcCfg, 16, 16⟩
def Fld.mcCfgUp : Fld := ⟨.mcCfg, 32, 1⟩
def Fld.mcCfgIsot : Fld := ⟨.mcCfg, 33, 1⟩
def Fld.hsMscwayWays : Fld := ⟨.hsMscway, 0, 16⟩
def Fld.hsMscwayExcl : Fld := ⟨.hsMscway, 16, 1⟩
def Fld.mcMarkAdev : Fld := ⟨.mcMark, 0, 4⟩
def Fld.mcMarkAv : Fld := ⟨.mcMark, 4, 1⟩
def Fld.mcMarkBdev : Fld := ⟨.mcMark, 8, 4⟩
def Fld.mcMarkBv : Fld := ⟨.mcMark, 12, 1⟩
def Fld.glbMemrasDevLimit : Fld := ⟨.glbMemras, 0, 8⟩
def Fld.glbMemrasPageCe : Fld := ⟨.glbMemras, 8, 8⟩
def Fld.glbMemrasWindow : Fld := ⟨.glbMemras, 16, 6⟩
def Fld.mcPatrolPeriod : Fld := ⟨.mcPatrol, 0, 8⟩
def Fld.mcPatrolHw : Fld := ⟨.mcPatrol, 8, 1⟩
def Fld.mcPatrolNext : Fld := ⟨.mcPatrol, 16, 34⟩
def Fld.mcPatrolPasses : Fld := ⟨.mcPatrol, 56, 8⟩
def Fld.mcEccstatCorr : Fld := ⟨.mcEccstat, 0, 16⟩
def Fld.mcEccstatUncorr : Fld := ⟨.mcEccstat, 16, 16⟩
def Fld.mcEccstatPois : Fld := ⟨.mcEccstat, 32, 16⟩
def Fld.mcEcclastOutcome : Fld := ⟨.mcEcclast, 0, 3⟩
def Fld.mcEcclastPatrol : Fld := ⟨.mcEcclast, 3, 1⟩
def Fld.mcEcclastDevmask : Fld := ⟨.mcEcclast, 4, 10⟩
def Fld.mcEcclastNsym : Fld := ⟨.mcEcclast, 14, 4⟩
def Fld.mcEcclastLine : Fld := ⟨.mcEcclast, 18, 34⟩
def Fld.ectAddrLine : Fld := ⟨.ectAddr, 6, 46⟩
def Fld.ectCmdOp : Fld := ⟨.ectCmd, 0, 3⟩
def Fld.ectDataData : Fld := ⟨.ectData, 0, 64⟩
def Fld.ectCheckCheck : Fld := ⟨.ectCheck, 0, 64⟩
def Fld.ectStatusBusy : Fld := ⟨.ectStatus, 0, 1⟩
def Fld.ectStatusDone : Fld := ⟨.ectStatus, 1, 1⟩
def Fld.ectStatusOutcome : Fld := ⟨.ectStatus, 2, 3⟩
def Fld.ectStatusNsym : Fld := ⟨.ectStatus, 5, 4⟩
def Fld.ectStatusDevmask : Fld := ⟨.ectStatus, 9, 10⟩
def Fld.ectStatusReason : Fld := ⟨.ectStatus, 32, 16⟩
def Fld.glbFiredFired : Fld := ⟨.glbFired, 0, 64⟩
def Fld.mcSuspectA : Fld := ⟨.mcSuspect, 0, 32⟩
def Fld.mcSuspectB : Fld := ⟨.mcSuspect, 32, 32⟩
def Fld.reelStatState : Fld := ⟨.reelStat, 0, 3⟩
def Fld.reelStatX16 : Fld := ⟨.reelStat, 3, 1⟩
def Fld.reelStatG64 : Fld := ⟨.reelStat, 4, 1⟩
def Fld.reelStatPeerv : Fld := ⟨.reelStat, 5, 1⟩
def Fld.reelStatPeer : Fld := ⟨.reelStat, 6, 3⟩
def Fld.reelStatPslot : Fld := ⟨.reelStat, 9, 4⟩
def Fld.reelStatXdly : Fld := ⟨.reelStat, 16, 4⟩
def Fld.reelStatReason : Fld := ⟨.reelStat, 32, 16⟩
def Fld.reelErrFeccorr : Fld := ⟨.reelErr, 0, 32⟩
def Fld.reelErrNak : Fld := ⟨.reelErr, 32, 16⟩
def Fld.reelErrRetrain : Fld := ⟨.reelErr, 48, 8⟩
def Fld.reelWheelPart0 : Fld := ⟨.reelWheel, 0, 6⟩
def Fld.reelWheelOwn0 : Fld := ⟨.reelWheel, 6, 1⟩
def Fld.reelWheelPart1 : Fld := ⟨.reelWheel, 8, 6⟩
def Fld.reelWheelOwn1 : Fld := ⟨.reelWheel, 14, 1⟩
def Fld.reelWheelPart2 : Fld := ⟨.reelWheel, 16, 6⟩
def Fld.reelWheelOwn2 : Fld := ⟨.reelWheel, 22, 1⟩
def Fld.reelWheelPart3 : Fld := ⟨.reelWheel, 24, 6⟩
def Fld.reelWheelOwn3 : Fld := ⟨.reelWheel, 30, 1⟩
def Fld.reelWheelPart4 : Fld := ⟨.reelWheel, 32, 6⟩
def Fld.reelWheelOwn4 : Fld := ⟨.reelWheel, 38, 1⟩
def Fld.reelWheelPart5 : Fld := ⟨.reelWheel, 40, 6⟩
def Fld.reelWheelOwn5 : Fld := ⟨.reelWheel, 46, 1⟩
def Fld.reelWheelPart6 : Fld := ⟨.reelWheel, 48, 6⟩
def Fld.reelWheelOwn6 : Fld := ⟨.reelWheel, 54, 1⟩
def Fld.reelWheelPart7 : Fld := ⟨.reelWheel, 56, 6⟩
def Fld.reelWheelOwn7 : Fld := ⟨.reelWheel, 62, 1⟩
def Fld.reelSysMembers : Fld := ⟨.reelSys, 0, 8⟩
def Fld.reelSysLost : Fld := ⟨.reelSys, 8, 8⟩
def Fld.reelSysLead : Fld := ⟨.reelSys, 16, 3⟩
def Fld.reelSysFormed : Fld := ⟨.reelSys, 19, 1⟩
def Fld.reelSysSynced : Fld := ⟨.reelSys, 20, 1⟩
def Fld.reelSysTboff : Fld := ⟨.reelSys, 24, 8⟩
def Fld.reelSysReason : Fld := ⟨.reelSys, 32, 16⟩
def Fld.prtCtlState : Fld := ⟨.prtCtl, 0, 2⟩
def Fld.prtCtlIsot : Fld := ⟨.prtCtl, 2, 1⟩
def Fld.prtCtlPlat : Fld := ⟨.prtCtl, 3, 1⟩
def Fld.prtCtlSpan : Fld := ⟨.prtCtl, 8, 8⟩
def Fld.prtCtlLostspan : Fld := ⟨.prtCtl, 16, 8⟩
def Fld.prtCtlReason : Fld := ⟨.prtCtl, 32, 16⟩
def Fld.prtWinV : Fld := ⟨.prtWin, 0, 1⟩
def Fld.prtWinBase : Fld := ⟨.prtWin, 8, 22⟩
def Fld.prtWinUnits : Fld := ⟨.prtWin, 32, 15⟩
def Fld.prtCoreCores : Fld := ⟨.prtCore, 0, 64⟩
def Fld.prtIoDma : Fld := ⟨.prtIo, 0, 64⟩
def Fld.mbxDoorbellSlot : Fld := ⟨.mbxDoorbell, 0, 2⟩
def Fld.mbxStatusBusy : Fld := ⟨.mbxStatus, 0, 4⟩
def Fld.mbxStatusReply : Fld := ⟨.mbxStatus, 8, 4⟩
def Fld.mbxStatusNseq : Fld := ⟨.mbxStatus, 16, 8⟩
def Fld.mbxStatusReason : Fld := ⟨.mbxStatus, 32, 16⟩
def Fld.pwrStatusState : Fld := ⟨.pwrStatus, 0, 2⟩
def Fld.pwrStatusReq : Fld := ⟨.pwrStatus, 4, 4⟩
def Fld.pwrStatusStep : Fld := ⟨.pwrStatus, 8, 4⟩
def Fld.pwrStatusExiting : Fld := ⟨.pwrStatus, 12, 1⟩
def Fld.pwrStatusIsothold : Fld := ⟨.pwrStatus, 13, 1⟩
def Fld.pwrStatusHosthold : Fld := ⟨.pwrStatus, 14, 1⟩
def Fld.pwrReasonReason : Fld := ⟨.pwrReason, 0, 16⟩
def Fld.pwrReasonIndex : Fld := ⟨.pwrReason, 16, 8⟩
def Fld.pwrWakecfgEn : Fld := ⟨.pwrWakecfg, 0, 8⟩
def Fld.pwrWakecfgChatLimit : Fld := ⟨.pwrWakecfg, 8, 8⟩
def Fld.pwrWakesrcPend : Fld := ⟨.pwrWakesrc, 0, 8⟩
def Fld.pwrWakesrcStuck : Fld := ⟨.pwrWakesrc, 8, 2⟩
def Fld.pwrWakesrcMasked : Fld := ⟨.pwrWakesrc, 10, 2⟩
def Fld.pwrWakesrcRmask : Fld := ⟨.pwrWakesrc, 12, 10⟩
def Fld.pwrWakesrcPmask : Fld := ⟨.pwrWakesrc, 22, 20⟩
def Fld.pwrWakesrcPort : Fld := ⟨.pwrWakesrc, 42, 5⟩
def Fld.pwrThermThrot : Fld := ⟨.pwrTherm, 0, 8⟩
def Fld.pwrThermHyst : Fld := ⟨.pwrTherm, 8, 8⟩
def Fld.pwrThermTrip : Fld := ⟨.pwrTherm, 16, 8⟩
def Fld.pwrThermHottest : Fld := ⟨.pwrTherm, 24, 8⟩
def Fld.pwrThermHotblk : Fld := ⟨.pwrTherm, 32, 4⟩
def Fld.pwrThermHot : Fld := ⟨.pwrTherm, 36, 1⟩
def Fld.pwrThermMemhot : Fld := ⟨.pwrTherm, 37, 1⟩
def Fld.pwrCorectlDeepest : Fld := ⟨.pwrCorectl, 0, 2⟩
def Fld.pwrCorectlState : Fld := ⟨.pwrCorectl, 4, 2⟩
def Fld.pwrCorectlFreq : Fld := ⟨.pwrCorectl, 8, 6⟩
def Fld.pwrCorectlFreqreq : Fld := ⟨.pwrCorectl, 16, 6⟩
def Fld.pwrSpillEn : Fld := ⟨.pwrSpill, 0, 1⟩
def Fld.pwrSpillBase : Fld := ⟨.pwrSpill, 20, 32⟩
def Fld.pwrDiectlDeepest : Fld := ⟨.pwrDiectl, 0, 2⟩
def Fld.pwrDiectlState : Fld := ⟨.pwrDiectl, 4, 2⟩
def Fld.pwrDiectlPstate : Fld := ⟨.pwrDiectl, 8, 3⟩
def Fld.pwrDiectlPreq : Fld := ⟨.pwrDiectl, 12, 3⟩
def Fld.pwrDiectlLcap : Fld := ⟨.pwrDiectl, 16, 3⟩
def Fld.pwrDiectlTcap : Fld := ⟨.pwrDiectl, 20, 3⟩
def Fld.pwrDiectlTemp : Fld := ⟨.pwrDiectl, 24, 8⟩
def Fld.pwrDiectlVcode : Fld := ⟨.pwrDiectl, 32, 8⟩
def Fld.epWinbaseBase : Fld := ⟨.epWinbase, 19, 33⟩
def Fld.epWinerrReason : Fld := ⟨.epWinerr, 0, 16⟩
def Fld.epWinerrCount : Fld := ⟨.epWinerr, 16, 16⟩
def Fld.epWinerrInbar2 : Fld := ⟨.epWinerr, 32, 1⟩
def Fld.epRingctlEn : Fld := ⟨.epRingctl, 0, 1⟩
def Fld.epRingctlCk : Fld := ⟨.epRingctl, 8, 5⟩
def Fld.epRingctlRk : Fld := ⟨.epRingctl, 16, 5⟩
def Fld.epRingctlRvec : Fld := ⟨.epRingctl, 24, 6⟩
def Fld.epRingctlFvec : Fld := ⟨.epRingctl, 32, 6⟩
def Fld.epCrbaseBase : Fld := ⟨.epCrbase, 12, 52⟩
def Fld.epRrbaseBase : Fld := ⟨.epRrbase, 12, 52⟩
def Fld.epCrpiIndex : Fld := ⟨.epCrpi, 0, 17⟩
def Fld.epCrciIndex : Fld := ⟨.epCrci, 0, 17⟩
def Fld.epRrpiIndex : Fld := ⟨.epRrpi, 0, 17⟩
def Fld.epRrciIndex : Fld := ⟨.epRrci, 0, 17⟩
def Fld.epRingstatState : Fld := ⟨.epRingstat, 0, 2⟩
def Fld.epRingstatTags : Fld := ⟨.epRingstat, 8, 4⟩
def Fld.epRingstatReason : Fld := ⟨.epRingstat, 16, 16⟩
def Fld.epStatusBusy : Fld := ⟨.epStatus, 0, 6⟩
def Fld.epStatusQuar : Fld := ⟨.epStatus, 6, 6⟩
def Fld.epStatusLate : Fld := ⟨.epStatus, 16, 16⟩
def Fld.epReasonReason : Fld := ⟨.epReason, 0, 16⟩
def Fld.epReasonRing : Fld := ⟨.epReason, 16, 2⟩
def Fld.epIstatReply : Fld := ⟨.epIstat, 0, 4⟩
def Fld.epIstatFault : Fld := ⟨.epIstat, 8, 4⟩
def Fld.epIstatWinerr : Fld := ⟨.epIstat, 16, 1⟩
def Fld.epIstatQtag : Fld := ⟨.epIstat, 17, 1⟩
def Fld.epIenEn : Fld := ⟨.epIen, 0, 18⟩
def Fld.epIenEvec : Fld := ⟨.epIen, 32, 6⟩
def Fld.dmaEngcfgHoldmax : Fld := ⟨.dmaEngcfg, 0, 8⟩
def Fld.dmaEngcfgCur : Fld := ⟨.dmaEngcfg, 8, 5⟩
def Fld.dmaEngcfgActive : Fld := ⟨.dmaEngcfg, 13, 1⟩
def Fld.dmaEngcfgRdout : Fld := ⟨.dmaEngcfg, 16, 7⟩
def Fld.dmaEngcfgWrout : Fld := ⟨.dmaEngcfg, 24, 7⟩
def Fld.dmaChctlEn : Fld := ⟨.dmaChctl, 0, 1⟩
def Fld.dmaChctlK : Fld := ⟨.dmaChctl, 8, 5⟩
def Fld.dmaChringAddr : Fld := ⟨.dmaChring, 6, 46⟩
def Fld.dmaChtrigAddr : Fld := ⟨.dmaChtrig, 6, 46⟩
def Fld.dmaChcplAddr : Fld := ⟨.dmaChcpl, 6, 46⟩
def Fld.dmaChpiPi : Fld := ⟨.dmaChpi, 0, 32⟩
def Fld.dmaChstatCi : Fld := ⟨.dmaChstat, 0, 32⟩
def Fld.dmaChstatState : Fld := ⟨.dmaChstat, 32, 3⟩
def Fld.dmaChstatBarwait : Fld := ⟨.dmaChstat, 35, 1⟩
def Fld.dmaChstatReason : Fld := ⟨.dmaChstat, 48, 16⟩
def Fld.dmaChpivalPi : Fld := ⟨.dmaChpival, 0, 32⟩
def Fld.dmaChpivalResume : Fld := ⟨.dmaChpival, 32, 32⟩
def Fld.cdSmpringEn : Fld := ⟨.cdSmpring, 0, 1⟩
def Fld.cdSmpringK : Fld := ⟨.cdSmpring, 8, 5⟩
def Fld.cdSmpringBase : Fld := ⟨.cdSmpring, 16, 36⟩
def Fld.cdSmphdrHdr : Fld := ⟨.cdSmphdr, 7, 45⟩
def Fld.cdSmpstatReason : Fld := ⟨.cdSmpstat, 0, 16⟩
def Fld.cdSmpstatBuffered : Fld := ⟨.cdSmpstat, 16, 7⟩
def Fld.cdSmpstatLost : Fld := ⟨.cdSmpstat, 24, 16⟩
def Fld.cdSmpstatDrop : Fld := ⟨.cdSmpstat, 40, 16⟩
def Fld.pmuHsSelEvent : Fld := ⟨.pmuHsSel, 0, 8⟩
def Fld.pmuHsSelRun : Fld := ⟨.pmuHsSel, 8, 1⟩
def Fld.pmuHsSelPfilt : Fld := ⟨.pmuHsSel, 9, 1⟩
def Fld.pmuHsSelPart : Fld := ⟨.pmuHsSel, 10, 6⟩
def Fld.pmuHsSelThresh : Fld := ⟨.pmuHsSel, 16, 12⟩
def Fld.pmuHsSelTmode : Fld := ⟨.pmuHsSel, 28, 2⟩
def Fld.pmuHsSelInt : Fld := ⟨.pmuHsSel, 30, 1⟩
def Fld.pmuHsSelOf : Fld := ⟨.pmuHsSel, 63, 1⟩
def Fld.pmuMcSelEvent : Fld := ⟨.pmuMcSel, 0, 8⟩
def Fld.pmuMcSelRun : Fld := ⟨.pmuMcSel, 8, 1⟩
def Fld.pmuMcSelPfilt : Fld := ⟨.pmuMcSel, 9, 1⟩
def Fld.pmuMcSelPart : Fld := ⟨.pmuMcSel, 10, 6⟩
def Fld.pmuMcSelThresh : Fld := ⟨.pmuMcSel, 16, 12⟩
def Fld.pmuMcSelTmode : Fld := ⟨.pmuMcSel, 28, 2⟩
def Fld.pmuMcSelInt : Fld := ⟨.pmuMcSel, 30, 1⟩
def Fld.pmuMcSelOf : Fld := ⟨.pmuMcSel, 63, 1⟩
def Fld.pmuDmaSelEvent : Fld := ⟨.pmuDmaSel, 0, 8⟩
def Fld.pmuDmaSelRun : Fld := ⟨.pmuDmaSel, 8, 1⟩
def Fld.pmuDmaSelPfilt : Fld := ⟨.pmuDmaSel, 9, 1⟩
def Fld.pmuDmaSelPart : Fld := ⟨.pmuDmaSel, 10, 6⟩
def Fld.pmuDmaSelThresh : Fld := ⟨.pmuDmaSel, 16, 12⟩
def Fld.pmuDmaSelTmode : Fld := ⟨.pmuDmaSel, 28, 2⟩
def Fld.pmuDmaSelInt : Fld := ⟨.pmuDmaSel, 30, 1⟩
def Fld.pmuDmaSelOf : Fld := ⟨.pmuDmaSel, 63, 1⟩
def Fld.pmuReelSelEvent : Fld := ⟨.pmuReelSel, 0, 8⟩
def Fld.pmuReelSelRun : Fld := ⟨.pmuReelSel, 8, 1⟩
def Fld.pmuReelSelPfilt : Fld := ⟨.pmuReelSel, 9, 1⟩
def Fld.pmuReelSelPart : Fld := ⟨.pmuReelSel, 10, 6⟩
def Fld.pmuReelSelThresh : Fld := ⟨.pmuReelSel, 16, 12⟩
def Fld.pmuReelSelTmode : Fld := ⟨.pmuReelSel, 28, 2⟩
def Fld.pmuReelSelInt : Fld := ⟨.pmuReelSel, 30, 1⟩
def Fld.pmuReelSelOf : Fld := ⟨.pmuReelSel, 63, 1⟩
def Fld.pmuRptSelEvent : Fld := ⟨.pmuRptSel, 0, 8⟩
def Fld.pmuRptSelRun : Fld := ⟨.pmuRptSel, 8, 1⟩
def Fld.pmuRptSelPfilt : Fld := ⟨.pmuRptSel, 9, 1⟩
def Fld.pmuRptSelPart : Fld := ⟨.pmuRptSel, 10, 6⟩
def Fld.pmuRptSelThresh : Fld := ⟨.pmuRptSel, 16, 12⟩
def Fld.pmuRptSelTmode : Fld := ⟨.pmuRptSel, 28, 2⟩
def Fld.pmuRptSelInt : Fld := ⟨.pmuRptSel, 30, 1⟩
def Fld.pmuRptSelOf : Fld := ⟨.pmuRptSel, 63, 1⟩
def Fld.pmuHsCtrCount : Fld := ⟨.pmuHsCtr, 0, 48⟩
def Fld.pmuMcCtrCount : Fld := ⟨.pmuMcCtr, 0, 48⟩
def Fld.pmuDmaCtrCount : Fld := ⟨.pmuDmaCtr, 0, 48⟩
def Fld.pmuReelCtrCount : Fld := ⟨.pmuReelCtr, 0, 48⟩
def Fld.pmuRptCtrCount : Fld := ⟨.pmuRptCtr, 0, 48⟩
def Fld.bwwCfgRun : Fld := ⟨.bwwCfg, 0, 1⟩
def Fld.bwwCfgFilter : Fld := ⟨.bwwCfg, 1, 1⟩
def Fld.bwwCfgKind : Fld := ⟨.bwwCfg, 2, 3⟩
def Fld.bwwCfgIndex : Fld := ⟨.bwwCfg, 5, 5⟩
def Fld.bwwCfgPart : Fld := ⟨.bwwCfg, 10, 6⟩
def Fld.bwwCfgMbx : Fld := ⟨.bwwCfg, 16, 1⟩
def Fld.bwwCfgInterval : Fld := ⟨.bwwCfg, 24, 40⟩
def Fld.bwwABytes : Fld := ⟨.bwwA, 0, 64⟩
def Fld.bwwBBytes : Fld := ⟨.bwwB, 0, 64⟩
def Fld.bwwSeqSeq : Fld := ⟨.bwwSeq, 0, 32⟩
def Fld.glbBootstatStage : Fld := ⟨.glbBootstat, 0, 8⟩
def Fld.glbBootstatSrchw : Fld := ⟨.glbBootstat, 8, 1⟩
def Fld.glbBootstatCopyb : Fld := ⟨.glbBootstat, 9, 1⟩
def Fld.glbBootstatReason : Fld := ⟨.glbBootstat, 16, 16⟩
def Fld.glbBootimgGo : Fld := ⟨.glbBootimg, 0, 1⟩
def Fld.glbBootimgOffset : Fld := ⟨.glbBootimg, 3, 20⟩
def Fld.glbBootimgLength : Fld := ⟨.glbBootimg, 24, 24⟩
def Fld.glbResetPkg : Fld := ⟨.glbReset, 0, 1⟩
def Fld.glbResetKiln : Fld := ⟨.glbReset, 1, 1⟩
def Fld.glbResetKey : Fld := ⟨.glbReset, 8, 8⟩
def Fld.glbErrstatPend : Fld := ⟨.glbErrstat, 0, 2⟩
def Fld.glbErrstatFatal : Fld := ⟨.glbErrstat, 2, 1⟩
def Fld.glbErrstatDropped : Fld := ⟨.glbErrstat, 16, 16⟩
def Fld.glbErrstatNextseq : Fld := ⟨.glbErrstat, 32, 32⟩
def Fld.rptCtlEn : Fld := ⟨.rptCtl, 0, 1⟩
def Fld.rptCtlMaxgen : Fld := ⟨.rptCtl, 1, 3⟩
def Fld.rptCtlCto : Fld := ⟨.rptCtl, 4, 4⟩
def Fld.rptCtlPerst : Fld := ⟨.rptCtl, 8, 1⟩
def Fld.rptCtlAspml1 : Fld := ⟨.rptCtl, 9, 1⟩
def Fld.rptCtlBmblk : Fld := ⟨.rptCtl, 16, 1⟩
def Fld.rptStatState : Fld := ⟨.rptStat, 0, 3⟩
def Fld.rptStatGen : Fld := ⟨.rptStat, 3, 3⟩
def Fld.rptStatWidth : Fld := ⟨.rptStat, 6, 5⟩
def Fld.rptStatFlit : Fld := ⟨.rptStat, 11, 1⟩
def Fld.rptStatReason : Fld := ⟨.rptStat, 32, 16⟩
def Fld.glbStrapsPkgId : Fld := ⟨.glbStraps, 0, 3⟩
def Fld.glbStrapsBootPkg : Fld := ⟨.glbStraps, 3, 1⟩
def Fld.glbStrapsBootSrc : Fld := ⟨.glbStraps, 4, 1⟩
def Fld.glbStrapsUnstable : Fld := ⟨.glbStraps, 8, 5⟩
def Fld.irtMsiData : Fld := ⟨.irtMsi, 0, 32⟩
def Fld.prtIoRpt : Fld := ⟨.prtIo, 0, 20⟩

/-- The offset of a register in control space, or its BAR0 key. -/
def RegKind.addr (k : RegKind) (i j : Nat) : Nat :=
  match k.place with
  | (b, s1, _, s2, _) => b + i * s1 + j * s2

/-- Whether an index pair names a register that exists. -/
def RegKind.has (k : RegKind) (i j : Nat) : Bool :=
  match k.place with
  | (_, _, n1, _, n2) => decide (i < n1) && decide (j < n2)

/-- The index of a quotient when a stride is present. -/
def strideIdx (off s : Nat) : Nat := if s = 0 then 0 else off / s

/-- The index pair of a kind whose register holds an offset exactly. -/
def RegKind.idxAt (k : RegKind) (a : Nat) : Option (Nat × Nat) :=
  match k.place with
  | (b, s1, n1, s2, n2) =>
    if a < b then none
    else
      let i := strideIdx (a - b) s1
      let j := strideIdx (a - b - i * s1) s2
      if i < n1 ∧ j < n2 ∧ b + i * s1 + j * s2 = a then some (i, j) else none

/-- R7: the register at an offset of control space, or at a BAR0 key. -/
def regAt (a : Nat) : Option (RegKind × Nat × Nat) :=
  RegKind.all.findSome? (fun k => (k.idxAt a).map (fun p => (k, p.1, p.2)))

/-- A word built from the reset values of fields. -/
def fieldsReset (fs : List FieldD) : W64 :=
  fs.foldl (fun w f => setBits w f.lo f.len f.rst) 0

/-- R11, R70, R178: the reset value of a register; LEVEL of routes 256 to 335 is fixed at 1 (DEDUCED, log 13); partition 0 starts with every MSC way. -/
def RegKind.resetVal (k : RegKind) (i j : Nat) : W64 :=
  match k with
  | .hsMscway => if j = 0 then 0xFFFF else 0
  | .irtRoute => if 256 ≤ i ∧ i < 336 then 2 else 0
  | k => fieldsReset k.fields

/-- The number of a register kind in the table of the registers' values. -/
def RegKind.num (k : RegKind) : Nat := k.ctorIdx

/-- The stored value of a register. -/
def State.rget (s : State) (k : RegKind) (i : Nat := 0) (j : Nat := 0) : W64 :=
  Tab.get (k.resetVal i j) (Tab.get [] (Tab.get [] s.cs k.num) i) j

/-- A new stored value for a register. -/
def State.rput (s : State) (k : RegKind) (i j : Nat) (v : W64) : State :=
  let t := Tab.get [] s.cs k.num
  { s with cs := Tab.put [] s.cs k.num (Tab.put [] t i (Tab.put (k.resetVal i j) (Tab.get [] t i) j v)) }

/-- The registers of a kind that differ from their reset values: first and second index, value. -/
def State.regsOf (s : State) (k : RegKind) : List (Nat × Nat × W64) :=
  (Tab.get [] s.cs k.num).flatMap (fun r => r.2.map (fun e => (r.1, e.1, e.2)))

/-- The value of a field. -/
def State.fget (s : State) (f : Fld) (i : Nat := 0) (j : Nat := 0) : Nat :=
  bits (s.rget f.kind i j) f.lo f.len

/-- A new value for a field; a value that does not fit is cut to the field. -/
def State.fput (s : State) (f : Fld) (i j v : Nat) : State :=
  s.rput f.kind i j (setBits (s.rget f.kind i j) f.lo f.len v)

/-- A counting field that saturates at its highest value (the counters' own words: saturates at 0xFFFF). -/
def State.fbump (s : State) (f : Fld) (i j : Nat) (n : Nat := 1) : State :=
  s.fput f i j (min (s.fget f i j + n) (2 ^ f.len - 1))

/-- R10: the effect of a write of bits on one field. -/
def FieldD.write (f : FieldD) (old new : W64) : W64 :=
  match f.acc with
  | .rw => setBits old f.lo f.len (bits new f.lo f.len)
  | .ro => old
  | .wo => old
  | .w1c => setBits old f.lo f.len (bits (old &&& ~~~ new) f.lo f.len)
  | .w1s => setBits old f.lo f.len (bits (old ||| new) f.lo f.len)

/-- R10: a write of a whole register by its fields' access codes; reserved bits stay 0. -/
def RegKind.writeVal (k : RegKind) (old new : W64) : W64 :=
  k.fields.foldl (fun w f => f.write w new) old

/-- R10: what a read of a stored register value shows: write-only fields and reserved bits read 0. -/
def RegKind.readVal (k : RegKind) (v : W64) : W64 :=
  k.fields.foldl (fun w f =>
    match f.acc with
    | .wo => w
    | .rw => setBits w f.lo f.len (bits v f.lo f.len)
    | .ro => setBits w f.lo f.len (bits v f.lo f.len)
    | .w1c => setBits w f.lo f.len (bits v f.lo f.len)
    | .w1s => setBits w f.lo f.len (bits v f.lo f.len)) 0

/-- R10: a register write whose fields have no effect of their own. -/
def State.rwrite (s : State) (k : RegKind) (i j : Nat) (v : W64) : State :=
  s.rput k i j (k.writeVal (s.rget k i j) v)

/-- R11: the registers after a reset of one domain: each of its registers takes its reset value. -/
def resetDomain (cs : Tab (Tab (Tab W64))) (d : Domain) : Tab (Tab (Tab W64)) :=
  RegKind.all.foldl (fun t k => if k.domain = d then Tab.del t k.num else t) cs

end Sys2Proof.Machine
end

