-- ==== Sys2Proof/Machine/Ops.lean ====
section
/-! DEFINITION. The named operations over the state: cores, contexts and clocks, numbering, ownership, context state
changes and wakes, interrupts pending, taking a trap and returning from one. -/

namespace Sys2Proof.Machine

/-- What a command answers. -/
abbrev Out := Host.Outcome State Fault Refusal

/-- A core (R1). -/
def State.core (s : State) (c : Nat) : Core := Tab.get {} s.cores c

/-- A core replaced. -/
def State.setCore (s : State) (c : Nat) (k : Core) : State := { s with cores := Tab.put {} s.cores c k }

/-- A core changed. -/
def State.modCore (s : State) (c : Nat) (f : Core → Core) : State := s.setCore c (f (s.core c))

/-- A context of a core: in its issue slot or in its record (R46). -/
def Core.ctx (k : Core) (i : Nat) : Ctx := Tab.get {} k.ctxs i

/-- A context replaced. -/
def Core.setCtx (k : Core) (i : Nat) (x : Ctx) : Core := { k with ctxs := Tab.put {} k.ctxs i x }

/-- A context changed. -/
def Core.modCtx (k : Core) (i : Nat) (f : Ctx → Ctx) : Core := k.setCtx i (f (k.ctx i))

/-- A context of a core. -/
def State.ctx (s : State) (c i : Nat) : Ctx := (s.core c).ctx i

/-- A context changed. -/
def State.modCtx (s : State) (c i : Nat) (f : Ctx → Ctx) : State := s.modCore c (fun k => k.modCtx i f)

/-- An integer register; x0 reads 0 (R46). -/
def Ctx.getX (x : Ctx) (r : Nat) : W64 := if r = 0 then 0 else Tab.get 0 x.x r

/-- An integer register written; a write of x0 is discarded. -/
def Ctx.setX (x : Ctx) (r : Nat) (v : W64) : Ctx := if r = 0 then x else { x with x := Tab.put 0 x.x r v }

/-- An FP register. -/
def Ctx.getF (x : Ctx) (r : Nat) : W64 := Tab.get 0 x.f r

/-- The F-cycle in progress: 2.0 GHz against the tick of 3.2 GHz. -/
def State.fcyc (s : State) : Nat := s.now * 5 / 8

/-- The AON cycle in progress: 25 MHz. -/
def State.aon (s : State) : Nat := s.now / 128

/-- Ticks in a microsecond. -/
def usTicks : Nat := 3200

/-- R276, PWR_CORECTL.FREQ: a core's clock in units of 100 MHz. -/
def State.freq (s : State) (c : Nat) : Nat := s.fget .pwrCorectlFreq c

/-- The core cycle in progress of a core (R18); it stands while the clock is stopped (R258). -/
def State.cyc (s : State) (c : Nat) : Nat :=
  let k := s.core c
  k.cycBase + (if k.clockOn then (s.now - k.cycRef) * s.freq c / 32 else 0)

/-- R358: this package's ID. -/
def State.pkg (s : State) : Nat := s.fget .glbStrapsPkgId

/-- R2: the system context number of a context of this package. -/
def State.hartid (s : State) (c i : Nat) : Nat := s.pkg * 2 ^ 18 + c * 1024 + i

/-- R1: the die of a core. -/
def dieOf (c : Nat) : Nat := c / 20

/-- R2: package, core and slot of a system context number; none where the number is never assigned. -/
def hartParts (h : Nat) : Option (Nat × Nat × Nat) :=
  let ctx := h % 2 ^ 18
  if ctx < 245760 ∧ h / 2 ^ 18 < 8 then some (h / 2 ^ 18, ctx / 1024, ctx % 1024) else none

/-- A bit of a map spread over registers of 64 bits. -/
def State.mapBit (s : State) (k : RegKind) (i n : Nat) : Bool := bit (s.rget k i (n / 64)) (n % 64)

/-- A bit of a map spread over registers of 64 bits, written. -/
def State.setMapBit (s : State) (k : RegKind) (i n : Nat) (b : Bool) : State :=
  s.rput k i (n / 64) (setBit (s.rget k i (n / 64)) (n % 64) b)

/-- Whether a partition of this package holds a core (R226, PRT_COREp_i). -/
def State.partHasCore (s : State) (p c : Nat) : Bool := s.mapBit .prtCore p c

/-- The partition that owns a core. -/
def State.corePart (s : State) (c : Nat) : Option Nat := (List.range 64).find? (fun p => s.partHasCore p c)

/-- R3: whether a partition holds PLATFORM privilege. -/
def State.plat (s : State) (p : Nat) : Bool := decide (s.fget .prtCtlPlat p = 1)

/-- Whether a partition runs at ISO-T. -/
def State.isot (s : State) (p : Nat) : Bool := decide (s.fget .prtCtlIsot p = 1)

/-- PRT_CTL.STATE: 0 FREE, 1 DEFINED, 2 ENABLED, 3 DRAINING. -/
def State.partState (s : State) (p : Nat) : Nat := s.fget .prtCtlState p

/-- A partition's internal state. -/
def State.part (s : State) (p : Nat) : Part := Tab.get {} s.parts p

/-- A partition's internal state changed. -/
def State.modPart (s : State) (p : Nat) (f : Part → Part) : State :=
  { s with parts := Tab.put {} s.parts p (f (s.part p)) }

/-- A die. -/
def State.die (s : State) (d : Nat) : Die := Tab.get {} s.dies d

/-- A die changed. -/
def State.modDie (s : State) (d : Nat) (f : Die → Die) : State :=
  { s with dies := Tab.put {} s.dies d (f (s.die d)) }

/-- SLP_DSTAT.STATE: 0 not brought up, 1 active, 2 fenced, 3 offline. -/
def State.dieUp (s : State) (d : Nat) : Bool := decide (s.fget .slpDstatState d = 1)

/-- R166, R252: a die is out of service: fenced or offline. -/
def State.dieOut (s : State) (d : Nat) : Bool := decide (2 ≤ s.fget .slpDstatState d)

/-- R164: a slip group is out of service: in its repair window or retired. -/
def State.slipOut (s : State) (d g : Nat) : Bool := decide (s.fget .slpGstatState d g ≠ 0)

/-- R164: F-cycles a message that carries a line loses on a line path of four groups (first group `g`) with one out of service. -/
def State.lineDelay (s : State) (d g : Nat) (line : Bool) : Nat :=
  if line && (List.range 4).any (fun i => s.slipOut d (g + i)) then 2 else 0

/-- Whether a core can execute: its clock runs in CS0 and no reset is in progress. -/
def Core.runs (k : Core) : Bool := k.clockOn && decide (k.cst = .cs0) && !k.rst

/-- The issue slot that holds a context. -/
def Core.slotOf (k : Core) (i : Nat) : Option Nat :=
  (List.range 8).find? (fun n => decide (k.slots.getD n none = some i))

/-- R38: a held context never enters the ready queue; R40: LR completions enter at the head, all others at the tail. -/
def Core.enqueue (k : Core) (i : Nat) (head : Bool) : Core :=
  if (k.ctx i).hold || k.readyQ.contains i then k
  else { k with readyQ := if head then i :: k.readyQ else k.readyQ ++ [i] }

/-- R39: one state change per core cycle: the change takes the next cycle that is free. -/
def Core.noteChange (k : Core) (t : Nat) : Core := { k with chg := max k.chg t + 1 }

/-- R51: leaving a parked state removes the context's heap entries; R50: and its watch. -/
def Core.unwatch (k : Core) (i : Nat) : Core :=
  { k with
    heap := k.heap.filter (fun e => e.ctx != i)
    watch := (k.watch.map (fun w => { w with ctxs := w.ctxs.filter (· != i) })).filter (fun w => !w.ctxs.isEmpty) }

/-- R39: a context becomes READY. -/
def Core.makeReady (k : Core) (t i : Nat) (head : Bool) : Core :=
  let k := (k.unwatch i).modCtx i (fun x => { x with st := .ready })
  (k.enqueue i head).noteChange t

/-- R48 and R39: a wake at its target: WAIT, SLEEP and IDLE become READY; ACTIVE, READY and MISS get the token; EMPTY
discards. -/
def Core.wake (k : Core) (t i : Nat) : Core :=
  match (k.ctx i).st with
  | .wait => k.makeReady t i false
  | .sleep => k.makeReady t i false
  | .idle => k.makeReady t i false
  | .active => k.modCtx i (fun x => { x with wtok := true })
  | .ready => k.modCtx i (fun x => { x with wtok := true })
  | .miss => k.modCtx i (fun x => { x with wtok := true })
  | .empty => k

/-- A wake event of R50 at one waiter: a context that has not reached WAIT gets the token. -/
def Core.wakeWaiter (t : Nat) (k : Core) (i : Nat) : Core :=
  match (k.ctx i).st with
  | .wait => k.makeReady t i false
  | .active => k.modCtx i (fun x => { x with wtok := true })
  | .miss => k.modCtx i (fun x => { x with wtok := true })
  | .ready => k.modCtx i (fun x => { x with wtok := true })
  | .sleep => k
  | .idle => k
  | .empty => k

/-- R50: a wake event for a line: its waiters in list order, and the entry is freed. -/
def Core.wakeLine (k : Core) (t line : Nat) : Core :=
  match k.watch.find? (fun w => w.line == line) with
  | none => k
  | some w => w.ctxs.foldl (Core.wakeWaiter t) { k with watch := k.watch.filter (fun v => v.line != line) }

/-- R38, R48: a context becomes EMPTY: nothing of its record, deadlines, watch, reservation or queue place remains, and it
owns no counter (R320). Its store-buffer entries still drain (R339). -/
def Core.empty (k : Core) (i : Nat) : Core :=
  let k := k.unwatch i
  { k with
    slots := k.slots.map (fun o => if o = some i then none else o)
    readyQ := k.readyQ.filter (· != i)
    resv := k.resv.filter (fun r => r.ctx != i)
    hpm := k.hpm.map (fun e => (e.1, if e.2.owner = i then { e.2 with owner := 1024 } else e.2))
    smpDue := k.smpDue ++ (k.ctx i).smp.map (fun n => (n, none))
    ctxs := Tab.del k.ctxs i }

/-- R67: the highest-priority pending and enabled vector of a level. -/
def Ctx.topVector (x : Ctx) (mLevel : Bool) : Option Nat :=
  let v := x.ipend &&& x.ien
  (if mLevel then List.range 16 else (List.range 48).map (· + 16)).find? (fun n => bit v n)

/-- R317, R320: whether an overflow of the core's counters stands against a context: LCOFIP of the context that owns a
counter whose OF and INT are set. -/
def Core.lcofip (k : Core) (i : Nat) : Bool :=
  k.hpm.any (fun e => bit e.2.sel 63 && bit e.2.sel 31 && decide (e.2.owner = i))

/-- mip of a context (R56, R66, R67). -/
def Core.mip (k : Core) (i : Nat) : Nat :=
  let x := k.ctx i
  b2n x.ssip * 2 + b2n x.stip * 2 ^ 5 + b2n (decide (k.mtip = some i)) * 2 ^ 7 +
    b2n (x.topVector false).isSome * 2 ^ 9 + b2n (x.topVector true).isSome * 2 ^ 11 + b2n (k.lcofip i) * 2 ^ 13

/-- R52: an interrupt is pending and enabled in mie, whatever the global enables. -/
def Core.intPend (k : Core) (i : Nat) : Bool := (k.mip i) &&& (k.ctx i).mie.toNat != 0

/-- R39: WAIT, SLEEP and IDLE become READY when an interrupt is pending and enabled in mie. -/
def Core.intWake (k : Core) (t i : Nat) : Core :=
  if k.intPend i then
    match (k.ctx i).st with
    | .wait => k.makeReady t i false
    | .sleep => k.makeReady t i false
    | .idle => k.makeReady t i false
    | .active => k
    | .ready => k
    | .miss => k
    | .empty => k
  else k

/-- Fetch restarts at an address with IF1 in a cycle (R21, R22); everything fetched is discarded. -/
def Ctx.restart (x : Ctx) (pc : W64) (at_ : Nat) : Ctx :=
  { x with pc := pc, fbuf := [], fnext := pc.toNat, fmin := at_, fstop := false, ffault := none
           tmiss := none, wfault := none, facc := none, heldHint := false }

/-- The number of a privilege mode (R47 PRV). -/
def Prv.code : Prv → Nat
  | .u => 0
  | .s => 1
  | .m => 3

/-- The privilege mode of a code; the reserved code 2 is taken as U (no write leaves it). -/
def Prv.ofCode (n : Nat) : Prv := if n = 3 then .m else if n = 1 then .s else .u

/-- The handler address of a trap vector: vectored interrupts add four times the cause. -/
def trapTarget (tvec : W64) (isInt : Bool) (cause : Nat) : W64 :=
  let base := setBits tvec 0 2 0
  if isInt && bit tvec 0 then base + BitVec.ofNat 64 (4 * cause) else base

/-- Whether a trap goes to S-mode: it is delegated and the hart is not in M-mode. -/
def Ctx.delegated (x : Ctx) (isInt : Bool) (cause : Nat) : Bool :=
  decide (x.prv ≠ .m) && bit (if isInt then x.mideleg else x.medeleg) cause

/-- The trap's compact cause register (R47). -/
def causeByte (isInt : Bool) (cause : Nat) : BitVec 8 := BitVec.ofNat 8 (cause % 32 + b2n isInt * 128)

/-- R28, R59 and the privileged architecture (R56): taking a trap. The saved pc is the context's pc; the cause, the value, the status
stack, sbuserr (causes 1, 5, 7 and 26) and the mode change; fetch of the handler enters IF1 in cycle `at_`. -/
def Ctx.trap (x : Ctx) (isInt : Bool) (tr : Trap) (at_ : Nat) : Ctx :=
  let x := if !isInt && (tr.cause == 1 || tr.cause == 5 || tr.cause == 7 || tr.cause == 26)
    then { x with sbuserr := BitVec.ofNat 16 tr.reason, sbd := tr.dfr } else x
  let ms := x.mstatus
  if x.delegated isInt tr.cause then
    let ms := setBits (setBits (setBits ms 5 1 (bits ms 1 1)) 1 1 0) 8 1 (if x.prv = .s then 1 else 0)
    { x.restart (trapTarget x.stvec isInt tr.cause) at_ with
      scause := causeByte isInt tr.cause, sepc := x.pc, stval := tr.tval, mstatus := ms, prv := .s }
  else
    let ms := setBits (setBits (setBits ms 7 1 (bits ms 3 1)) 3 1 0) 11 2 x.prv.code
    { x.restart (trapTarget x.mtvec isInt tr.cause) at_ with
      mcause := causeByte isInt tr.cause, mepc := x.pc, mtval := tr.tval, mstatus := ms, prv := .m }

/-- R53: a trap taken by the owning context clears its reservation. -/
def Core.clearResv (k : Core) (i : Nat) : Core := { k with resv := k.resv.filter (fun r => r.ctx != i) }

/-- A trap taken by a context, its handler's fetch entering IF1 in cycle `at_`. -/
def Core.takeTrap (k : Core) (i : Nat) (isInt : Bool) (tr : Trap) (at_ : Nat) : Core :=
  (k.clearResv i).modCtx i (fun x => x.trap isInt tr at_)

/-- Return from an M-mode trap (R22): the status stack is popped and fetch restarts at mepc in cycle `at_`. -/
def Ctx.mret (x : Ctx) (at_ : Nat) : Ctx :=
  let ms := x.mstatus
  let dest := Prv.ofCode (bits ms 11 2)
  let ms := setBits (setBits (setBits ms 3 1 (bits ms 7 1)) 7 1 1) 11 2 0
  let ms := if dest = .m then ms else setBits ms 17 1 0
  { x.restart x.mepc at_ with mstatus := ms, prv := dest }

/-- Return from an S-mode trap (R22). -/
def Ctx.sret (x : Ctx) (at_ : Nat) : Ctx :=
  let ms := x.mstatus
  let dest := if bit ms 8 then Prv.s else Prv.u
  let ms := setBits (setBits (setBits (setBits ms 1 1 (bits ms 5 1)) 5 1 1) 8 1 0) 17 1 0
  { x.restart x.sepc at_ with mstatus := ms, prv := dest }

/-- The interrupt a context takes at a boundary: the highest-priority one that is pending and enabled, and enabled globally for the mode
it goes to. -/
def Core.pickInt (k : Core) (i : Nat) : Option Nat :=
  let x := k.ctx i
  let v := k.mip i &&& x.mie.toNat
  [11, 7, 9, 1, 5, 13].find? (fun n =>
    decide (v / 2 ^ n % 2 = 1) &&
      (if bit x.mideleg n then decide (x.prv = .u) || (decide (x.prv = .s) && bit x.mstatus 1)
       else decide (x.prv ≠ .m) || bit x.mstatus 3))

/-- R318: an event of the core's current cycle, for its counters: code, context slot and value. -/
def Core.ev (k : Core) (code i n : Nat) : Core := { k with evs := k.evs ++ [(code, i, n)] }

/-- A fabric message put on its way, to arrive at an F-cycle. -/
def State.send (s : State) (m : Msg) (at_ : Nat) : State :=
  { s with fab := { s.fab with net := s.fab.net ++ [{ m with at_ := at_ }] } }

/-- R263: messages that a core or its die receives. -/
def downward (k : MsgKind) : Bool :=
  match k with
  | .dataS | .dataM | .amoRet | .snpInv | .snpShd | .ackUpg | .wbAck | .evcAck | .long => true
  | .wake | .spawn | .spawnRsp | .deliver | .shoot => true
  | _ => false

/-- R263: a message reaches a core that is awake enough for it: its die is in DS0, and the core's clock runs, or it is in CS1 and snooped, in CS2,
or in CS3 with only a shootdown to acknowledge. -/
def State.takes (s : State) (m : Msg) : Bool :=
  !downward m.kind ||
    (decide ((s.die (dieOf m.core)).dst = 0) &&
      (match (s.core m.core).cst with
        | .cs0 => true
        | .cs1 => decide (m.kind = .snpInv) || decide (m.kind = .snpShd)
        | .cs2 => true
        | .cs3 => decide (m.kind = .shoot)))

/-- The first message that meets a condition and has arrived. -/
def State.arrived (s : State) (p : Msg → Bool) : Option Msg :=
  s.fab.net.find? (fun m => decide (m.at_ ≤ s.fcyc) && s.takes m && p m)

/-- A message taken off the fabric. -/
def State.takeMsg (s : State) (m : Msg) : State :=
  { s with fab := { s.fab with net := s.fab.net.erase m } }

/-- A free value taken: the count advances. -/
def State.takeFree (s : State) : State := { s with free := s.free + 1 }

end Sys2Proof.Machine
end

