-- ==== Sys2Proof/Machine/Flags.lean ====
section
/-! DEFINITION. The floating-point flags and the FP-state status of mstatus (R46 fcsr, R56 FS and SD). -/

namespace Sys2Proof.Machine

/-- mstatus.FS: 0 Off, 1 Initial, 2 Clean, 3 Dirty. -/
def Ctx.fs (x : Ctx) : Nat := bits x.mstatus 13 2

/-- R44: a write of FP state makes FS Dirty, and the slot's FP part is written back at park (R41). -/
def Ctx.fpDirtied (x : Ctx) : Ctx := { x with mstatus := setBits x.mstatus 13 2 3, fpDirty := true }

/-- Exception flags accrued into fflags. -/
def Ctx.accrue (x : Ctx) (fl : Nat) : Ctx :=
  if fl = 0 then x else { x.fpDirtied with fcsr := x.fcsr ||| BitVec.ofNat 8 (fl % 32) }

/-- An FP register written. -/
def Ctx.setF (x : Ctx) (r : Nat) (v : W64) : Ctx := { x.fpDirtied with f := Tab.put 0 x.f r v }

/-- mstatus as it reads (R56): UXL = SXL = 2, SD summarises FS. -/
def Ctx.mstatusRead (x : Ctx) : W64 :=
  setBits (setBits (setBits x.mstatus 32 2 2) 34 2 2) 63 1 (b2n (decide (x.fs = 3)))

/-- The bits of mstatus that R56 implements as writable: SIE, MIE, SPIE, MPIE, SPP, MPP, FS, MPRV, SUM, MXR, TVM, TW, TSR. -/
def mstatusMask : W64 := 0x7E79AA

/-- The bits of mstatus that sstatus shows: SIE, SPIE, SPP, FS, SUM, MXR. -/
def sstatusMask : W64 := 0xC6122

/-- A write of mstatus: reserved bits ignored; the reserved MPP code 2 keeps the old MPP. -/
def Ctx.writeMstatus (x : Ctx) (v : W64) : Ctx :=
  let v := v &&& mstatusMask
  let v := if bits v 11 2 = 2 then setBits v 11 2 (bits x.mstatus 11 2) else v
  { x with mstatus := v }

/-- A write of sstatus: the fields it shows change, the others keep. -/
def Ctx.writeSstatus (x : Ctx) (v : W64) : Ctx :=
  { x with mstatus := (x.mstatus &&& ~~~ sstatusMask) ||| (v &&& sstatusMask) }

end Sys2Proof.Machine
end

