-- ==== Sys2Proof/Machine/Operands.lean ====
section
/-! DEFINITION. Operand forms: the second source of an integer operation, an effective address, the source and the
written value of a CSR instruction (R367), and scoreboard names. -/

namespace Sys2Proof.Machine

/-- The value of a second source. -/
def Ctx.src2 (x : Ctx) : Src2 → W64
  | .reg r => x.getX r
  | .imm v => v

/-- The scoreboard names of a second source: integer registers are 0 to 31, FP registers 32 to 63. -/
def src2Regs : Src2 → List Nat
  | .reg r => [r]
  | .imm _ => []

/-- The effective address of a load or store. -/
def Ctx.ea (x : Ctx) (rs1 : Nat) (off : W64) : W64 := x.getX rs1 + off

/-- The source operand of a CSR instruction: a register, or the immediate its number is. -/
def csrOperand (op : CsrOp) (x : Ctx) (src : Nat) : W64 :=
  match op with
  | .rw => x.getX src
  | .rs => x.getX src
  | .rc => x.getX src
  | .rwi => BitVec.ofNat 64 src
  | .rsi => BitVec.ofNat 64 src
  | .rci => BitVec.ofNat 64 src

/-- Whether a CSR instruction writes: the swaps always, the others when the source field is not 0. -/
def csrWrites (op : CsrOp) (src : Nat) : Bool :=
  match op with
  | .rw => true
  | .rwi => true
  | .rs => src != 0
  | .rc => src != 0
  | .rsi => src != 0
  | .rci => src != 0

/-- The value a CSR instruction writes under the RISC-V rules. -/
def csrNew (op : CsrOp) (old src : W64) : W64 :=
  match op with
  | .rw => src
  | .rwi => src
  | .rs => old ||| src
  | .rsi => old ||| src
  | .rc => old &&& ~~~ src
  | .rci => old &&& ~~~ src

/-- R367: the ones that a CSR instruction writes to a W1C or W1S field: the operand's, none for a clear. -/
def csrOnes (op : CsrOp) (src : W64) : W64 :=
  match op with
  | .rw => src
  | .rwi => src
  | .rs => src
  | .rsi => src
  | .rc => 0
  | .rci => 0

/-- The scoreboard names a CSR instruction reads. -/
def csrSrcRegs (op : CsrOp) (src : Nat) : List Nat :=
  match op with
  | .rw => [src]
  | .rs => [src]
  | .rc => [src]
  | .rwi => []
  | .rsi => []
  | .rci => []

end Sys2Proof.Machine
end

