-- ==== Sys2Proof/Machine/Issue.lean ====
section
/-! DEFINITION. Issue: which instruction may issue in a cycle, what issuing uses up, and completion (R14 to R24, R41). -/

namespace Sys2Proof.Machine

/-- What an instruction needs to issue: its lane (0, 1, or 2 for either), the registers it reads or writes by scoreboard name,
and its kind (shadow-safe, memory, serialising). -/
structure IssQ where
  lane : Nat
  regs : List Nat
  safe : Bool := false
  mem : Bool := false
  serial : Bool := false
  deriving DecidableEq, Repr

/-- The length of an instruction in bytes. -/
def insLen (h : Ins) : Nat := if h.rvc then 2 else 4

/-- R21: the bytes of an instruction are in the fetch buffer and past DE. -/
def fetched (bs : List FBlock) (pc len t : Nat) : Bool :=
  match bs with
  | [] => false
  | b :: rest =>
    decide (b.lo = pc) && decide (b.ready ≤ t) &&
      (decide (pc + len ≤ b.hi) ||
        match rest with
        | [] => false
        | c :: _ => decide (c.lo = b.hi) && decide (c.ready ≤ t) && decide (pc + len ≤ c.hi))

/-- The fetch buffer after the bytes below an address have issued. -/
def consume (bs : List FBlock) (upto : Nat) : List FBlock :=
  match bs with
  | [] => []
  | b :: rest =>
    if b.hi ≤ upto then
      match rest with
      | [] => []
      | c :: more => if c.lo = b.hi ∧ b.hi < upto then { c with lo := upto } :: more else rest
    else { b with lo := upto } :: rest

/-- R15, R16: a lane is free for an instruction in cycle t; an "either" first pick makes room by moving to lane 1. -/
def Core.laneOk (k : Core) (t lane : Nat) : Bool :=
  let f0 := decide (k.lane0 ≤ t)
  let f1 := decide (k.lane1 ≤ t)
  if lane = 0 then
    f0 || (f1 && match k.pick1 with | some (c, _, e) => decide (c = t) && e | none => false)
  else if lane = 1 then f1
  else f0 || f1

/-- R14, R16: the lane and pointer after an issue in cycle t from an issue slot. The first pick of the cycle moves the pointer. -/
def Core.useLane (k : Core) (t lane slot : Nat) : Core :=
  let first := match k.pick1 with | some (c, _, _) => decide (c ≠ t) | none => true
  let k := if first then { k with pick1 := some (t, slot, decide (lane = 2)), ptr := (slot + 1) % 8 } else k
  let f0 := decide (k.lane0 ≤ t)
  if lane = 0 then
    if f0 then { k with lane0 := t + 1 } else { k with lane1 := t + 1 }
  else if lane = 1 then { k with lane1 := t + 1 }
  else if f0 then { k with lane0 := t + 1 } else { k with lane1 := t + 1 }

/-- R17, R19: no listed register has a write that is not yet on the bypass network, nor one that a divide still owes. -/
def Core.regsReady (k : Core) (i t : Nat) (regs : List Nat) : Bool :=
  let x := k.ctx i
  let owed := fun (u : Option UnitOp) =>
    match u with
    | some u => decide (u.ctx = i) && regs.contains (if u.fp then u.rd + 32 else u.rd)
    | none => false
  regs.all (fun r => decide (Tab.get 0 x.regReady r ≤ t)) && !owed k.divu && !owed k.fdivu

/-- R14 to R24, R38: an instruction may issue in cycle t. -/
def Core.issueOk (k : Core) (t : Nat) (h : Ins) (q : IssQ) : Bool :=
  let x := k.ctx h.ctx
  k.runs && (k.slotOf h.ctx).isSome && decide (x.st = .active) && !x.hold && x.park.isNone && x.dfault.isNone &&
  x.acc.isNone && x.spawnRd.isNone && (x.tmiss.isNone || x.tmiss.any (fun m => decide (m.kind = .fetch))) &&
  decide (x.runAt ≤ t) && decide (x.nextIssue ≤ t) && decide (x.iss ≤ t) &&
  k.regsReady h.ctx t q.regs && k.laneOk t q.lane &&
  (!q.mem || decide (x.memFree ≤ t)) && (q.safe || decide (x.shadowEnd < t)) &&
  (!q.serial || decide (x.inflight < t)) && fetched x.fbuf x.pc.toNat (insLen h) t

/-- R24: a shadow-safe instruction issues in the shadow of an instruction that failed its check or missed: it takes its lane
and has no effect. -/
def Core.killed (k : Core) (t : Nat) (h : Ins) (q : IssQ) : Bool :=
  let x := k.ctx h.ctx
  k.runs && (k.slotOf h.ctx).isSome && q.safe && x.shadowKill && decide (t ≤ x.shadowEnd) && decide (x.iss ≤ t) &&
  k.laneOk t q.lane

/-- What issuing uses up: the lane, the slot's cycle and the fetched bytes. -/
def Core.mark (k : Core) (t : Nat) (h : Ins) (q : IssQ) : Core :=
  let k := k.useLane t q.lane ((k.slotOf h.ctx).getD 0)
  k.modCtx h.ctx (fun x => { x with iss := t + 1, fbuf := consume x.fbuf (x.pc.toNat + (insLen h)) })

/-- R17, R20: a result reaches the bypass network after a latency, and the instruction leaves WB. -/
def Ctx.owe (x : Ctx) (t lat : Nat) (rd : Option Nat) : Ctx :=
  let x := { x with inflight := max x.inflight (t + max 4 (lat + 1)) }
  match rd with
  | none => x
  | some r => if r = 0 then x else { x with regReady := Tab.put 0 x.regReady r (t + lat) }

/-- R318: a context's events count for a selector: its slot and privilege filters. -/
def selTakes (sel : W64) (i : Nat) (p : Prv) : Bool :=
  (!bit sel 42 || decide (bits sel 32 10 = i)) &&
    !(match p with | .u => bit sel 60 | .s => bit sel 61 | .m => bit sel 62)

/-- R321: an instruction completes or traps: the samples that wait for it have it. -/
def Core.retired (k : Core) (r : Retire) : Core :=
  let r := { r with flags := r.flags ||| (k.ctx r.ctx).sflags }
  let mine := k.smpWait.filter (fun n => selTakes (Tab.get {} k.hpm n).sel r.ctx r.prv)
  let k := { k with retire := k.retire ++ [r], smpWait := k.smpWait.filter (fun n => !mine.contains n)
                    smpDue := k.smpDue ++ ((k.ctx r.ctx).smp ++ mine).map (fun n => (n, some r)) }
  if (k.ctx r.ctx).smp.isEmpty && ((k.ctx r.ctx).sflags == 0) then k else k.modCtx r.ctx (fun x => { x with smp := [], sflags := 0 })

/-- R321: the instruction that a context's samples wait for never runs. -/
def Core.dropSamples (k : Core) (i : Nat) : Core :=
  if (k.ctx i).smp.isEmpty then k
  else { k with smpDue := k.smpDue ++ (k.ctx i).smp.map (fun n => (n, none)) }.modCtx i (fun x => { x with smp := [] })

/-- R56, R318, R321: an instruction completes: minstret, INSTRET, and what a sample would record of it. -/
def Core.finish (k : Core) (i : Nat) (pc : W64) (addr : W64) (raw : BitVec 32) (issued done flags : Nat) : Core :=
  let k := if bit k.mcountinhibit 2 then k else { k with minstret := k.minstret + 1 }
  let k := k.ev 2 i 1
  k.retired { ctx := i, pc := pc, addr := addr, raw := raw, issued := issued, done := done, flags := flags, prv := (k.ctx i).prv }

/-- The pc moved past an instruction. -/
def Ctx.adv (x : Ctx) (len : Nat) : Ctx := { x with pc := x.pc + BitVec.ofNat 64 len }

/-- An ordinary instruction done in its slot: its result with its latency, the pc past it. -/
def Core.done (k : Core) (t : Nat) (h : Ins) (lat : Nat) (rd : Option Nat) (f : Ctx → Ctx) : Core :=
  let k := k.finish h.ctx (k.ctx h.ctx).pc 0 h.raw t (t + lat) 0
  k.modCtx h.ctx (fun x => ((f x).owe t lat rd).adv (insLen h))

/-- R20, R22: a serialising instruction after which the context continues at `pc`: fetch restarts there in t + 2. -/
def Core.serialDone (k : Core) (t : Nat) (h : Ins) (rd : Option Nat) (f : Ctx → Ctx) : Core :=
  let k := k.done t h 1 rd f
  (k.modCtx h.ctx (fun x => { x.restart x.pc (t + 2) with nextIssue := t + 2 })).ev 4 h.ctx 4

/-- R24, R28: after a trap of an instruction that issued in t, what issues in its shadow is cancelled, and the handler's first instruction issues no
earlier than its fetch allows. -/
def Ctx.trapped (x : Ctx) (t at_ : Nat) : Ctx :=
  { x with shadowEnd := max x.shadowEnd (t + 2), shadowKill := true, nextIssue := at_, inflight := max x.inflight (t + 4) }

/-- R28, R59: a synchronous trap of an instruction that issued in t; the handler's fetch enters IF1 in cycle `at_`. Nothing of the
instruction takes effect, and what issues in its shadow is cancelled. -/
def Core.syncTrap (k : Core) (t : Nat) (h : Ins) (tr : Trap) (at_ : Nat) : Core :=
  let x := k.ctx h.ctx
  let k := k.retired { ctx := h.ctx, pc := x.pc, addr := tr.tval, raw := h.raw, issued := t, done := at_, flags := 4, prv := x.prv }
  (k.takeTrap h.ctx false tr at_).modCtx h.ctx (fun y => y.trapped t at_)

/-- R28: an instruction that is illegal: cause 2 with its bits. -/
def Core.illegal (k : Core) (t : Nat) (h : Ins) : Core :=
  k.syncTrap t h { cause := 2, tval := h.raw.zeroExtend 64 } (t + 2)

/-- An instruction issues: where it may, it takes its lane and slot and has its effect; cancelled in a killed shadow, it takes
its lane only; where it may not issue in this cycle, it waits. -/
def State.issue (s : State) (h : Ins) (q : IssQ) (f : State → Nat → State) : Out :=
  let t := s.cyc h.core
  let k := s.core h.core
  if k.killed t h q then
    .next (s.setCore h.core (((k.useLane t q.lane ((k.slotOf h.ctx).getD 0)).modCtx h.ctx (fun x => { x with iss := t + 1 })).dropSamples h.ctx))
  else if k.issueOk t h q then .next (f (s.setCore h.core (k.mark t h q)) t)
  else .next s

/-- An instruction whose effect is on its core alone. -/
def State.issueK (s : State) (h : Ins) (q : IssQ) (f : Core → Nat → Core) : Out :=
  s.issue h q (fun s t => s.modCore h.core (fun k => f k t))

/-- R41, R56: an instruction that uses FP state: illegal with FS Off; the first use after unpark waits six cycles for rows 6 to 11. -/
def State.issueFpS (s : State) (h : Ins) (q : IssQ) (f : State → Nat → State) : Out :=
  let t := s.cyc h.core
  let k := s.core h.core
  let x := k.ctx h.ctx
  if x.fs = 0 then s.issueK h { q with safe := false } (fun k t => k.illegal t h)
  else if x.fpHere then s.issue h q f
  else if k.killed t h q then s.issue h q f
  else if !k.issueOk t h q then .next s
  else
    match x.fpAt with
    | none => .next (s.modCtx h.core h.ctx (fun y => { y with fpAt := some (t + 6) }))
    | some a =>
      if a ≤ t then (s.modCtx h.core h.ctx (fun y => { y with fpHere := true, fpAt := none })).issue h q f
      else .next s

/-- R41: an instruction that uses FP state and whose effect is on its core alone. -/
def State.issueFp (s : State) (h : Ins) (q : IssQ) (f : Core → Nat → Core) : Out :=
  s.issueFpS h q (fun s t => s.modCore h.core (fun k => f k t))

end Sys2Proof.Machine
end

