-- ==== Sys2Proof/Machine/Reasons.lean ====
section
/-! DEFINITION. The reason codes of the registry (R257). -/

namespace Sys2Proof.Machine

/-- R257 OK: Success. -/
abbrev rOk : Nat := 0x0000

/-- R257 BAD_OPCODE: Opcode not listed. -/
abbrev rBadOpcode : Nat := 0x0001

/-- R257 BAD_LENGTH: Packet length out of range. -/
abbrev rBadLength : Nat := 0x0002

/-- R257 NOT_PERMITTED: Source, privilege, partition state or ownership forbids the request. -/
abbrev rNotPermitted : Nat := 0x0003

/-- R257 QUEUE_FULL: A queue limit has been reached. -/
abbrev rQueueFull : Nat := 0x0004

/-- R257 SUPERSEDED: A later command of the same kind replaced this one. -/
abbrev rSuperseded : Nat := 0x0005

/-- R257 BUSY_DRAINING: The object is still draining from its last disable or operation. -/
abbrev rBusyDraining : Nat := 0x0006

/-- R257 TIMEOUT: A step waited on hardware (sideband, I3C, AVSBus) beyond 100 ms. -/
abbrev rTimeout : Nat := 0x0007

/-- R257 BAD_PARAMETER: A field holds a value outside its encoding, or a zero field is not zero. -/
abbrev rBadParameter : Nat := 0x0008

/-- R257 PART_CORE_OVERLAP: Core held by another partition. -/
abbrev rPartCoreOverlap : Nat := 0x0101

/-- R257 PART_MEM_OVERLAP: Window overlaps a window already held, by another partition or by the same one. -/
abbrev rPartMemOverlap : Nat := 0x0102

/-- R257 PART_MEM_NOT_FIRED: Unit not fired. -/
abbrev rPartMemNotFired : Nat := 0x0103

/-- R257 PART_NO_CORES: Partition holds no core. -/
abbrev rPartNoCores : Nat := 0x0104

/-- R257 PART_CREDIT_OVERCOMMIT: Tracker grants exceed a slice's trackers. -/
abbrev rPartCreditOvercommit : Nat := 0x0105

/-- R257 PART_MSC_WAYS_OVERCOMMIT: Way masks empty or, for ISO-T, not exclusive. -/
abbrev rPartMscWaysOvercommit : Nat := 0x0106

/-- R257 PART_ISOLATION_UNMET: An ISO-T requirement fails. -/
abbrev rPartIsolationUnmet : Nat := 0x0107

/-- R257 PART_STATE: Command not valid in the partition's state. -/
abbrev rPartState : Nat := 0x0108

/-- R257 PART_IO_OVERLAP: DMA channel or root port held by another partition. -/
abbrev rPartIoOverlap : Nat := 0x0109

/-- R257 PWR_STATE_UNREACHABLE: Power state cannot be reached. -/
abbrev rPwrStateUnreachable : Nat := 0x0201

/-- R257 PWR_VF_OUT_OF_RANGE: P-state or frequency outside the fused range. -/
abbrev rPwrVfOutOfRange : Nat := 0x0202

/-- R257 MEM_RANGE_INVALID: Outside populated DRAM, in a reserved region, or an unpopulated rank. -/
abbrev rMemRangeInvalid : Nat := 0x0301

/-- R257 MEM_ALIGN: Misaligned base or length. -/
abbrev rMemAlign : Nat := 0x0302

/-- R257 MEM_RATE_INVALID: Patrol period out of range. -/
abbrev rMemRateInvalid : Nat := 0x0303

/-- R257 MEM_RETIRE_FULL: Retired-page table full. -/
abbrev rMemRetireFull : Nat := 0x0304

/-- R257 MEM_POPULATION_INVALID: DIMM population breaks R172. -/
abbrev rMemPopulationInvalid : Nat := 0x0305

/-- R257 LINK_NO_SPARE: No spare, or no stream carriage. -/
abbrev rLinkNoSpare : Nat := 0x0401

/-- R257 LINK_PEER_ABSENT: No peer, or the package was never a member. -/
abbrev rLinkPeerAbsent : Nat := 0x0402

/-- R257 LINK_SET_MISMATCH: Peer revision or protocol differs. -/
abbrev rLinkSetMismatch : Nat := 0x0403

/-- R257 LINK_ID_CONFLICT: Peer reports this package's ID. -/
abbrev rLinkIdConflict : Nat := 0x0404

/-- R257 LINK_TOPOLOGY: Topology breaks R200, or formation failed. -/
abbrev rLinkTopology : Nat := 0x0405

/-- R257 LINK_PEER_LOST: Peer lost. -/
abbrev rLinkPeerLost : Nat := 0x0406

/-- R257 LINK_TOO_LONG: Flight exceeds 16 F-cycles. -/
abbrev rLinkTooLong : Nat := 0x0407

/-- R257 LINK_TRAIN_FAILED: Equalisation failed at both rates. -/
abbrev rLinkTrainFailed : Nat := 0x0408

/-- R257 XLT_TABLE_NOT_NORMAL_MEMORY: Table outside system memory. -/
abbrev rXltTableNotNormalMemory : Nat := 0x0501

/-- R257 XLT_TABLE_SIZE: Size or alignment invalid. -/
abbrev rXltTableSize : Nat := 0x0502

/-- R257 XLT_SIZE_LIST_INVALID: Size list breaks R76. -/
abbrev rXltSizeListInvalid : Nat := 0x0503

/-- R257 DMA_SHAPE_MISMATCH: Source and destination shapes differ in size. -/
abbrev rDmaShapeMismatch : Nat := 0x0601

/-- R257 DMA_WINDOW: Transfer outside the channel's partition windows. -/
abbrev rDmaWindow : Nat := 0x0602

/-- R257 DMA_ZERO_LINE: Zero line length or line count. -/
abbrev rDmaZeroLine : Nat := 0x0603

/-- R257 EP_RING_BASE_INVALID: Ring base invalid. -/
abbrev rEpRingBaseInvalid : Nat := 0x0701

/-- R257 EP_RING_SIZE: Ring size invalid. -/
abbrev rEpRingSize : Nat := 0x0702

/-- R257 EP_BME_CLEAR: Bus Master Enable is clear. -/
abbrev rEpBmeClear : Nat := 0x0703

/-- R257 ID_SET_MISMATCH: SETCODE differs. -/
abbrev rIdSetMismatch : Nat := 0x0901

/-- R257 ID_REVISION_MISMATCH: REV differs. -/
abbrev rIdRevisionMismatch : Nat := 0x0902

/-- R257 ID_FUSE_INVALID: Fuse block fails R153. -/
abbrev rIdFuseInvalid : Nat := 0x0903

/-- R257 FW_SIGNATURE_INVALID: Image signature does not verify. -/
abbrev rFwSignatureInvalid : Nat := 0x0904

/-- R257 ID_ORIENTATION_INVALID: Orientation pads invalid. -/
abbrev rIdOrientationInvalid : Nat := 0x0905

/-- R257 FW_NOT_STAGED: No staged image. -/
abbrev rFwNotStaged : Nat := 0x0906

/-- R257 FW_VERSION_REJECTED: Security level below the running image's. -/
abbrev rFwVersionRejected : Nat := 0x0907

/-- R257 ECC_UNCORRECTABLE: Uncorrectable read. -/
abbrev rEccUncorrectable : Nat := 0x0C01

/-- R257 POISONED: Poisoned line. -/
abbrev rPoisoned : Nat := 0x0C02

/-- R257 NOT_FIRED: Unit not fired. -/
abbrev rNotFired : Nat := 0x0C03

/-- R257 RETENTION_LOST: Suspect bank. -/
abbrev rRetentionLost : Nat := 0x0C04

/-- R257 OUTSIDE_WINDOW: Address outside the requester's reach. -/
abbrev rOutsideWindow : Nat := 0x0C05

/-- R257 PEER_LOST: Home or target package lost. -/
abbrev rPeerLost : Nat := 0x0C06

/-- R257 DEVICE_ERROR: Controller or device failed to answer. -/
abbrev rDeviceError : Nat := 0x0C07

/-- R257 RETIRED_PAGE: Page retired. -/
abbrev rRetiredPage : Nat := 0x0C08

end Sys2Proof.Machine
end

