-- ==== Sys2Proof/Machine/Map.lean ====
section
/-! DEFINITION. The physical address map: what a physical address names, which package it belongs to, and whether a requester
may reach it (R4 to R8, R101, R126, R174 to R176, R351, R352). -/

namespace Sys2Proof.Machine

/-- The package whose system memory holds an address (R4). -/
def pkgOf (pa : Nat) : Nat := pa / 2 ^ 44

/-- R101: the home slice of a line. -/
def sliceOf (line : Nat) : Nat := (line % 16) ^^^ (line / 16 % 16)

/-- A package that was present and has been lost (R6, R222). -/
def State.lost (s : State) (q : Nat) : Bool := bit (BitVec.ofNat 8 (s.fget .reelSysLost)) q

/-- A package that is in the system: this one, or a member (R214) that has not been lost. -/
def State.member (s : State) (q : Nat) : Bool :=
  decide (q = s.pkg) || (bit (BitVec.ofNat 8 (s.fget .reelSysMembers)) q && !s.lost q)

/-- R214: the number of packages of the system as it was formed. -/
def State.npkg (s : State) : Nat :=
  ((List.range 8).filter (fun q => decide (q = s.pkg) || bit (BitVec.ofNat 8 (s.fget .reelSysMembers)) q)).length

/-- R5, R172: the populated DRAM of this package in bytes: sixteen channels of equal capacity. -/
def State.dramBytes (s : State) : Nat := 16 * s.fget .mcCfgCapg * 2 ^ 30

/-- The DRAM of a package of the system. DEDUCED (log 19): no message tells another package's; a partition's windows there, checked by that
package's kiln, bound what may be reached. -/
def State.dramOf (s : State) (q : Nat) : Nat := if q = s.pkg then s.dramBytes else 2 ^ 44

/-- R126: the first byte of this package's directory carve-out, as an offset from its base; its end when there is none. -/
def State.carveBase (s : State) : Nat := if s.npkg ≤ 1 then s.dramBytes else s.dramBytes - s.dramBytes / 64

/-- R175: bits of a row number. -/
def State.rowBits (s : State) : Nat := if s.fget .mcCfgD32 = 1 then 17 else 16

/-- R175: bytes of a logical-rank stripe. -/
def State.stripe (s : State) : Nat := 2 ^ (s.rowBits + 23)

/-- R174: the channel-local line number. -/
def chanLine (pa : Nat) : Nat := pa % 2 ^ 44 / 1024

/-- R174: the controller of an address. -/
def mcOf (pa : Nat) : Nat := sliceOf (pa / 64)

/-- R175: subchannel, row, bank group, bank within group and logical rank of an address. -/
def State.dramAt (s : State) (pa : Nat) : Nat × Nat × Nat × Nat × Nat :=
  let l := chanLine pa
  let row := l / 2 ^ 13 % 2 ^ s.rowBits
  (l % 2, row, (l / 2 % 8) ^^^ (row % 8), (l / 2 ^ 11 % 4) ^^^ (row / 8 % 4), l / 2 ^ (13 + s.rowBits) % 32)

/-- The bank number of an address within its subchannel and rank: bank group × 4 + bank. -/
def State.bankAt (s : State) (pa : Nat) : Nat :=
  match s.dramAt pa with
  | (_, _, bg, b, _) => bg * 4 + b

/-- R176: the line lies in a canary row. -/
def State.canary (s : State) (pa : Nat) : Bool :=
  decide (s.stripe - 2 ^ 23 ≤ pa % 2 ^ 44 % s.stripe)

/-- R126: the line lies in this package's carve-out. -/
def State.inCarve (s : State) (pa : Nat) : Bool := decide (s.carveBase ≤ pa % 2 ^ 44)

/-- R351: root port n exists: its pair is no reel slot, and an odd one needs bifurcation. -/
def State.portExists (s : State) (n : Nat) : Bool :=
  decide (n < 20) && !bit s.kiln.cfg.reelMask (n / 2) && (decide (n % 2 = 0) || bit s.kiln.cfg.bifurc (n - 1))

/-- R227: a partition owns root port n of this package. -/
def State.partHasPort (s : State) (p n : Nat) : Bool := bit (s.rget .prtIo p 4) n

/-- A partition owns DMA channel ch (engine × 32 + channel) of this package. -/
def State.partHasDma (s : State) (p ch : Nat) : Bool := s.mapBit .prtIo p ch

/-- What a physical address names (R4, R7, R352). -/
inductive Target where
  | mem (q : Nat)
  | port (n : Nat)
  | farPort (q n : Nat)
  | ctrl (off : Nat)
  | farCtrl (q off : Nat)
  | none
  deriving DecidableEq, Repr

/-- The target of a physical address. -/
def State.target (s : State) (pa : Nat) : Target :=
  if pa < 0x800000000000 then .mem (pkgOf pa)
  else if 0x1000000000000 ≤ pa ∧ pa < 0x2000000000000 then
    let q := (pa - 0x1000000000000) / 0x200000000000
    let n := (pa - 0x1000000000000) % 0x200000000000 / 0x10000000000
    if 20 ≤ n then .none else if q = s.pkg then .port n else .farPort q n
  else if 0xF000000000000 ≤ pa ∧ pa < 0xF080000000000 then
    let q := (pa - 0xF000000000000) / 0x10000000000
    let off := (pa - 0xF000000000000) % 0x10000000000
    if q = s.pkg then .ctrl off else .farCtrl q off
  else .none

/-- A window register value covers an address (PRT_WINp_w). -/
def winCovers (w : W64) (pa : Nat) : Bool :=
  bit w 0 && decide (bits w 8 22 ≤ pa / 2 ^ 30) && decide (pa / 2 ^ 30 < bits w 8 22 + bits w 32 15)

/-- R6, R234: an address of system memory lies in a partition's windows, of this package or of another of its span. -/
def State.inWindows (s : State) (p pa : Nat) : Bool :=
  if pkgOf pa = s.pkg then (List.range 16).any (fun w => winCovers (s.rget .prtWin p w) pa)
  else (List.range 16).any (fun w => winCovers (Tab.get 0 (s.part p).remWin (pkgOf pa * 32 + w)) pa)

/-- R6: whether an address of system memory exists: its package is in the system and has DRAM there. -/
def State.populated (s : State) (pa : Nat) : Bool :=
  decide (pa < 0x800000000000) && s.member (pkgOf pa) && decide (pa % 2 ^ 44 < s.dramOf (pkgOf pa))

/-- R8, R239: an offset in the mailbox page of a partition. -/
def inMailbox (p off : Nat) : Bool := decide (0xA000000 + 0x1000 * p ≤ off) && decide (off < 0xA000000 + 0x1000 * (p + 1))

/-- R6, R8, R352: why a core's access of a size to a physical address is refused at its fault check, for a core of a partition (none:
of no partition). -/
def State.physReason (s : State) (part : Option Nat) (pa size : Nat) : Option Nat :=
  match s.target pa with
  | .none => some rOutsideWindow
  | .mem q =>
    if s.lost q then some rPeerLost
    else if !s.populated pa || (s.inCarve pa && decide (q = s.pkg)) then some rOutsideWindow
    else if part.any (fun p => s.inWindows p pa) then none else some rOutsideWindow
  | .port n =>
    let cfg := decide (pa % 0x10000000000 < 0x10000000)
    if s.portExists n && decide (s.fget .rptCtlEn n = 1) && part.any (fun p => s.partHasPort p n) && (!cfg || decide (size ≤ 4)) then none
    else some rOutsideWindow
  | .ctrl off => if part.any (fun p => s.plat p || inMailbox p off) then none else some rOutsideWindow
  | .farPort q _ => if s.lost q then some rPeerLost else some rOutsideWindow
  | .farCtrl q _ =>
    if s.lost q then some rPeerLost
    else if s.member q && part.any (fun p => s.plat p) then none else some rOutsideWindow

/-- R62: an address that is device memory whatever its mapping says: MMIO windows and control space. -/
def State.isDevice (s : State) (pa : Nat) : Bool :=
  match s.target pa with
  | .mem _ => false
  | .none => false
  | .port _ => true
  | .farPort _ _ => true
  | .ctrl _ => true
  | .farCtrl _ _ => true

/-- R192: a unit of 1 GiB has been fired. -/
def State.fired (s : State) (unit : Nat) : Bool := bit (s.rget .glbFired (unit / 64)) (unit % 64)

end Sys2Proof.Machine
end

