-- ==== Sys2Proof/Machine/Cache.lean ====
section
/-! DEFINITION. The core's caches: L1 presence, L2 lines, what happens when a line leaves the L2 or is written, misses
and the performing of accesses on a line (R25, R29, R32, R49, R50, R53, R99, R100, R114 to R118). -/

namespace Sys2Proof.Machine

/-- R29: a line allocated in an L1 of 64 sets and 8 ways; a full set loses the way a free value names. -/
def allocL1 (l : List Nat) (line v : Nat) : List Nat :=
  if l.contains line then l
  else
    let set := l.filter (fun m => m % 64 == line % 64)
    if set.length < 8 then l ++ [line] else l.erase (set.getD (v % 8) 0) ++ [line]

/-- R29, R50, R53: a line leaves the L2: its L1 copies go, reservations on it are lost, its watchers wake. -/
def Core.loseLine (k : Core) (t line : Nat) : Core :=
  let k := { k with
    l2 := Tab.del k.l2 line
    l1i := k.l1i.filter (· != line)
    l1d := k.l1d.filter (· != line)
    resv := k.resv.map (fun (r : Resv) => if r.line = line then { r with lost := true } else r) }
  k.wakeLine t line

/-- R50, R53: a write of a line by context i: other contexts' reservations are lost and the line's watchers wake. -/
def Core.wroteLine (k : Core) (t line i : Nat) : Core :=
  let k := { k with resv := k.resv.map (fun (r : Resv) => if r.line = line ∧ r.ctx ≠ i then { r with lost := true } else r) }
  k.wakeLine t line

/-- A line of the L2 replaced. -/
def Core.setL2 (k : Core) (line : Nat) (l : L2Line) : Core := { k with l2 := Tab.ins k.l2 line l }

/-- Bytes of a line as an extended load value. -/
def lineLoad (d : LineData) (pa sz : Nat) (sgn : Bool) : W64 := extendLoad sz sgn (bits d (8 * (pa % 64)) (8 * 2 ^ sz))

/-- Bytes of a line stored. -/
def lineStore (d : LineData) (pa sz : Nat) (v : W64) : LineData := setBits d (8 * (pa % 64)) (8 * 2 ^ sz) v.toNat

/-- The value a load puts in its register: FP singles are NaN-boxed (R46). -/
def loadReg (fp : Bool) (sz : Nat) (v : W64) : W64 :=
  if fp && decide (sz = 2) then BitVec.ofNat 64 (v.toNat % 2 ^ 32 + (2 ^ 32 - 1) * 2 ^ 32) else v

/-- The overlap of two byte ranges. -/
def overlaps (a n b m : Nat) : Bool := decide (a < b + m) && decide (b < a + n)

/-- R32: the youngest store-buffer entry of a context that overlaps a load. -/
def Core.sbHit (k : Core) (i pa sz : Nat) : Option SbEnt :=
  k.sb.reverse.find? (fun e => decide (e.ctx = i) && overlaps e.pa (2 ^ e.sz) pa (2 ^ sz))

/-- R32: the entry covers every byte of the load. -/
def SbEnt.covers (e : SbEnt) (pa sz : Nat) : Bool := decide (e.pa ≤ pa) && decide (pa + 2 ^ sz ≤ e.pa + 2 ^ e.sz)

/-- R32: the forwarded bytes, as an extended load value. -/
def SbEnt.forward (e : SbEnt) (pa sz : Nat) (sgn : Bool) : W64 := extendLoad sz sgn (e.val.toNat / 2 ^ (8 * (pa - e.pa)))

/-- R31, R36: a context has no store-buffer entry. -/
def Core.drained (k : Core) (i : Nat) : Bool := k.sb.all (fun e => e.ctx != i)

/-- R100: a miss of the L2 noted, unless one for the line is already waiting or outstanding. -/
def Core.addMiss (k : Core) (m : Miss) : Core :=
  if k.miss.any (fun n => n.line == m.line && n.walker.isSome == m.walker.isSome) then k else { k with miss := k.miss ++ [m] }

/-- The L2 state of a line, none for I. -/
def Core.l2St (k : Core) (line : Nat) : Option L2St := (Tab.find k.l2 line).map (fun l => l.st)

/-- R33: the ownership request of a store or SC: UPG from S, RD_M from I. -/
def Core.ownReq (k : Core) (line : Nat) : MsgKind := if k.l2St line = some .s then .upg else .rdM

/-- R53: a reservation set; a context has one entry, and a full table of 16 drops its oldest. -/
def Core.setResv (k : Core) (i line : Nat) : Core :=
  let r := k.resv.filter (fun r => r.ctx != i)
  { k with resv := (if r.length < 16 then r else r.drop 1) ++ [{ ctx := i, line := line }] }

/-- R53: the reservation of a context stands on a line. -/
def Core.reserved (k : Core) (i line : Nat) : Bool := k.resv.any (fun r => r.ctx == i && r.line == line && !r.lost)

/-- R49: a watch armed for a context. False in the second part: no entry was free. -/
def Core.arm (k : Core) (i line : Nat) : Core × Bool :=
  if k.watch.any (fun w => w.line == line) then
    ({ k with watch := k.watch.map (fun w => if w.line = line then { w with ctxs := w.ctxs ++ [i] } else w) }, true)
  else if k.watch.length < 256 then ({ k with watch := k.watch ++ [{ line := line, ctxs := [i] }] }, true)
  else ({ k with mctxctl := setBit k.mctxctl 16 true }, false)

/-- R40, R42: a context's park is triggered. -/
def Ctx.trigger (x : Ctx) (dest : CtxState) (t : Nat) (dl : Nat := 0) : Ctx :=
  { x with park := some { dest := dest, trig := t, deadline := dl } }

/-- What performing an access on an L2 line gives: the new core, the register value, and whether a register is written. -/
structure Perf where
  core : Core
  val : W64 := 0
  wr : Bool := true
  deriving DecidableEq, Repr

/-- An access performed on a line the L2 holds (R29, R32, R49, R53, R114, R117, R118). `v` is the free way for L1 allocation. -/
def Core.perform (k : Core) (t i v : Nat) (a : Acc) (l : L2Line) : Perf :=
  let line := a.pa / 64
  match a.op with
  | .load => { core := { k with l1d := allocL1 k.l1d line v }, val := loadReg a.fp a.sz (lineLoad l.data a.pa a.sz a.sgn) }
  | .lr => { core := { k with l1d := allocL1 k.l1d line v }.setResv i line, val := lineLoad l.data a.pa a.sz true }
  | .fetch => { core := { k with l1i := allocL1 k.l1i line v }, wr := false }
  | .sc =>
    if k.reserved i line && decide (l.st = .m) then
      let k := k.setL2 line { l with data := lineStore l.data a.pa a.sz a.arg }
      { core := ({ k with l1d := k.l1d.filter (· != line) }.wroteLine t line i).clearResv i, val := 0 }
    else { core := k.clearResv i, val := 1 }
  | .amo op =>
    let old := lineLoad l.data a.pa a.sz true
    let k := k.setL2 line { l with data := lineStore l.data a.pa a.sz (amoFn op a.sz old a.arg) }
    { core := { k with l1d := k.l1d.filter (· != line) }.wroteLine t line i, val := old }
  | .zero =>
    let k := k.setL2 line { l with data := 0 }
    { core := { k with l1d := k.l1d.filter (· != line) }.wroteLine t line i, wr := false }
  | .clean => { core := k, wr := false }
  | .flush => { core := k, wr := false }
  | .drain => { core := k, wr := false }
  | .watch => { core := k, wr := false }

/-- Whether a line in a state can serve an access at once: S, M and SM for reads, M for what writes it. -/
def AccOp.servedBy (op : AccOp) (st : L2St) : Bool :=
  let rd := decide (st = .s) || decide (st = .m) || decide (st = .sm)
  match op with
  | .load => rd
  | .lr => rd
  | .fetch => rd
  | .watch => rd
  | .sc => decide (st = .m)
  | .amo _ => decide (st = .m)
  | .zero => decide (st = .m)
  | .clean => false
  | .flush => false
  | .drain => false

/-- The request an access sends when its line cannot serve it (R33, R107, R114, R117, R118). -/
def Core.accReq (k : Core) (a : Acc) : MsgKind :=
  match a.op with
  | .load => .rdS
  | .lr => .rdS
  | .fetch => .rdS
  | .watch => .rdS
  | .sc => k.ownReq (a.pa / 64)
  | .amo _ => .amoH
  | .zero => .rdM
  | .clean => if k.l2St (a.pa / 64) = some .m then .wb else .amoH
  | .flush => if k.l2St (a.pa / 64) = some .m then .wb else .amoH
  | .drain => .rdS

/-- The operands an AMO_H carries for an access (R103, R117). -/
def accFar (a : Acc) : FarOp :=
  match a.op with
  | .amo op => .amo op a.sz a.arg a.pa
  | .clean => .clean
  | .flush => .flush
  | .load => .flush
  | .lr => .flush
  | .sc => .flush
  | .zero => .flush
  | .fetch => .flush
  | .drain => .flush
  | .watch => .flush

/-- R58: an access kind raises store/AMO faults. -/
def AccOp.storeKind : AccOp → Bool
  | .load => false
  | .lr => false
  | .fetch => false
  | .watch => false
  | .sc => true
  | .amo _ => true
  | .clean => true
  | .flush => true
  | .zero => true
  | .drain => true

/-- R45, R28: the bus-error trap of an access. -/
def Acc.busTrap (a : Acc) (reason : Nat) : Trap :=
  let cause := match a.op with
    | .fetch => 1
    | .load => 5
    | .lr => 5
    | .watch => 5
    | .sc => 7
    | .amo _ => 7
    | .clean => 7
    | .flush => 7
    | .zero => 7
    | .drain => 7
  { cause := cause, tval := BitVec.ofNat 64 a.va, reason := reason }

/-- The register an access names, on the scoreboard. -/
def Acc.reg (a : Acc) : Nat := if a.fp then a.rd + 32 else a.rd

/-- The result of an access written to its context in the slot; the pc passes the instruction. -/
def Ctx.accDone (x : Ctx) (a : Acc) (wr : Bool) (val : W64) : Ctx :=
  let x := if wr then (if a.fp then x.setF a.rd val else x.setX a.rd val) else x
  x.adv (if a.rvc then 2 else 4)

/-- R25, R36: an access of context i completes in its slot in cycle `c`: its register, its pc, and the next issue no earlier
than c. -/
def Core.accFinish (k : Core) (i c : Nat) (a : Acc) (wr : Bool) (val : W64) : Core :=
  let k := k.finish i (k.ctx i).pc (BitVec.ofNat 64 a.va) a.raw a.issued c a.flags
  k.modCtx i (fun x => { (x.accDone a wr val) with acc := none, nextIssue := max x.nextIssue c, inflight := max x.inflight c
                                                   regReady := Tab.put 0 x.regReady a.reg c })

/-- R22, R20: a serialising access (CTX.WAIT) that completes in its slot restarts fetch. -/
def Core.watchFinish (k : Core) (i c : Nat) (a : Acc) : Core :=
  (k.accFinish i c a false 0).modCtx i (fun x => { x.restart x.pc (c + 1) with nextIssue := c })

/-- R49 step 5: the line of a CTX.WAIT is in the L2: the watch is armed and the context parks in WAIT with its pc advanced, or,
with no entry free, the instruction completes. -/
def Core.watchHit (k : Core) (t i : Nat) (a : Acc) : Core :=
  match k.arm i (a.pa / 64) with
  | (k, true) => (k.accFinish i t a false 0).modCtx i (fun x => x.trigger .wait t)
  | (k, false) => k.watchFinish i (t + 1) a

/-- R21: the bytes of a fetched block reach DE in a cycle, and the stream goes on, stops, or turns to a jump's target. -/
def Ctx.block (x : Ctx) (va ready next : Nat) (pd : Predecode) : Ctx :=
  let end_ := va / 16 * 16 + 16
  match pd with
  | .runs => { x with fbuf := x.fbuf ++ [{ lo := va, hi := end_, ready := ready }], fnext := end_, fmin := next }
  | .stops last => { x with fbuf := x.fbuf ++ [{ lo := va, hi := last, ready := ready }], fstop := true, fmin := next }
  | .jumps last target => { x with fbuf := x.fbuf ++ [{ lo := va, hi := last, ready := ready }], fnext := target, fmin := next }

/-- R25, R36, R100: an access goes to the L2 in cycle t: served there it completes in t + 12; otherwise it waits for the line, its
miss found in t + 8. -/
def Core.startAcc (k : Core) (t i v : Nat) (a : Acc) : Core :=
  let line := a.pa / 64
  let wait := fun (k : Core) => k.modCtx i (fun x => { x with acc := some { a with stage := 1 } })
  match Tab.find k.l2 line with
  | some l =>
    if a.op.servedBy l.st then
      match a.op with
      | .watch => k.watchHit t i a
      | .load | .lr | .sc | .amo _ | .clean | .flush | .zero | .fetch | .drain =>
        let p := k.perform t i v a l
        p.core.accFinish i (t + 12) a p.wr p.val
    else if a.op = .sc && !k.reserved i line then (k.clearResv i).accFinish i (t + 12) a true 1
    else wait (k.addMiss { line := line, req := k.accReq a, far := accFar a, zero := decide (a.op = .zero), ctx := i, found := t + 8 })
  | none =>
    if a.op = .sc && !k.reserved i line then (k.clearResv i).accFinish i (t + 12) a true 1
    else wait (k.addMiss { line := line, req := k.accReq a, far := accFar a, zero := decide (a.op = .zero), ctx := i, found := t + 8 })

end Sys2Proof.Machine
end

