-- ==== Sys2Proof/Machine/Send.lean ====
section
/-! DEFINITION. Messages beyond one core: reel messages queued for a peer (R207 to R211), interrupt routes (R72), the error
log with its notices (R243, R346, R348, R349), and context emptying as the router sees it (R72). -/

namespace Sys2Proof.Machine

/-- R208: the flow-control class and the number of cells of a message. -/
def rmsgShape (m : RMsg) : Nat × Nat :=
  match m.op with
  | .rdS | .rdM | .upg => (1, 1)
  | .amoH => (1, 2)
  | .rsnpShd | .rsnpInv => (2, 1)
  | .rsnpAck => (3, 1)
  | .rsnpData => (3, 5)
  | .dataS | .dataM => (3, if m.m.hasData then 5 else 1)
  | .amoRet => (3, 2)
  | .ackUpg => (3, 1)
  | .wb => (4, 5)
  | .evc => (4, 1)
  | .wbAck | .evcAck => (5, 1)
  | .spawn => (6, 2)
  | .wake | .spawnRsp | .deliver | .complete | .post | .shoot | .shootAck | .tsync | .hello | .resync | .resyncAck => (6, 1)
  | .krelay => (6, 1 + m.len)
  | .ncrd => (7, 1)
  | .ncwr => (7, 1 + (m.len + 15) / 16)
  | .nccpl => (7, 1 + (m.len + 15) / 16)
  | .other _ => (6, 1)

/-- A reel port. -/
def State.rport (s : State) (k : Nat) : RPort := Tab.get {} s.reel.ports k

/-- A reel port changed. -/
def State.modRport (s : State) (k : Nat) (f : RPort → RPort) : State :=
  { s with reel := { s.reel with ports := Tab.put {} s.reel.ports k (f (s.rport k)) } }

/-- R211: the live links of the bundle to a package, in ascending slot order. -/
def State.bundle (s : State) (q : Nat) : List Nat :=
  (List.range 10).filter (fun k => (decide (s.fget .reelStatState k = 2) || decide (s.fget .reelStatState k = 3)) &&
    decide (s.fget .reelStatPeerv k = 1) && decide (s.fget .reelStatPeer k = q))

/-- R211: the link a message to a package travels on: by the line's address, control messages on the lowest. -/
def State.linkFor (s : State) (q : Nat) (m : RMsg) : Option Nat :=
  let b := s.bundle q
  if (rmsgShape m).1 = 6 then b.head? else b[m.m.line % 256 % b.length]?

/-- R207: the cells of a message. -/
def rmsgCells (m : RMsg) (phase : Nat) : List Cell :=
  (List.range (rmsgShape m).2).map (fun i => { cls := (rmsgShape m).1, start := decide (i = 0), phase := phase, idx := i, msg := m })

/-- R203: F-cycles of one flit on a link. -/
def State.flitTime (s : State) (k : Nat) : Nat :=
  4 * (if s.fget .reelStatX16 k = 1 then 1 else 2) * (if s.fget .reelStatG64 k = 1 then 1 else 2)

/-- R209: the quarter of the flit period at whose boundary the packer takes a cell that reaches it now. DEDUCED (log 20): flit periods
begin at multiples of the flit time. -/
def State.phaseNow (s : State) (k : Nat) : Nat :=
  let q := s.flitTime k / 4
  (s.fcyc + q - 1) / q % 4

/-- A message queued for the packer of a link (R209). -/
def State.queueOn (s : State) (k : Nat) (m : RMsg) : State := s.modRport k (fun p => { p with txq := p.txq ++ rmsgCells m (s.phaseNow k) })

/-- A message sent on the link its bundle's mapping gives; it waits while the bundle launches nothing (R211), and is lost with its package
when no link is left. -/
def State.reelSend (s : State) (q : Nat) (m : RMsg) : State :=
  let m := { m with src := s.pkg }
  if s.reel.quiesce.contains q && m.op != .resync && m.op != .resyncAck then { s with reel := { s.reel with held := s.reel.held ++ [(q, m)] } }
  else
    match s.linkFor q m with
    | some k => s.queueOn k m
    | none => s

/-- The time base (R65). -/
def State.time (s : State) : Nat := s.tb.toNat

/-- R243: a notice queued for reply ring 0, and for a partition's mailbox; the full queue of 256 drops
its oldest. The tag is the notice's sequence number. -/
def State.notify (s : State) (part : Option Nat) (n : Notice) : State :=
  let k := s.kiln
  let n := { n with tag := k.nseq % 65536 }
  let k := { k with nseq := k.nseq + 1, notices := (k.notices ++ [n]).drop (k.notices.length - 255) }
  { s with kiln := match part with
      | some p => { k with mbxNotices := k.mbxNotices ++ [(p, n)] }
      | none => k }

/-- R72: DELIVER of a vector to a context, from a route or from the router's own package to another. R139: four F-cycles from the route's event to
IPEND set, so the event's own F-cycle is the one before the egress cycle. -/
def State.sendDeliver (s : State) (r hart vec : Nat) : State :=
  match hartParts hart with
  | none => s
  | some (q, c, i) =>
    let m : Msg := { kind := .deliver, core := c, tag := i, arg := vec + 64 * r, part := s.fget .irtRoutePart r, pkg := s.pkg }
    if q = s.pkg then s.send m (s.fcyc + 4)
    else s.reelSend q { op := .deliver, m := { m with pkg := q, tag := hart } }

/-- R70: routes 256 to 335 are level-sensitive, all others edge. -/
def levelRoute (r : Nat) : Bool := decide (256 ≤ r) && decide (r < 336)

/-- What an event to be logged carries (R347). -/
structure Ev where
  cls : Nat
  event : Nat
  kind : Nat := 0
  idx : Nat := 0
  part : Option Nat := none
  reason : Nat := 0
  addr : Nat := 0
  ctx : Option Nat := none
  detail : Nat := 0
  deriving DecidableEq, Repr

/-- R349: the class's bit of GLB_ERRSTAT. -/
def State.errBit (s : State) (cls : Nat) : State :=
  if cls = 1 then s.fput .glbErrstatPend 0 0 (s.fget .glbErrstatPend ||| 1)
  else if cls = 2 then s.fput .glbErrstatPend 0 0 (s.fget .glbErrstatPend ||| 2)
  else if cls = 3 then s.fput .glbErrstatFatal 0 0 1
  else s

/-- R346: the log with one INFO or CE record dropped, the oldest; none when there is none to drop. -/
def dropOldest : List LogRec → Option (List LogRec)
  | [] => none
  | r :: rest => if r.cls ≤ 1 then some rest else (dropOldest rest).map (fun l => r :: l)

/-- R346: an event entered in the log: merged, written with its notice, or dropped from a full log; and whether a record was written. -/
def State.logRaw (s : State) (e : Ev) : State × Bool :=
  let l := s.kiln.log
  let same := fun (r : LogRec) => decide (r.cls = 1) && decide (r.srcKind = e.kind) && decide (r.srcIdx = e.idx) &&
    decide (r.event = e.event) && decide (r.addr = e.addr) && decide (s.time < r.time + 100000000)
  if e.cls = 1 && l.any same then
    let seq := (l.reverse.find? same).map (fun r => r.seq)
    (({ s with kiln := { s.kiln with log := l.map (fun (r : LogRec) => if some r.seq = seq then { r with count := r.count + 1 } else r) } }).errBit 1, false)
  else
    match (if l.length < 4096 then some l else dropOldest l) with
    | none => ((s.fbump .glbErrstatDropped 0 0).errBit e.cls, false)
    | some l' =>
      let s := if l.length < 4096 then s else s.fbump .glbErrstatDropped 0 0
      let seq := s.fget .glbErrstatNextseq
      let r : LogRec := { seq := seq, cls := e.cls, srcKind := e.kind, srcIdx := e.idx, part := e.part, reason := e.reason, event := e.event
                          time := s.time, addr := e.addr, ctx := e.ctx, detail := e.detail }
      let aon := if 2 ≤ e.cls then (s.kiln.aonLog ++ [r]).drop (s.kiln.aonLog.length - 15) else s.kiln.aonLog
      let s := { s with kiln := { s.kiln with log := l' ++ [r], aonLog := aon } }
      let s := (s.fput .glbErrstatNextseq 0 0 (seq + 1)).errBit e.cls
      (s.notify e.part { tag := 0, status := 0, result := BitVec.ofNat 64 seq, kind := 8 }, true)

/-- R72 step 5: a route whose delivery is refused: LOST is set, SENT and PEND are cleared. -/
def State.routeIdle (s : State) (r : Nat) : State :=
  ((s.fput .irtRouteLost r 0 1).fput .irtRouteSent r 0 0).fput .irtRoutePend r 0 0

/-- R72 step 5: the corrected error of a refused delivery. -/
def State.lostEv (s : State) (r : Nat) : Ev := { cls := 1, event := 0x60, kind := 10, part := some (s.fget .irtRoutePart r), detail := r }

/-- R72: a delivery of a route starts, unless its target's package is lost (`true` then: it is refused). -/
def State.tryDeliver (s : State) (r : Nat) : State × Bool :=
  match hartParts (s.fget .irtRouteTarget r) with
  | some (q, _, _) =>
    if s.member q then ((s.fput .irtRouteSent r 0 1).sendDeliver r (s.fget .irtRouteTarget r) (s.fget .irtRouteVector r), false)
    else (s.routeIdle r, true)
  | none => (s, false)

/-- R346: a CE record written fires route 425. A refusal of that very delivery is logged without firing it once more: the
second event merges into the record of the first. -/
def State.fireCe (s : State) : State :=
  if s.fget .irtRouteEn 425 = 0 then s
  else if s.fget .irtRouteSent 425 = 0 then
    let d := s.tryDeliver 425
    if d.2 then (d.1.logRaw (s.lostEv 425)).1 else d.1
  else s.fput .irtRoutePend 425 0 1

/-- R346: an event entered in the log, with its announcements. -/
def State.logEvent (s : State) (e : Ev) : State :=
  let l := s.logRaw e
  if l.2 && decide (e.cls = 1) then l.1.fireCe else l.1

/-- R72 steps 3 and 5: a delivery of a route is refused, and logged. -/
def State.routeLost (s : State) (r : Nat) : State := (s.routeIdle r).logEvent (s.lostEv r)

/-- R72: a delivery of a route starts, or is refused and logged. -/
def State.redeliver (s : State) (r : Nat) : State :=
  let d := s.tryDeliver r
  if d.2 then d.1.logEvent (s.lostEv r) else d.1

/-- R72 steps 1, 3 and 5: a source event on a route. -/
def State.fireRoute (s : State) (r : Nat) : State :=
  if s.fget .irtRouteEn r = 0 then s
  else if s.fget .irtRouteSent r = 0 then s.redeliver r
  else if levelRoute r then s
  else s.fput .irtRoutePend r 0 1

/-- R72 step 7: a context becomes EMPTY: its core sends COMPLETE for every vector (argument 64 stands for all 64). -/
def State.sendComplete (s : State) (hart vec : Nat) : State :=
  let s := s.send { kind := .complete, tag := hart, arg := vec, pkg := s.pkg } (s.fcyc + 3)
  (List.range 8).foldl (fun s q =>
    if q ≠ s.pkg && s.member q then s.reelSend q { op := .complete, m := { kind := .complete, tag := hart, arg := vec } } else s) s

/-- A context becomes EMPTY (R38, R48, R72). -/
def State.emptyCtx (s : State) (c i : Nat) : State :=
  if (s.ctx c i).st = .empty then s
  else (s.modCore c (fun k => (k.empty i).noteChange (s.cyc c))).sendComplete (s.hartid c i) 64

/-- R344: the outcome of an error in an on-die core structure that loses a context: it becomes EMPTY, logged as UCC. -/
def State.loseCtx (s : State) (c i structure_ : Nat) : State :=
  let h := s.hartid c i
  (s.emptyCtx c i).logEvent { cls := 2, event := 0x50, kind := 1, idx := c, part := s.corePart c, ctx := some h, detail := structure_ }

/-- R344: a corrected error of a core structure is logged as CE; R348 gives it no event code (DESIGN CHOICE: 0, log 6). -/
def State.coreCe (s : State) (c structure_ : Nat) : State :=
  s.logEvent { cls := 1, event := 0, kind := 1, idx := c, part := s.corePart c, detail := structure_ }

/-- R339: store-buffer entries that failed with no context left to trap are logged. -/
def State.logStores (s : State) (c : Nat) : State :=
  (s.core c).badStores.foldl (fun s pa => s.logEvent { cls := 2, event := 0x51, kind := 1, idx := c, part := s.corePart c, addr := pa })
    (s.modCore c (fun k => { k with badStores := [] }))

end Sys2Proof.Machine
end

