-- ==== Sys2Proof/Machine/Count.lean ====
section
/-! DEFINITION. Events of the shared blocks and bytes of the bandwidth windows (R326 to R329). -/

namespace Sys2Proof.Machine

/-- R326, R327: an event of a block in the current F-cycle: kind 0 home slice, 1 memory controller, 2 reel slot, 3 root port, 4 DMA
engine; `part` 64 for an event that carries none. -/
def State.pev (s : State) (kind code idx part n : Nat) : State :=
  { s with pmu := { s.pmu with evs := s.pmu.evs ++ [(kind * 16 + code, idx, part, n)] } }

/-- R329: a window counts traffic of a port, for its partition where it filters. -/
def State.bwCounts (s : State) (w kind idx part : Nat) : Bool :=
  decide (s.fget .bwwCfgRun w = 1) && decide (s.fget .bwwCfgKind w = kind) && decide (s.fget .bwwCfgIndex w = idx) &&
    (decide (s.fget .bwwCfgFilter w = 0) || decide (s.fget .bwwCfgPart w = part))

/-- R329: payload bytes crossing a port in direction A (`a` true) or B. -/
def State.bytes (s : State) (kind idx part : Nat) (a : Bool) (n : Nat) : State :=
  (List.range 32).foldl (fun s w =>
    if s.bwCounts w kind idx part then
      if a then { s with pmu := { s.pmu with bwA := Tab.put 0 s.pmu.bwA w (Tab.get 0 s.pmu.bwA w + n) } }
      else { s with pmu := { s.pmu with bwB := Tab.put 0 s.pmu.bwB w (Tab.get 0 s.pmu.bwB w + n) } }
    else s) s

end Sys2Proof.Machine
end

