-- ==== Sys2Proof/Machine/Ecc.lean ====
section
/-! DEFINITION. The RS(80,64) code of a line: symbols and devices, encoding, the poison mask and the decoder (R183 to R186). -/

namespace Sys2Proof.Machine

/-- R183: multiplication by α in GF(2^8). -/
def gfX2 (a : Nat) : Nat := if a < 128 then 2 * a else (2 * a) ^^^ 0x11D

/-- R183: multiplication in GF(2^8). -/
def gfMul (a b : Nat) : Nat :=
  ((List.range 8).foldl (fun (p : Nat × Nat) i => (if b / 2 ^ i % 2 = 1 then p.1 ^^^ p.2 else p.1, gfX2 p.2)) (0, a)).1

/-- A power in GF(2^8), by squaring. -/
def gfPow (a : Nat) (n : Nat) : Nat :=
  ((List.range 8).foldl (fun (p : Nat × Nat) i => (if n / 2 ^ i % 2 = 1 then gfMul p.1 p.2 else p.1, gfMul p.2 p.2)) (1, a)).1

/-- The inverse of a non-zero element. -/
def gfInv (a : Nat) : Nat := gfPow a 254

/-- R183: a power of α. -/
def gfA (n : Nat) : Nat := gfPow 2 (n % 255)

/-- R183: the coefficients g_0 to g_15 of g(x). -/
def rsG : List Nat := [0x3B, 0x24, 0x32, 0x62, 0xE5, 0x29, 0x41, 0xA3, 0x08, 0x1E, 0xD1, 0x44, 0xBD, 0x68, 0x0D, 0x3B]

/-- R186: the poison mask P_0 to P_15. -/
def rsPoison : List Nat := [0x9E, 0x2B, 0x71, 0xC4, 0x38, 0xE6, 0x5D, 0xA0, 0x17, 0xF3, 0x6A, 0x8C, 0xB5, 0x42, 0xD9, 0x0F]

/-- R183: nibble n of a line: nibbles count from byte 0's low one. -/
def lineNib (d : LineData) (n : Nat) : Nat := bits d (4 * n) 4

/-- R183: data symbol k (position 16 + k): device k / 8, symbol k mod 8, its nibbles in beats 2m and 2m + 1. -/
def lineSym (d : LineData) (k : Nat) : Nat :=
  let dev := k / 8
  let m := k % 8
  lineNib d (16 * m + dev) + 16 * lineNib d (16 * m + 8 + dev)

/-- R183: a line with a value XORed into a data symbol. -/
def xorSym (d : LineData) (k v : Nat) : LineData :=
  let dev := k / 8
  let m := k % 8
  d ^^^ BitVec.ofNat 512 (v % 16 * 2 ^ (4 * (16 * m + dev)) + v / 16 % 16 * 2 ^ (4 * (16 * m + 8 + dev)))

/-- One step of the division by g(x). -/
def rsStep (r : List Nat) (d : Nat) : List Nat :=
  let fb := d ^^^ r.getD 15 0
  (List.range 16).map (fun i => (if i = 0 then 0 else r.getD (i - 1) 0) ^^^ gfMul fb (rsG.getD i 0))

/-- R183: the check symbols c_0 to c_15 of a line. -/
def rsEncode (d : LineData) : List Nat :=
  if d = 0 then List.replicate 16 0
  else (List.range 64).foldl (fun r i => rsStep r (lineSym d (63 - i))) (List.replicate 16 0)

/-- R183: the device that drives a position. -/
def rsDevice (pos : Nat) : Nat := if pos < 8 then 8 else if pos < 16 then 9 else (pos - 16) / 8

/-- R183, R185: the eight positions of a device. -/
def devPos (dev : Nat) : List Nat :=
  (List.range 8).map (fun m => if dev = 8 then m else if dev = 9 then 8 + m else 16 + 8 * dev + m)

/-- R184: the syndromes of an error pattern. -/
def rsSynd (errs : List (Nat × Nat)) : List Nat :=
  (List.range 16).map (fun i => errs.foldl (fun a e => a ^^^ gfMul e.2 (gfA (e.1 * i))) 0)

/-- A sum of polynomials. -/
def polyAdd (a b : List Nat) : List Nat :=
  (List.range (max a.length b.length)).map (fun i => a.getD i 0 ^^^ b.getD i 0)

/-- A multiple of a polynomial. -/
def polyScale (c : Nat) (a : List Nat) : List Nat := a.map (gfMul c)

/-- A product of polynomials, cut to 16 coefficients. -/
def polyMul (a b : List Nat) : List Nat :=
  (List.range 16).map (fun n => (List.range (n + 1)).foldl (fun z i => z ^^^ gfMul (a.getD i 0) (b.getD (n - i) 0)) 0)

/-- A polynomial's value. -/
def polyEval (a : List Nat) (x : Nat) : Nat := a.foldr (fun c z => c ^^^ gfMul x z) 0

/-- A polynomial's degree. -/
def polyDeg (a : List Nat) : Nat := (List.range a.length).foldl (fun m i => if a.getD i 0 ≠ 0 then i else m) 0

/-- The erasure locator of positions. -/
def rsErasure (pos : List Nat) : List Nat :=
  pos.foldl (fun g p => polyAdd g (0 :: polyScale (gfA p) g)) [1]

/-- The error-and-erasure locator (Berlekamp and Massey), with the number of errors and erasures it names. -/
def rsLocator (s : List Nat) (era : List Nat) : List Nat × Nat :=
  let f := era.length
  let g := rsErasure era
  let r := (List.range 16).foldl (fun (z : List Nat × List Nat × Nat) n =>
    if n < f then z
    else
      let lam := z.1
      let d := (List.range lam.length).foldl (fun a j => if j ≤ n then a ^^^ gfMul (lam.getD j 0) (s.getD (n - j) 0) else a) 0
      let b := 0 :: z.2.1
      if d = 0 then (lam, b, z.2.2)
      else
        let lam' := polyAdd lam (polyScale d b)
        if 2 * z.2.2 ≤ n + f then (lam', polyScale (gfInv d) lam, n + 1 + f - z.2.2) else (lam', b, z.2.2)) (g, g, f)
  (r.1, r.2.2)

/-- R184 step 3: an error-and-erasure decode within 2e + f ≤ 16: the values to XOR in by position. -/
def rsDecode (s : List Nat) (era : List Nat) : Option (List (Nat × Nat)) :=
  let (lam, n) := rsLocator s era
  let roots := (List.range 80).filter (fun p => polyEval lam (gfA (255 - p)) = 0)
  if polyDeg lam ≠ n ∨ roots.length ≠ n ∨ 16 < 2 * (n - era.length) + era.length ∨ !era.all (fun p => roots.contains p) then none
  else
    let om := polyMul s lam
    let der := (List.range lam.length).map (fun i => if i % 2 = 0 then lam.getD (i + 1) 0 else 0)
    let vals := roots.map (fun p =>
      let xi := gfA (255 - p)
      (p, gfMul (gfA p) (gfMul (polyEval om xi) (gfInv (polyEval der xi)))))
    if rsSynd vals = s then some (vals.filter (fun v => v.2 ≠ 0)) else none

/-- What a decode gives. -/
inductive EccOut where
  | clean | corrected | poisoned | uncorrectable
  deriving DecidableEq, Repr

/-- The outcome of a read of a stored word: its kind, the data, and the corrected positions. -/
structure Decoded where
  out : EccOut
  data : LineData
  fixed : List Nat := []
  deriving DecidableEq, Repr

/-- The number of symbols of a device among positions. -/
def devCount (fixed : List Nat) (dev : Nat) : Nat := (fixed.filter (fun p => rsDevice p == dev)).length

/-- MC_ECCLAST.DEVMASK of a decode. -/
def devMask (fixed : List Nat) : Nat := fixed.foldl (fun m p => m ||| 2 ^ rsDevice p) 0

/-- R184: the decode of a word: `data` as received, `errs` its difference from the codeword of `data` before any error in it
was added, as (position, value); `mark` the marked device. -/
def eccDecode (data : LineData) (errs : List (Nat × Nat)) (mark : Option Nat) : Decoded :=
  let s := rsSynd errs
  if mark.isNone && s.all (· == 0) then { out := .clean, data := data }
  else
    let era := match mark with
      | some d => devPos d
      | none => []
    let sp := polyAdd s (rsSynd (rsPoison.zipIdx.map (fun (v, j) => (j, v))))
    if ((polyMul sp (rsErasure era)).drop era.length).all (· == 0) then { out := .poisoned, data := 0 }
    else match rsDecode s era with
      | none => { out := .uncorrectable, data := 0 }
      | some vals =>
        let fixed := vals.foldl (fun d v => if 16 ≤ v.1 then xorSym d (v.1 - 16) v.2 else d) data
        if vals.isEmpty then { out := .clean, data := data }
        else { out := .corrected, data := fixed, fixed := vals.map (fun v => v.1) }

end Sys2Proof.Machine
end

