-- ==== Sys2Proof/Machine/Memory.lean ====
section
/-! DEFINITION. DRAM as stored words with their check symbols, the checks of the home's lookup, and the memory-side cache
(R173 to R188, R192, R195, R197). -/

namespace Sys2Proof.Machine

/-- The canonical form of a memory: addresses strictly rising and no entry equal to what an unlisted address reads as. -/
def Memory.wf (m : List Host.Cell) : Bool := Tab.wf (0 : Byte) m

/-- A byte of a memory. DESIGN CHOICE (log 7): a byte that nothing has written reads 0. -/
def Memory.get (m : List Host.Cell) (a : Nat) : Byte := Tab.get 0 m a

/-- A byte written; the canonical form is kept. -/
def Memory.put (m : List Host.Cell) (a : Nat) (v : Byte) : List Host.Cell := Tab.put 0 m a v

/-- Bytes read from an address up, as a little-endian number. -/
def Memory.getN (m : List Host.Cell) (a : Nat) : Nat → Nat
  | 0 => 0
  | n + 1 => (Memory.get m a).toNat + 256 * Memory.getN m (a + 1) n

/-- Bytes written from an address up, from a little-endian number. -/
def Memory.putN (m : List Host.Cell) (a : Nat) : Nat → Nat → List Host.Cell
  | 0, _ => m
  | n + 1, v => Memory.putN (Memory.put m a (BitVec.ofNat 8 v)) (a + 1) n (v / 256)

/-- The part of a line number within its package. -/
def lineIn (line : Nat) : Nat := line % 2 ^ 38

/-- R183: the data bytes of a stored word. -/
def State.dramLine (s : State) (line : Nat) : LineData := BitVec.ofNat 512 (Memory.getN s.mem.dram (lineIn line * 64) 64)

/-- R183: how the stored check symbols of a line differ from those of the codeword of its data. -/
def State.dramDelta (s : State) (line : Nat) : List Nat :=
  (List.range 16).map (fun j => (Memory.get s.mem.chk (lineIn line * 16 + j)).toNat)

/-- A stored word written: data and the difference of its check symbols. -/
def State.dramStore (s : State) (line : Nat) (d : LineData) (delta : List Nat) : State :=
  { s with mem := { s.mem with
      dram := Memory.putN s.mem.dram (lineIn line * 64) 64 d.toNat
      chk := Memory.putN s.mem.chk (lineIn line * 16) 16 (leNat (delta.map (fun v => BitVec.ofNat 8 v))) } }

/-- The partition whose window holds a line (R179): none when no window does. -/
def State.linePart (s : State) (line : Nat) : Option Nat := (List.range 64).find? (fun p => s.inWindows p (line * 64))

/-- R175: the number of a bank of a controller: subchannel, logical rank and bank. -/
def State.bankKey (s : State) (line : Nat) : Nat :=
  let a := s.dramAt (line * 64)
  (mcOf (line * 64) * 2 + a.1) * 1024 + a.2.2.2.2 * 32 + s.bankAt (line * 64)

/-- R175: the row of a line. -/
def State.rowOf (s : State) (line : Nat) : Nat := (s.dramAt (line * 64)).2.1

/-- R182: the line's DRAM accesses close their row: its partition is ISO-T. -/
def State.closedRow (s : State) (line : Nat) : Bool := (s.linePart line).any (fun p => s.isot p)

/-- Picoseconds rounded up to whole F-cycles of 500 ps (R173). -/
def psToF (ps : Nat) : Nat := (ps + 499) / 500

/-- R173: the burst term at the programmed speed. -/
def State.burstF (s : State) (mc : Nat) : Nat := [7, 7, 6, 6, 5].getD (s.fget .mcCfgSpeed mc) 5

/-- R139, R173: F-cycles from a lookup's F-cycle to the launch of a fill read from DRAM, by the state of its bank's row. -/
def State.dramTime (s : State) (line : Nat) : Nat :=
  let cas := psToF s.mem.taaPs + 3
  let act := psToF s.mem.trcdPs
  let pre := psToF s.mem.trpPs
  let base := 20 + cas + s.burstF (mcOf (line * 64))
  if s.closedRow line then base + act
  else
    match Tab.find s.mem.rows (s.bankKey line) with
    | none => base + act
    | some r => if r = s.rowOf line then base else base + act + pre

/-- The row state after an access: left open, or closed under R182. DEDUCED (log 8): an ISO-F access leaves its row open. -/
def State.openRow (s : State) (line : Nat) : State :=
  { s with mem := { s.mem with rows := if s.closedRow line then Tab.del s.mem.rows (s.bankKey line)
                                       else Tab.ins s.mem.rows (s.bankKey line) (s.rowOf line) } }

/-- R327: the events of a DRAM command of a line. -/
def State.dramEvents (s : State) (line : Nat) (write : Bool) : State :=
  let mc := mcOf (line * 64)
  let p := (s.linePart line).getD 64
  let hit := !s.closedRow line && Tab.find s.mem.rows (s.bankKey line) == some (s.rowOf line)
  ((s.pev 1 (if write then 3 else 2) mc p 1).pev 1 (if hit then 5 else 4) mc p 1).bytes 0 mc p (!write) 64

/-- R178: a line written to DRAM with a fresh codeword, or as the poison codeword of R186. -/
def State.dramWrite (s : State) (line : Nat) (d : LineData) (poison : Bool) : State :=
  ((s.dramEvents line true).openRow line).dramStore line (if poison then 0 else d) (if poison then rsPoison else [])

/-- MC_MARKr: the marked device of a line's subchannel and rank (R185). -/
def State.markOf (s : State) (line : Nat) : Option Nat :=
  let a := s.dramAt (line * 64)
  let mc := mcOf (line * 64)
  if a.1 = 0 then (if s.fget .mcMarkAv mc a.2.2.2.2 = 1 then some (s.fget .mcMarkAdev mc a.2.2.2.2) else none)
  else (if s.fget .mcMarkBv mc a.2.2.2.2 = 1 then some (s.fget .mcMarkBdev mc a.2.2.2.2) else none)

/-- R184: the decode of a line read with symbol errors on its way. -/
def State.decodeLine (s : State) (line : Nat) (errs : List SymErr) : Decoded :=
  let d := errs.foldl (fun d e => if 16 ≤ e.pos then xorSym d (e.pos - 16) e.xor else d) (s.dramLine line)
  let e := (s.dramDelta line).zipIdx.map (fun (v, j) => (j, v)) ++ errs.map (fun e => (e.pos, e.xor % 256))
  eccDecode d (e.filter (fun v => v.2 ≠ 0)) (s.markOf line)

/-- R197: a line is suspect: its bank is, and its unit has not been fired since the check. -/
def State.suspect (s : State) (line : Nat) : Bool :=
  let a := s.dramAt (line * 64)
  !s.mem.refired.contains (lineIn line / 2 ^ 24) && bit (s.rget .mcSuspect (mcOf (line * 64)) a.2.2.2.2) (a.1 * 32 + s.bankAt (line * 64))

/-- R195: the page of a line is retired. -/
def State.retiredPage (s : State) (line : Nat) : Bool := s.home.retired.contains (line / 64)

/-- R262: an address lies in a core's enabled spill area. -/
def State.inSpill (s : State) (pa : Nat) : Bool :=
  (s.regsOf .pwrSpill).any (fun e => bit e.2.2 0 && decide (bits e.2.2 20 32 = pa / 2 ^ 20))

/-- R188 steps 1 to 4: why the home's lookup refuses a line of this package. -/
def State.homeReason (s : State) (line : Nat) : Option Nat :=
  let pa := line * 64
  if s.canary pa || s.inCarve pa || s.inSpill pa then some rOutsideWindow
  else if !s.fired (pa % 2 ^ 44 / 2 ^ 30) then some rNotFired
  else if s.suspect line then some rRetentionLost
  else if s.retiredPage line then some rRetiredPage
  else if s.fget .mcCfgUp (mcOf pa) = 0 then some rDeviceError
  else none

/-- R177: the set of a line within its slice's part. -/
def mscSet (line : Nat) : Nat := line / 16 % 8192

/-- An MSC line. -/
def State.msc (s : State) (line : Nat) : Option Msc := Tab.find s.home.msc line

/-- An MSC line set. -/
def State.setMsc (s : State) (line : Nat) (m : Msc) : State := { s with home := { s.home with msc := Tab.ins s.home.msc line m } }

/-- An MSC line dropped without writeback. -/
def State.dropMsc (s : State) (line : Nat) : State := { s with home := { s.home with msc := Tab.del s.home.msc line } }

/-- R178: a victim leaves the MSC: a dirty one is written to DRAM, with P as the poison codeword. -/
def State.evictMsc (s : State) (line : Nat) : State :=
  match s.msc line with
  | none => s
  | some m => if m.d then (s.dropMsc line).dramWrite line m.data m.p else s.dropMsc line

/-- R179: the allocation mask of a line. -/
def State.mscMask (s : State) (line : Nat) : Nat := s.fget .hsMscwayWays (sliceOf line) ((s.linePart line).getD 0)

/-- R127: the line's presence vector. -/
def State.vecOf (s : State) (line : Nat) : BitVec 8 := Tab.get 0 s.home.vec line

/-- R178, R179: a line installed in the MSC, in its way if it has one, else in a way of its mask: a free one, or the
pseudo-LRU victim's. -/
def State.mscInstall (s : State) (line : Nat) (d : LineData) (dirty poison : Bool) : State :=
  let rmt := decide (s.vecOf line ≠ 0)
  match s.msc line with
  | some m => s.setMsc line { m with data := d, d := dirty, p := poison, rmt := rmt }
  | none =>
    let mates := s.home.msc.filter (fun e => sliceOf e.1 == sliceOf line && mscSet e.1 == mscSet line)
    let ways := (List.range 16).filter (fun w => s.mscMask line / 2 ^ w % 2 = 1)
    match ways.find? (fun w => !mates.any (fun e => e.2.way == w)) with
    | some w => s.setMsc line { data := d, d := dirty, p := poison, rmt := rmt, way := w }
    | none =>
      let w := ways.getD (Config.freeWay s.free % ways.length) 0
      let s := match mates.find? (fun e => e.2.way == w) with
        | some e => s.evictMsc e.1
        | none => s
      s.takeFree.setMsc line { data := d, d := dirty, p := poison, rmt := rmt, way := w }

/-- R310: the enabled DMA channels whose trigger line a line is. -/
def State.trigChans (s : State) (line : Nat) : List Nat :=
  ((s.regsOf .dmaChctl).filter (fun e => bit e.2.2 0 && decide (s.fget .dmaChtrigAddr e.1 e.2.1 = line))).map (fun e => e.1 * 32 + e.2.1)

/-- R310: a write at the MSC notifies the channels whose trigger line it writes, 4 F-cycles on (R302); notices merge. -/
def State.trigMatch (s : State) (line : Nat) : State :=
  (s.trigChans line).foldl (fun s ch =>
    let d := Tab.get {} s.dmaCh ch
    { s with dmaCh := Tab.put {} s.dmaCh ch { d with note := d.note.orElse (fun _ => some (s.fcyc + 4)) } }) s

/-- R178: released or snooped data written to the MSC; a retired page discards it (R195), a poisoned line sets P; a trigger line notifies (R310). -/
def State.mscWrite (s : State) (line : Nat) (d : LineData) (poison : Bool) : State :=
  if s.retiredPage line then s else (s.mscInstall line (if poison then 0 else d) true poison).trigMatch line

/-- R130, R131: the home stores the poison codeword for a line. -/
def State.poisonLine (s : State) (line lost : Nat) : State :=
  (s.mscWrite line 0 true).logEvent { cls := 2, event := 0x31, kind := 3, idx := sliceOf line, part := s.linePart line
                                      reason := rPoisoned, addr := line * 64, detail := lost }

/-- MC_ECCLAST as a log record's detail. -/
def eccDetail (d : Decoded) (line : Nat) (patrol : Bool) : Nat :=
  (match d.out with | .clean => 0 | .corrected => 1 | .poisoned => 2 | .uncorrectable => 3) + b2n patrol * 8 +
    devMask d.fixed * 16 + d.fixed.length * 2 ^ 14 + chanLine (line * 64) * 2 ^ 18

/-- R184, MC_ECCSTAT, MC_ECCLAST, R188: the outcome of a demand or patrol read counted and logged. -/
def State.eccCount (s : State) (line : Nat) (d : Decoded) (patrol : Bool) : State :=
  let mc := mcOf (line * 64)
  let s := match d.out with
    | .clean => s
    | .corrected | .poisoned | .uncorrectable => s.rput .mcEcclast mc 0 (BitVec.ofNat 64 (eccDetail d line patrol))
  let ev : Ev := { cls := 1, event := 0x10, kind := 4, idx := mc, part := s.linePart line, addr := line * 64, detail := eccDetail d line patrol }
  match d.out with
  | .clean => s
  | .corrected => ((s.fbump .mcEccstatCorr mc 0).pev 1 6 mc ((s.linePart line).getD 64) 1).logEvent ev
  | .poisoned =>
    let s := s.fbump .mcEccstatPois mc 0
    if patrol then s else s.logEvent { ev with cls := 2, event := 0x11, reason := rPoisoned }
  | .uncorrectable => (s.fbump .mcEccstatUncorr mc 0).logEvent { ev with cls := 2, event := 0x11, reason := rEccUncorrectable }

/-- R256, R185, R195: whether a package-wide function is in HW mode. -/
def State.hwMode (s : State) (fn : Nat) : Bool := bit s.kiln.modes fn

end Sys2Proof.Machine
end

