-- ==== Sys2Proof/Machine/Home.lean ====
section
/-! DEFINITION. The home slice: duplicate tags, trackers, lookup, grants, answers and releases (R101 to R119, R125 to R132, R143,
R145, R148, R372). -/

namespace Sys2Proof.Machine

/-- A home slice. -/
def State.slice (s : State) (n : Nat) : Slice := Tab.get {} s.home.slices n

/-- A home slice changed. -/
def State.modSlice (s : State) (n : Nat) (f : Slice → Slice) : State :=
  { s with home := { s.home with slices := Tab.put {} s.home.slices n (f (s.slice n)) } }

/-- R102: the duplicate entries of a line. -/
def State.holders (s : State) (line : Nat) : List Dup := (s.slice (sliceOf line)).dup.filter (fun d => d.line == line)

/-- R102: the entry of a core for a line. -/
def State.dupOf (s : State) (line core : Nat) : Option Dup := (s.holders line).find? (fun d => d.core == core)

/-- A duplicate entry cleared. -/
def State.dupDel (s : State) (line core : Nat) : State :=
  s.modSlice (sliceOf line) (fun sl => { sl with dup := sl.dup.filter (fun d => !(d.line == line && d.core == core)) })

/-- A duplicate entry set. -/
def State.dupSet (s : State) (line core : Nat) (m : Bool) (way : Nat) : State :=
  (s.dupDel line core).modSlice (sliceOf line) (fun sl => { sl with dup := sl.dup ++ [{ line := line, core := core, m := m, way := way }] })

/-- R125: a presence vector set; the MSC's RMT and the directory cache follow (R127). -/
def State.setVec (s : State) (line : Nat) (v : BitVec 8) : State :=
  let dc := s.home.dirc.filter (· != line)
  let s := { s with home := { s.home with vec := Tab.put 0 s.home.vec line v
                                          dirc := if v = 0 then dc else dc ++ [line] } }
  match s.msc line with
  | some m => s.setMsc line { m with rmt := decide (v ≠ 0) }
  | none => s

/-- R125: the line is homed in this package. -/
def State.homed (s : State) (line : Nat) : Bool := decide (pkgOf (line * 64) = s.pkg)

/-- R125: packages other than this one whose presence bit is set. -/
def State.sharers (s : State) (line : Nat) : List Nat :=
  (List.range 8).filter (fun q => q ≠ s.pkg && bit (s.vecOf line) q)

/-- R125: OWNED: one other package holds the line in M. -/
def State.owned (s : State) (line : Nat) : Bool := bit (s.vecOf line) s.pkg

/-- R145: the wheel slot of an F-cycle: its owner, if a partition owns it. -/
def State.slotOwner (s : State) (sl f : Nat) : Option Nat :=
  let n := (f - s.fBase) % 64
  let w := s.rget .hsWheel sl (n / 8)
  if bit w (8 * (n % 8) + 6) && decide (n % 4 ≠ 3) then some (bits w (8 * (n % 8)) 6) else none

/-- R145: a request of a partition may use the slot of an F-cycle: its own one, or an open one for ISO-F. -/
def State.slotAllows (s : State) (sl f p : Nat) : Bool :=
  match s.slotOwner sl f with
  | some o => decide (o = p)
  | none => !s.isot p

/-- HS_TRKCFG.INUSE and PEAK follow the trackers held. -/
def State.countTrk (s : State) (sl : Nat) : State :=
  let n := (s.slice sl).trk.length
  (s.fput .hsTrkcfgInuse sl 0 n).fput .hsTrkcfgPeak sl 0 (max (s.fget .hsTrkcfgPeak sl) n)

/-- A line's active tracker, one whose snoop requests come from another package (R128) apart. -/
def Slice.busy (sl : Slice) (line : Nat) : Option Trk :=
  sl.trk.find? (fun t => t.req.line == line && t.active && t.rhome == 8)

/-- R105: the tracker a line is busy with, changed. -/
def State.modTrk (s : State) (n line : Nat) (f : Trk → Trk) : State :=
  s.modSlice n (fun sl => { sl with trk := sl.trk.map (fun t => if t.req.line = line ∧ t.active ∧ t.rhome = 8 then f t else t) })

/-- R103, R104, R140: a response of a slice to a requester: a core of this package, arriving three F-cycles after its launch, or another
package over the reel. -/
def State.respond (s : State) (r : Msg) (kind : MsgKind) (op : ReelOp) (launch : Nat) (data : Option LineData) (status : Nat) (val : W64 := 0) : State :=
  let m := { r with kind := kind, data := data.getD 0, hasData := data.isSome, status := status, val := val, at_ := 0 }
  if r.pkg = s.pkg then s.send m (launch + 3 + s.lineDelay (dieOf r.core) 8 data.isSome)
  else s.reelSend r.pkg { op := op, m := m }

/-- R109: LONG, at most one per request, to a requester of this package (another package's slice has sent its own, R128). -/
def State.sendLong (s : State) (n : Nat) (t : Trk) (launch : Nat) : State :=
  if t.long || t.noReq || decide (t.req.pkg ≠ s.pkg) then s
  else ((s.modTrk n t.req.line (fun t => { t with long := true })).send { t.req with kind := .long } (launch + 3)).pev 0 9 n t.req.part 1

/-- R108, R143: a tracker that has granted and awaits no answer closes in an F-cycle: the credit returns, and the line queue's head is ready in the
next one. -/
def State.closeAt (s : State) (n line f : Nat) : State :=
  match (s.slice n).busy line with
  | none => s
  | some t =>
    if t.granted && !t.closed && t.snp.isEmpty && t.rsnp.isEmpty then
      let s := s.modTrk n line (fun t => { t with timer := f, closed := true })
      if t.reel || t.noReq then s
      else s.send { kind := .credit, core := t.req.core, part := t.req.part, slice := n } (f + 3)
    else s

/-- R105: trackers that have closed leave, and the heads of their lines' queues become ready. -/
def State.tidy (s : State) (n : Nat) : State :=
  let sl := s.slice n
  let closed := sl.trk.filter (fun t => t.active && t.rhome == 8 && t.closed && decide (t.timer < s.fcyc))
  let s := closed.foldl (fun s t => s.modSlice n (fun sl =>
    let trk := sl.trk.filter (fun u => !(u.req.line == t.req.line && u.active && u.rhome == 8))
    if trk.any (fun u => u.req.line == t.req.line && !u.active) then { sl with trk := trk, rdy := sl.rdy ++ [t.req.line] } else { sl with trk := trk })) s
  s.countTrk n

/-- R110, R103: a snoop launched to a core of this package, arriving three F-cycles later. -/
def State.snoop (s : State) (n line core : Nat) (inv : Bool) (launch : Nat) : State :=
  (s.send { kind := if inv then .snpInv else .snpShd, line := line, core := core, slice := n } (launch + 3)).pev 0 8 n
    ((s.linePart line).getD 64) 1

/-- R107, R114, R117: what a request does to other copies: invalidates them, or (RD_S, CLEAN) only takes M back to S. -/
def invalidates (r : Msg) : Bool :=
  match r.kind with
  | .rdS => false
  | .amoH => decide (r.far ≠ .clean)
  | _ => true

/-- R107: the request needs the line's data to answer: not a UPG of a holder, not RD_M with ZERO. -/
def Trk.needsData (t : Trk) : Bool :=
  !t.noReq && match t.req.kind with
  | .upg => false
  | .rdM => !t.req.flag
  | _ => true

/-- R108: every copy that a request must remove is known gone. -/
def State.copiesGone (s : State) (t : Trk) : Bool :=
  let q := t.req.pkg
  if invalidates t.req then
    (s.holders t.req.line).all (fun d => decide (q = s.pkg) && decide (d.core = t.req.core)) &&
      (!s.homed t.req.line || (s.sharers t.req.line).all (fun p => decide (p = q) && t.rsnp.all (· != p)))
  else true

/-- R114, R116: the far operation on a line's data: the new data, if it changes, and the old value. -/
def farOp (op : FarOp) (d : LineData) : Option LineData × W64 :=
  match op with
  | .amo op sz arg addr =>
    let old := lineLoad d addr sz true
    (some (lineStore d addr sz (amoFn op sz old arg)), old)
  | .clean => (none, 0)
  | .flush => (none, 0)

/-- R107, R125, R128: the holder that a grant makes: the requester's duplicate entry, or its package's bits. -/
def State.grantTo (s : State) (r : Msg) (m : Bool) : State :=
  if r.pkg = s.pkg then
    let s := if s.dieOut (dieOf r.core) then s else s.dupSet r.line r.core m r.way
    if m && s.homed r.line then s.setVec r.line 0 else s
  else
    let v := if m then BitVec.ofNat 8 (2 ^ r.pkg + 2 ^ s.pkg) else s.vecOf r.line ||| BitVec.ofNat 8 (2 ^ r.pkg)
    s.setVec r.line v

/-- R104: the response's kind for a request that gets no grant. -/
def refuseKind (k : MsgKind) : MsgKind × ReelOp :=
  match k with
  | .rdS => (.dataS, .dataS)
  | .amoH => (.amoRet, .amoRet)
  | _ => (.dataM, .dataM)

/-- R104, R188: a request ends with an access reason: no data, nothing granted. -/
def State.refuse (s : State) (n : Nat) (t : Trk) (launch reason : Nat) : State :=
  let k := refuseKind t.req.kind
  let s := if t.noReq then s else s.respond t.req k.1 k.2 launch none reason
  (s.modTrk n t.req.line (fun t => { t with granted := true, fail := reason })).closeAt n t.req.line launch

/-- R108: a tracker has granted, and closes in an F-cycle if nothing else holds it. -/
def State.grantDone (s : State) (n line f : Nat) : State := (s.modTrk n line (fun t => { t with granted := true })).closeAt n line f

/-- R116, R117: what a far operation leaves of its line is written at the home. -/
def State.farWrite (s : State) (line : Nat) (d : Option LineData) : State :=
  match d with
  | some d => s.mscWrite line d false
  | none => s

/-- R107, R108, R116: a tracker's request with its data is granted: its response, then the tracker's close. -/
def State.grantNow (s : State) (n line launch : Nat) (t : Trk) : State :=
  let r := t.req
  if r.kind = .upg then ((s.grantTo r true).respond r .ackUpg .ackUpg launch none 0).grantDone n line launch
  else if r.kind = .amoH then
    match t.data with
    | some d => ((if t.noReq then (s.farWrite line (farOp r.far d).1)
        else (s.farWrite line (farOp r.far d).1).respond r .amoRet .amoRet (launch + 1) none 0 (farOp r.far d).2)).grantDone n line (launch + 1)
    | none => if t.noReq then s.grantDone n line launch else s
  else if r.kind = .rdM then
    if r.flag then ((s.grantTo r true).respond r .dataM .dataM launch none 0).grantDone n line launch
    else
      match t.data with
      | some d => ((s.grantTo r true).respond r .dataM .dataM launch (some d) 0).grantDone n line launch
      | none => s
  else if r.kind = .rdS then
    match t.data with
    | some d => ((s.grantTo r false).respond r .dataS .dataS launch (some d) 0).grantDone n line launch
    | none => s
  else s

/-- R107, R108, R116: a tracker that has what its response needs grants, its response launched no earlier than F-cycle `launch`. -/
def State.tryGrant (s : State) (n line launch : Nat) : State :=
  match (s.slice n).busy line with
  | none => s
  | some t =>
    if t.granted || t.dram || t.remote || t.redo then s
    else if t.fail ≠ 0 then s.refuse n t (max launch t.ready) t.fail
    else if !s.copiesGone t then s
    else s.grantNow n line (max launch t.ready) t

/-- R128: remote snoops of a request, after its vector is known: RSNP_SHD to the owner, or RSNP_INV to every package whose bit is set, the
requester's own copy excluded. -/
def State.snoopRemote (s : State) (n : Nat) (line : Nat) : State :=
  match (s.slice n).busy line with
  | none => s
  | some t =>
    let qs := if invalidates t.req then s.sharers line else if s.owned line then s.sharers line else []
    let inv := invalidates t.req
    let s := qs.foldl (fun s q =>
      s.reelSend q { op := if inv then .rsnpInv else .rsnpShd, m := { t.req with slice := n }
                     excl := decide (q = t.req.pkg) }) s
    if qs.isEmpty then s
    else s.modTrk n line (fun t => { t with rsnp := qs, data := if s.owned line then none else t.data, timer := s.fcyc })

/-- R109, R139, R173: a DRAM read of a line for its tracker: LONG, and the data in the time its bank's row gives. -/
def State.startDram (s : State) (n : Nat) (t : Trk) : State :=
  let line := t.req.line
  let rd : DramRd := { slice := n, line := line, ready := s.fcyc + s.dramTime line }
  let s := ((s.sendLong n t (s.fcyc + 1)).dramEvents line false).openRow line
  ({ s with mem := { s.mem with reads := s.mem.reads ++ [rd] } }).modTrk n line (fun t => { t with dram := true, timer := s.fcyc })

/-- R127: the vector of a line is at hand: one package, no vector, or in the directory cache. -/
def State.vecKnown (s : State) (line : Nat) : Bool :=
  decide (s.npkg ≤ 1) || decide (s.vecOf line = 0) || s.home.dirc.contains line

/-- R107, R127: a looked-up request without a use for DRAM's data: its vector is read, or it waits for remote answers with LONG, and grants no earlier than
F-cycle `f`. -/
def State.lookupGrant (s : State) (n : Nat) (t : Trk) (f : Nat) : State :=
  let line := t.req.line
  if !s.vecKnown line then (s.pev 0 12 n t.req.part 1).startDram n t
  else (if ((s.slice n).busy line).any (fun t => !t.rsnp.isEmpty) then s.sendLong n t (s.fcyc + 1) else s).tryGrant n line f

/-- R107, R127, R128: the lookup of a request that no local owner answers: remote snoops, the MSC and DRAM. -/
def State.lookupData (s : State) (n : Nat) (t : Trk) : State :=
  let line := t.req.line
  let s := if s.npkg ≤ 1 || !s.vecKnown line then s else s.snoopRemote n line
  if s.owned line && s.vecKnown line then s.sendLong n t (s.fcyc + 1)
  else if !t.needsData then s.lookupGrant n t (s.fcyc + 1)
  else
    match s.msc line with
    | some m =>
      ((s.pev 0 6 n t.req.part 1).modTrk n line (fun t =>
        { t with data := some m.data, fail := if m.p then rPoisoned else 0, ready := s.fcyc + 3 })).lookupGrant n t (s.fcyc + 3)
    | none => (s.pev 0 7 n t.req.part 1).startDram n t

/-- R107: the copies of this package that a request's lookup snoops. -/
def State.lookupSnoops (s : State) (r : Msg) : List Dup :=
  let others := (s.holders r.line).filter (fun d => !(decide (r.pkg = s.pkg) && d.core == r.core))
  if invalidates r then others else others.filter (fun d => d.m)

/-- R107: the request as it is looked up: an UPG of a requester that holds no copy any more is an RD_M for the data. -/
def State.lookupReq (s : State) (r : Msg) : Msg :=
  let holds := if r.pkg = s.pkg then (s.dupOf r.line r.core).isSome else bit (s.vecOf r.line) r.pkg
  if r.kind = .upg && !holds then { r with kind := .rdM, flag := false } else r

/-- R107, R127, R128: the lookup of an admitted request for a line homed in this package. -/
def State.lookupHome (s : State) (n : Nat) (t : Trk) : State :=
  let line := t.req.line
  match (if t.noReq then none else s.homeReason line) with
  | some reason => s.refuse n t (s.fcyc + 1) reason
  | none =>
    let r := s.lookupReq t.req
    let snp := s.lookupSnoops r
    let t := { t with req := r, snp := snp.map (fun d => d.core), timer := s.fcyc }
    let s := snp.foldl (fun s d => s.snoop n line d.core (invalidates r) (s.fcyc + 1)) (s.modTrk n line (fun _ => t))
    if snp.any (fun d => d.m) then s else s.lookupData n t

/-- R128: the lookup of a request of this package for a line homed in another: LONG, and the request goes to its home; R131: a lost
home's requests complete with PEER_LOST. -/
def State.lookupRemote (s : State) (n : Nat) (t : Trk) : State :=
  let q := pkgOf (t.req.line * 64)
  let op : ReelOp := match t.req.kind with | .rdS => .rdS | .upg => .upg | .amoH => .amoH | _ => .rdM
  if !s.member q then s.refuse n t (s.fcyc + 1) rPeerLost
  else
    let s := s.sendLong n t (s.fcyc + 1)
    (s.modTrk n t.req.line (fun t => { t with remote := true, timer := s.fcyc })).reelSend q { op := op, m := t.req }

/-- R105: an admitted request looks its line up. -/
def State.lookup (s : State) (n : Nat) (t : Trk) : State :=
  if s.homed t.req.line then s.lookupHome n t else s.lookupRemote n t

/-- R145: the data of a release leaves the slice's write buffer for the MSC, and its acknowledgement follows. -/
def State.writeReleased (s : State) (n : Nat) (m : Msg) : State :=
  let s := s.mscWrite m.line m.data m.poison
  if m.pkg = s.pkg then s.send { m with kind := .wbAck, slice := n } (s.fcyc + 3) else s.reelSend m.pkg { op := .wbAck, m := m }

/-- R145: released data of a line written at once, before a lookup reads it. -/
def State.flushWbuf (s : State) (n line : Nat) : State :=
  let ms := (s.slice n).wbuf.filter (fun m => m.line == line)
  ms.foldl (fun s m => s.writeReleased n m) (s.modSlice n (fun sl => { sl with wbuf := sl.wbuf.filter (fun m => m.line != line) }))

/-- R128: a remote snoop's tracker in this package has every holder's answer: it answers the home. -/
def State.remoteAnswer (s : State) (n : Nat) (t : Trk) : State :=
  let m := { t.req with data := t.data.getD 0, hasData := t.data.isSome, poison := decide (t.fail ≠ 0), flag := !(s.holders t.req.line).isEmpty }
  (s.modSlice n (fun sl => { sl with trk := sl.trk.erase t })).reelSend t.rhome { op := if t.data.isSome then .rsnpData else .rsnpAck, m := m }

/-- R108, R112: a core's copy of a line is known gone or clean, with its data if it was M: trackers take it. `answer` tells a snoop answer
from a release. -/
def State.copyEnds (s : State) (n line core : Nat) (data : Option LineData) (poison answer : Bool) : State :=
  let waits := fun (t : Trk) => decide (t.req.line = line) && t.active && t.snp.contains core
  let upd := fun (t : Trk) =>
    if waits t then
      { t with snp := if answer then t.snp.filter (· != core) else t.snp, timer := if answer && t.rhome == 8 then s.fcyc else t.timer
               data := match data with | some d => some d | none => t.data
               fail := if data.isSome && poison then rPoisoned else t.fail }
    else t
  let s := s.modSlice n (fun sl => { sl with trk := sl.trk.map upd })
  let s := ((s.slice n).trk.filter (fun t => t.rhome != 8 && t.req.line == line && t.snp.isEmpty)).foldl (fun s t => s.remoteAnswer n t) s
  s

/-- R129: the last L2 of this package lets a line homed elsewhere go: the release is forwarded, and answered when the home
has acknowledged it. -/
def State.forwardRelease (s : State) (n : Nat) (m : Msg) : State :=
  (s.modSlice n (fun sl => { sl with fwd := sl.fwd ++ [m] })).reelSend (pkgOf (m.line * 64)) { op := if m.kind = .wb then .wb else .evc, m := m }

/-- After a release or an answer, the line's tracker may grant, and may close. -/
def State.settle (s : State) (n line : Nat) : State :=
  let s := match (s.slice n).busy line with
    | some t => if !t.granted && !t.needsData || t.data.isSome || t.fail ≠ 0 then s.tryGrant n line s.fcyc else s
    | none => s
  s.closeAt n line s.fcyc

end Sys2Proof.Machine
end

