-- ==== Sys2Proof/Machine/Fence.lean ====
section
/-! DEFINITION. What the package does when a compute die is fenced (R130, R166, R341). -/

namespace Sys2Proof.Machine

/-- The cores of a die. -/
def coresOf (d : Nat) : List Nat := (List.range 20).map (fun i => d * 20 + i)

/-- R130: the duplicate entry of a core that is lost: S is cleared; M poisons the line at its home. -/
def State.loseHolder (s : State) (d : Nat) (e : Dup) : State :=
  let s := s.dupDel e.line e.core
  if !e.m then s
  else if s.homed e.line then s.poisonLine e.line d
  else s.forwardRelease (sliceOf e.line) { kind := .wb, line := e.line, core := e.core, pkg := s.pkg, poison := true, hasData := true }

/-- R130: a home slice answers on the behalf of a lost core, and its entries go. -/
def State.sliceLoses (s : State) (d n : Nat) : State :=
  let waits := (s.slice n).trk.flatMap (fun t => (t.snp.filter (fun c => dieOf c == d)).map (fun c => (t.req.line, c)))
  let s := waits.foldl (fun s (w : Nat × Nat) =>
    let m := (s.dupOf w.1 w.2).any (fun e => e.m)
    s.copyEnds n w.1 w.2 (if m then some 0 else none) m true) s
  let ents := (s.slice n).dup.filter (fun e => dieOf e.core == d)
  let s := ents.foldl (fun s e => s.loseHolder d e) s
  let s := s.modSlice n (fun sl => { sl with arr := sl.arr.filter (fun m => !(m.pkg == s.pkg && dieOf m.core == d))
                                             rcOut := sl.rcOut.filter (fun o => dieOf o.2 != d) })
  waits.foldl (fun s (w : Nat × Nat) => s.settle n w.1) s

/-- Upward messages, whose sender is a core. -/
def upward (k : MsgKind) : Bool :=
  match k with
  | .rdS | .rdM | .upg | .amoH | .wb | .evc | .snpAck | .snpData => true
  | _ => false

/-- R341: a core lost with its die: every context EMPTY with no drain, COMPLETE sent for its vectors, the core held in reset. -/
def State.loseCore (s : State) (c : Nat) : State :=
  let s := (s.core c).ctxs.foldl (fun s e => if e.2.st = .empty then s else s.sendComplete (s.hartid c e.1) 64) s
  s.setCore c { cycBase := s.cyc c, cycRef := s.now, clockOn := false, rst := true }

/-- R166, R130, R341: a die is fenced with a cause: it is held in reset, its cores are lost, the home slices answer for it, and the fence is
logged, with a record for each partition that had cores there. -/
def State.fenceDie (s : State) (d cause : Nat) : State :=
  if s.fget .slpDstatState d = 2 then s
  else
    let parts := (List.range 64).filter (fun p => (coresOf d).any (fun c => s.partHasCore p c))
    let s := (s.fput .slpDstatState d 0 2).fput .slpDstatFenceCause d 0 cause
    let s := s.modDie d (fun x => { fuses := x.fuses, rstHeld := true })
    let s := { s with fab := { s.fab with
        net := s.fab.net.filter (fun m => !((upward m.kind || decide (m.kind = .credit) || decide (m.pkg = s.pkg)) && dieOf m.core == d &&
          decide (m.kind ≠ .complete)))
        egress := s.fab.egress.filter (fun m => dieOf m.core != d)
        used := s.fab.used.filter (fun e => e.1 / 16 / 64 != d)
        devs := s.fab.devs.filter (fun v => match v.who with | .ctx c _ => dieOf c != d | .host => true | .kiln => true)
        shoots := s.fab.shoots.map (fun x => (x.1, x.2.1, x.2.2.1.filter (fun c => dieOf c != d), x.2.2.2)) } }
    let s := (coresOf d).foldl (fun s c => s.loseCore c) s
    let s := (List.range 16).foldl (fun s n => s.sliceLoses d n) s
    let ev : Ev := { cls := 2, event := 0x22, kind := 2, idx := d, detail := cause }
    if parts.isEmpty then s.logEvent ev else parts.foldl (fun s p => s.logEvent { ev with part := some p }) s

/-- R344: an uncontainable error of a core's L2 fences its die with cause 6. -/
def State.fenceCore (s : State) (c : Nat) : State := s.fenceDie (dieOf c) 6

end Sys2Proof.Machine
end

