-- ==== Sys2Proof/Machine/Access.lean ====
section
/-! DEFINITION. Accesses that bypass the caches: non-coherent accesses at the MSC (R120, R216) and device accesses to root ports and
control space (R37, R64, R74). -/

namespace Sys2Proof.Machine

/-- Pieces of a byte range that do not cross a line: offset and length, for at most `n` pieces. -/
def linePieces (a len : Nat) : Nat → List (Nat × Nat)
  | 0 => []
  | n + 1 =>
    if len = 0 then []
    else
      let k := min len (64 - a % 64)
      (a, k) :: linePieces (a + k) (len - k) n

/-- A number for an access in flight. -/
def State.newId (s : State) : Nat × State := (s.fab.devNext, { s with fab := { s.fab with devNext := s.fab.devNext + 1 } })

/-- R120, R216: a non-coherent access leaves its agent: to the slice of the line's home in this package, arriving `way` F-cycles
later, or over the reel to another. Its number is answered too. -/
def State.ncSend (s : State) (agent : Agent) (use : NcUse) (write : Bool) (pa len : Nat) (val : LineData) (poison : Bool) (way : Nat) : Nat × State :=
  let (id, s) := s.newId
  let r : NcReq := { id := id, agent := agent, use := use, write := write, pa := pa, len := len, val := val, poison := poison, at_ := s.fcyc + way }
  if pkgOf pa = s.pkg then (id, { s with home := { s.home with ncq := s.home.ncq ++ [r] } })
  else
    let m : Msg := { kind := if write then .rdM else .rdS, line := pa / 64, tag := id, pkg := s.pkg, data := val, hasData := write
                     poison := poison, arg := pa % 64 }
    let s := { s with home := { s.home with ncDone := s.home.ncDone ++ [{ r with dram := true }] } }
    (id, s.reelSend (pkgOf pa) { op := if write then .ncwr else .ncrd, m := m, len := len })

/-- R37, R64: a device access launched: to control space or a root port of this package. -/
def State.devSend (s : State) (who : Req) (pa sz : Nat) (write : Bool) (val : W64) : Nat × State :=
  let (id, s) := s.newId
  let d : Dev := { id := id, who := who, pa := pa, sz := sz, write := write, val := val, at_ := s.fcyc }
  (id, { s with fab := { s.fab with devs := s.fab.devs ++ [d] } })

/-- R37, R62: a core's access that no cache serves, by the memory type of its address: system memory at the MSC, else the device. -/
def State.directSend (s : State) (c i pa sz : Nat) (write : Bool) (val : W64) : State :=
  if s.isDevice pa then (s.devSend (.ctx c i) pa sz write val).2
  else (s.ncSend (.core c i) .plain write pa (2 ^ sz) (val.zeroExtend 512) false 3).2

end Sys2Proof.Machine
end

