-- ==== Sys2Proof/Machine/Control.lean ====
section
/-! DEFINITION. How an access of control space reaches its register: by whom, by which width, and with what end (R7 to R10, R64,
R74). -/

namespace Sys2Proof.Machine

/-- R8: whether a requester may reach an offset of control space. -/
def State.mayReach (s : State) (q : Req) (off : Nat) : Bool :=
  match q with
  | .host => true
  | .kiln => true
  | .ctx c _ => (s.corePart c).any (fun p => s.plat p || inMailbox p off)

/-- The physical address of an offset of this package's control space (R4). -/
def State.ctlPa (s : State) (off : Nat) : Nat := 0xF000000000000 + s.pkg * 0x10000000000 + off

/-- R64: the oldest device access of a context that has not been performed. -/
def State.devNextOf (s : State) (c i : Nat) : Option Dev :=
  s.fab.devs.find? (fun d => decide (d.who = .ctx c i) && d.done.isNone)

/-- A device access performed, with its status and the data it read. -/
def State.devDone (s : State) (id status : Nat) (rdata : W64) : State :=
  { s with fab := { s.fab with devs := s.fab.devs.map (fun (d : Dev) => if d.id = id then { d with done := some status, rdata := rdata } else d) } }

/-- R8, R9, R64, R133: a write of a register of 2^sz bytes. The control host's and the kiln's acts at once. A core's is the oldest device access of
its context, arrived on the die's MMIO stream; without the right or the width it ends with OUTSIDE_WINDOW. -/
def State.ctlWrite (s : State) (q : Req) (off sz : Nat) (v : W64) (f : State → State) : Out :=
  match q with
  | .host => .next (f s)
  | .kiln => .next (f s)
  | .ctx c i =>
    match s.devNextOf c i with
    | none => .next s
    | some d =>
      if d.write && d.pa == s.ctlPa off && d.val.toNat % 2 ^ (8 * 2 ^ d.sz) == v.toNat && decide (d.at_ + 3 ≤ s.fcyc) then
        if s.mayReach q off && d.sz == sz then .next ((f s).devDone d.id 0 0) else .next (s.devDone d.id rOutsideWindow 0)
      else .next s

/-- A write of a register of 64 bits, by its kind and index (R9). -/
def State.regWrite (s : State) (q : Req) (k : RegKind) (i j : Nat) (v : W64) (f : State → State) : Out :=
  if k.has i j then s.ctlWrite q (k.addr i j) 3 v f else .next s

end Sys2Proof.Machine
end

