-- ==== Sys2Proof/Machine/Xlate.lean ====
section
/-! DEFINITION. Address translation: when it applies, PMP, the TLBs, the hashed table and its walks (R61, R75 to R91, R371). -/

namespace Sys2Proof.Machine

/-- The kind's page-fault cause (R75). -/
def AKind.pageFault : AKind → Nat
  | .fetch => 12
  | .load => 13
  | .store => 15
  | .amo => 15
  | .cbo => 15

/-- The kind's access-fault cause. -/
def AKind.accessFault : AKind → Nat
  | .fetch => 1
  | .load => 5
  | .store => 7
  | .amo => 7
  | .cbo => 7

/-- R85: store-kind accesses: store, SC, AMO and CBO.ZERO. -/
def AKind.storeKind : AKind → Bool
  | .fetch => false
  | .load => false
  | .store => true
  | .amo => true
  | .cbo => false

/-- R75: the effective privilege of an access. -/
def Ctx.effPrv (x : Ctx) (kind : AKind) : Prv :=
  if kind = .fetch then x.prv
  else if x.prv = .m && bit x.mstatus 17 && decide (bits x.mstatus 11 2 ≠ 3) then Prv.ofCode (bits x.mstatus 11 2)
  else x.prv

/-- R46 XLT: the listed sizes, up to the first 0. -/
def sizeList (xlt : W64) : List Nat :=
  ((List.range 8).map (fun i => bits xlt (6 * i) 6)).takeWhile (· != 0)

/-- R76: the size list is valid. -/
def sizeListOk (xlt : W64) : Bool :=
  let l := (List.range 8).map (fun i => bits xlt (6 * i) 6)
  let p := l.takeWhile (· != 0)
  p.all (fun s => decide (12 ≤ s) && decide (s ≤ 47)) && (l.drop p.length).all (· == 0) && decide p.Nodup

/-- R75: translation applies to an access. -/
def Ctx.translated (x : Ctx) (kind : AKind) : Bool := decide (bits x.xlt 0 6 ≠ 0) && decide (x.effPrv kind ≠ .m)

/-- R75: bits [63:48] of a virtual address equal bit 47. -/
def canonical (va : Nat) : Bool :=
  decide (va / 2 ^ 47 = 0) || decide (va / 2 ^ 47 = 2 ^ 17 - 1)

/-- R61: the range of a PMP entry, none when it is off; NA4 is held as off. Granularity 4 KiB. -/
def Core.pmpRange (k : Core) (n : Nat) : Option (Nat × Nat) :=
  let cfg := Tab.get 0 k.pmpcfg n
  let a := (Tab.get 0 k.pmpaddr n).toNat
  let mode := bits cfg 3 2
  if mode = 1 then
    let lo := if n = 0 then 0 else (Tab.get 0 k.pmpaddr (n - 1)).toNat / 1024 * 4096
    some (lo, a / 1024 * 4096)
  else if mode = 3 then
    let a := a ||| 0x1FF
    let ones := ctzNat 64 (2 ^ 64 - 1 - a % 2 ^ 64)
    let sz := 2 ^ (ones + 3)
    some (a * 4 / sz * sz, a * 4 / sz * sz + sz)
  else none

/-- R61: the PMP check of an access of a size in a mode. The lowest entry that holds any byte decides; no entry: M passes, S and U fail. -/
def Core.pmpOk (k : Core) (prv : Prv) (kind : AKind) (pa size : Nat) : Bool :=
  let hit := (List.range 16).find? (fun n =>
    match k.pmpRange n with
    | some (lo, hi) => decide (lo < hi) && overlaps pa size lo (hi - lo)
    | none => false)
  match hit with
  | none => decide (prv = .m)
  | some n =>
    let cfg := Tab.get 0 k.pmpcfg n
    let whole := match k.pmpRange n with
      | some (lo, hi) => decide (lo ≤ pa) && decide (pa + size ≤ hi)
      | none => false
    let perm := match kind with
      | .fetch => bit cfg 2
      | .load => bit cfg 0
      | .store => bit cfg 1
      | .amo => bit cfg 0 && bit cfg 1
      | .cbo => bit cfg 0 || bit cfg 1
    whole && ((decide (prv = .m) && !bit cfg 7) || perm)

/-- R84: an entry matches a lookup. -/
def TlbE.hits (e : TlbE) (part asid : Nat) (sizes : List Nat) (va : Nat) : Bool :=
  decide (e.part = part) && decide (e.asid = asid) && sizes.contains e.size && decide (va % 2 ^ 48 / 2 ^ e.size = e.vpn)

/-- R88: a matching entry permits an access of a kind in a mode, with SUM and MXR. -/
def TlbE.permits (e : TlbE) (kind : AKind) (prv : Prv) (sum mxr : Bool) : Bool :=
  let data := (decide (prv ≠ .u) || e.u) && (decide (prv ≠ .s) || !e.u || sum)
  match kind with
  | .fetch => e.x && (decide (prv ≠ .u) || e.u) && (decide (prv ≠ .s) || !e.u)
  | .load => (e.r || (e.x && mxr)) && data
  | .store => e.w && data
  | .amo => e.r && e.w && data
  | .cbo => e.r && data

/-- R80: the physical address an entry gives. -/
def TlbE.pa (e : TlbE) (va : Nat) : Nat := e.ppn * 2 ^ e.size + va % 2 ^ e.size

/-- R84: the STLB set of an entry. -/
def TlbE.set (e : TlbE) : Nat := (e.vpn % 256) ^^^ (e.asid % 256)

/-- The same translation in another level. -/
def TlbE.same (e f : TlbE) : Bool :=
  decide (e.part = f.part) && decide (e.asid = f.asid) && decide (e.size = f.size) && decide (e.vpn = f.vpn)

/-- R87: an entry discarded from every TLB level. -/
def Core.tlbDiscard (k : Core) (e : TlbE) : Core :=
  { k with itlb := k.itlb.filter (fun f => !e.same f), dtlb := k.dtlb.filter (fun f => !e.same f)
           stlb := k.stlb.filter (fun f => !e.same f) }

/-- An entry placed in a first-level TLB of a number of entries; a full one loses the entry a free value names. -/
def tlbPut (l : List TlbE) (cap v : Nat) (e : TlbE) : List TlbE :=
  let l := l.filter (fun f => !e.same f)
  if l.length < cap then l ++ [e] else l.eraseIdx (v % cap) ++ [e]

/-- R84: an entry placed in the STLB of 256 sets of 8 ways. -/
def stlbPut (l : List TlbE) (v : Nat) (e : TlbE) : List TlbE :=
  let l := l.filter (fun f => !e.same f)
  let set := l.filter (fun f => f.set == e.set)
  if set.length < 8 then l ++ [e]
  else match set[v % 8]? with
    | some old => l.filter (fun f => !old.same f) ++ [e]
    | none => l ++ [e]

/-- R86: an entry fills the first-level TLB of its side. -/
def Core.tlbFill1 (k : Core) (fetch : Bool) (v : Nat) (e : TlbE) : Core :=
  if fetch then { k with itlb := tlbPut k.itlb 16 v e } else { k with dtlb := tlbPut k.dtlb 32 v e }

/-- R86: a walk's match fills the STLB and the first level. -/
def Core.tlbFill (k : Core) (fetch : Bool) (v : Nat) (e : TlbE) : Core :=
  ({ k with stlb := stlbPut k.stlb v e }).tlbFill1 fetch v e

/-- The partition number TLB entries of a core carry; 64 for a core of no partition. -/
def State.tlbPart (s : State) (c : Nat) : Nat := (s.corePart c).getD 64

/-- What translation answers: a physical address and memory type, a fault, an STLB hit that fills the first level, or a miss of
both levels. -/
inductive XRes where
  | ok (pa mt : Nat)
  | fault (tr : Trap)
  | refill (e : TlbE)
  | miss (k : Core)
  deriving DecidableEq, Repr

/-- R84, R85, R87: the lookup of a translated access. `v` picks among two matching entries (R97). -/
def Core.lookup (k : Core) (x : Ctx) (part v : Nat) (kind : AKind) (va : Nat) : XRes :=
  let sizes := sizeList x.xlt
  let asid := bits x.xlt 48 16
  let prv := x.effPrv kind
  let ok := fun (e : TlbE) =>
    e.permits kind prv (bit x.mstatus 18) (bit x.mstatus 19) && !(kind.storeKind && e.w && !e.d)
  let l1 := (if kind = .fetch then k.itlb else k.dtlb).filter (fun e => e.hits part asid sizes va)
  match l1[v % l1.length]? with
  | some e => if ok e then .ok (e.pa va) e.mt else .miss (k.tlbDiscard e)
  | none =>
    match sizes.findSome? (fun sz => k.stlb.find? (fun e => decide (e.size = sz) && e.hits part asid sizes va)) with
    | some e => if ok e then .refill e else .miss (k.tlbDiscard e)
    | none => .miss k

/-- R75: the translation of an access: by the table where translation applies, else the virtual address with the type of R62
(0 cacheable, 2 device). -/
def State.xlate (s : State) (c i : Nat) (kind : AKind) (va : Nat) : XRes :=
  let k := s.core c
  let x := k.ctx i
  match (if kind = .fetch then none else x.wfault) with
  | some tr => .fault tr
  | none =>
    if x.translated kind then
      if !canonical va then .fault { cause := kind.pageFault, tval := BitVec.ofNat 64 va }
      else if !sizeListOk x.xlt then .fault { cause := kind.pageFault, tval := BitVec.ofNat 64 va }
      else
        match k.lookup x (s.tlbPart c) (Config.freeWay s.free) kind va with
        | .ok pa mt => .ok pa (if s.isDevice pa then 2 else mt)
        | .fault tr => .fault tr
        | .refill e => .refill e
        | .miss k => .miss k
    else if 2 ^ 52 ≤ va then .ok va 0
    else .ok va (if s.isDevice va then 2 else 0)

/-- R85: a miss of both levels: the context waits for a walk, in request order. -/
def Core.noteMiss (k : Core) (t i : Nat) (kind : AKind) (va : Nat) : Core :=
  let k := if kind = .fetch then k else (k.ev 16 i 1).modCtx i (fun x => { x with sflags := x.sflags ||| 8 })
  { (k.modCtx i (fun x => { x with tmiss := some { va := va, kind := kind, cycle := t } })) with
    walkQ := k.walkQ ++ [(i, decide (kind = .fetch))] }

/-- R81: the key of a virtual address, ASID and size. -/
def hashKey (va asid size : Nat) : Nat :=
  (va % 2 ^ 48 / 2 ^ size) ^^^ (asid * 2 ^ 44 % 2 ^ 64) ^^^ (size * 2 ^ 58 % 2 ^ 64)

/-- R81: the two bucket addresses. -/
def buckets (base : W64) (va asid size : Nat) : Nat × Nat :=
  let n := bits base 8 6
  let b := bits base 16 36 * 2 ^ 16
  let key := hashKey va asid size
  (b + key * 0x9E3779B97F4A7C15 % 2 ^ 64 / 2 ^ (64 - n) * 64, b + key * 0xC2B2AE3D27D4EB4F % 2 ^ 64 / 2 ^ (64 - n) * 64)

/-- R78 to R80: the TLB entry of a bucket position if it matches, with its word0. -/
def bucketEntry (d : LineData) (pos part asid size va : Nat) : Option (TlbE × W64) :=
  let w0 : W64 := BitVec.ofNat 64 (bits d (128 * pos) 64)
  let w1 : W64 := BitVec.ofNat 64 (bits d (128 * pos + 64) 64)
  let sz := bits w0 1 6
  let vpn := bits w1 0 36
  let bad := decide (sz < 12) || decide (47 < sz) || decide (bits w1 52 12 ≠ 0) || decide (vpn % 2 ^ (sz - 12) ≠ 0) ||
    (bit w0 9 && !bit w0 8) || (!bit w0 8 && !bit w0 9 && !bit w0 10) || decide (bits w0 14 2 = 3)
  if bit w0 0 && !bad && decide (sz = size) && decide (bits w1 36 16 = asid) && decide (vpn / 2 ^ (sz - 12) = va % 2 ^ 48 / 2 ^ sz) then
    some ({ part := part, asid := asid, size := sz, vpn := va % 2 ^ 48 / 2 ^ sz, ppn := bits w0 16 40 / 2 ^ (sz - 12), g := bit w0 7
            r := bit w0 8, w := bit w0 9, x := bit w0 10, u := bit w0 11, d := bit w0 13, mt := bits w0 14 2 }, w0)
  else none

/-- R83: how a bucket read stands when the walker takes it in cycle r: refused, an L2 hit, or a read of the line. -/
def State.takeBucket (s : State) (c r idx : Nat) (second : Bool) (pa : Nat) : Bk :=
  let k := s.core c
  let mk := fun (res : BkRes) (d : Nat) => { idx := idx, second := second, pa := pa, res := res, done := d }
  if !s.populated pa then mk .target r
  else if !k.pmpOk .s .load pa 64 then mk .pmp r
  else if !(s.corePart c).any (fun p => s.inWindows p pa) then mk (.bus rOutsideWindow) r
  else
    match Tab.find k.l2 (pa / 64) with
    | some l => if AccOp.load.servedBy l.st then mk (.ok l.data) (r + 12) else mk .waiting (r + 12)
    | none => mk .waiting (r + 12)

/-- R82, R85: the buckets of a round, one taken per core cycle from r. -/
def State.roundBks (s : State) (c r : Nat) (base xlt : W64) (va asid round : Nat) : List Bk :=
  let sizes := (sizeList xlt).drop (4 * (round - 1)) |>.take 4
  let addrs := (sizes.zipIdx).flatMap (fun (sz, i) =>
    let b := buckets base va asid sz
    if b.1 = b.2 then [(4 * (round - 1) + i, false, b.1)]
    else [(4 * (round - 1) + i, false, b.1), (4 * (round - 1) + i, true, b.2)])
  addrs.zipIdx.map (fun ((i, sec, a), j) => s.takeBucket c (r + j) i sec a)

/-- The misses that a walk's waiting buckets need. -/
def Core.walkMisses (k : Core) (w i : Nat) (bks : List Bk) : Core :=
  bks.foldl (fun k b =>
    if b.res = .waiting then k.addMiss { line := b.pa / 64, req := .rdS, ctx := i, walker := some w, found := b.done - 4 } else k) k

/-- R85: a miss may share a walk. -/
def Walk.shares (w : Walk) (x : Ctx) (m : TlbMiss) : Bool :=
  let s := (sizeList w.xlt).foldl min 48
  decide ((w.kind = .fetch) = (m.kind = .fetch)) && decide (w.xlt = x.xlt) && decide (w.kind.storeKind = m.kind.storeKind) &&
    decide (w.va % 2 ^ 48 / 2 ^ s = m.va % 2 ^ 48 / 2 ^ s)

/-- A walker's walk. -/
def Core.walk (k : Core) (w : Nat) : Option Walk := Tab.get none k.walks w

/-- A walker's walk set. -/
def Core.setWalk (k : Core) (w : Nat) (v : Option Walk) : Core := { k with walks := Tab.put none k.walks w v }

/-- R85: a TLB miss starts a walk on a free walker, the oldest waiting miss first, or joins a matching walk in flight. -/
def execWalkStart (core ctx : Nat) (fetch : Bool) (s : State) : Out :=
  let k := s.core core
  let x := k.ctx ctx
  let t := s.cyc core
  match x.tmiss with
  | none => .next s
  | some m =>
    if m.walk || decide ((m.kind = .fetch) ≠ (fetch = true)) || decide (t < m.cycle + 3) then .next s
    else
      let joined := [0, 1].any (fun w => (k.walk w).any (fun v => v.shares x m))
      let k' := { k.modCtx ctx (fun x => { x with tmiss := some { m with walk := true } }) with
        walkQ := k.walkQ.erase (ctx, fetch) }
      if joined then .next (s.setCore core k')
      else if k.walkQ.head? ≠ some (ctx, fetch) then .next s
      else
        match [0, 1].find? (fun w => (k.walk w).isNone) with
        | none => .next s
        | some w =>
          let p := s.tlbPart core
          let base := (s.part p).xltbase
          let r := max t (m.cycle + 5)
          let bks := if bit base 0 then s.roundBks core r base x.xlt m.va (bits x.xlt 48 16) 1 else []
          let walk : Walk := { ctx := ctx, kind := m.kind, start := r, va := m.va, asid := bits x.xlt 48 16, xlt := x.xlt
                               part := p, round := 1, bks := bks, hw := (s.part p).adHw, en := bit base 0 }
          .next (s.setCore core ((((k'.walkMisses w ctx bks).setWalk w (some walk)).ev 17 ctx 1).modCtx ctx (fun x =>
            { x with sflags := if fetch then x.sflags else x.sflags ||| 16 })))

/-- How a round is decided (R371): a match of a size, an error, or neither. -/
inductive Decision where
  | hit (e : TlbE) (w0 : W64) (pa : Nat)
  | err (tr : Trap)
  | none
  deriving DecidableEq, Repr

/-- The first match of a size, b1 before b2 and lower positions first (R82), with the address of its word0. -/
def sizeMatch (bks : List Bk) (idx size part asid va : Nat) : Option (TlbE × W64 × Nat) :=
  (bks.filter (fun b => b.idx == idx)).findSome? (fun b =>
    match b.res with
    | .ok d => (List.range 4).findSome? (fun p => (bucketEntry d p part asid size va).map (fun (e, w0) => (e, w0, b.pa + 16 * p)))
    | .waiting => none
    | .target => none
    | .pmp => none
    | .bus _ => none)

/-- R371: the decision of a walk's round, for an access kind at an address. -/
def Walk.outcome (w : Walk) (kind : AKind) (va : Nat) : Decision :=
  let tv := BitVec.ofNat 64 va
  if !w.en then .err { cause := 27, tval := tv }
  else
    let sizes := (sizeList w.xlt).zipIdx.drop (4 * (w.round - 1)) |>.take 4
    let hit := sizes.findSome? (fun (sz, i) => (sizeMatch w.bks i sz w.part w.asid w.va).map (fun h => (i, h)))
    let upto := match hit with | some (i, _) => i | none => 8
    let errs := w.bks.filter (fun b => decide (b.idx ≤ upto) && (match b.res with
      | .ok _ => false
      | .waiting => false
      | .target => true
      | .pmp => true
      | .bus _ => true))
    if errs.any (fun b => decide (b.res = .target)) then .err { cause := 27, tval := tv }
    else
      match errs.findSome? (fun b => match b.res with
        | .bus r => some r
        | .ok _ => none
        | .waiting => none
        | .target => none
        | .pmp => none) with
      | some r => .err { cause := 26, tval := tv, reason := r }
      | none =>
        if !errs.isEmpty then .err { cause := kind.accessFault, tval := tv }
        else match hit with
          | some (_, e, w0, pa) => .hit e w0 pa
          | none => .none

/-- A walk's end for one context that waited on it: the translation is known or the fault is set, and the access issues again from
cycle n. -/
def Ctx.walkEnd (x : Ctx) (fault : Option Trap) (n : Nat) : Ctx :=
  match x.tmiss with
  | none => x
  | some m =>
    if m.kind = .fetch then { x with tmiss := none, ffault := fault, fmin := max x.fmin n }
    else { x with tmiss := none, wfault := fault, nextIssue := max x.nextIssue n }

/-- The contexts that a walk serves: its own and those that joined. -/
def Core.walkers (k : Core) (w : Walk) : List Nat :=
  (k.ctxs.filter (fun e => e.2.tmiss.any (fun m => m.walk && w.shares e.2 m))).map (fun e => e.1)

/-- R88, R90: the fault of one context's access against a matched entry with word0, in ASSIST mode (`hw` false) or HW mode. -/
def entryFault (x : Ctx) (m : TlbMiss) (e : TlbE) (w0 : W64) (hw : Bool) : Option Trap :=
  let tv := BitVec.ofNat 64 m.va
  if !e.permits m.kind (x.effPrv m.kind) (bit x.mstatus 18) (bit x.mstatus 19) then some { cause := m.kind.pageFault, tval := tv }
  else if hw then none
  else if !bit w0 12 then some { cause := 24, tval := tv }
  else if m.kind.storeKind && e.w && !bit w0 13 then some { cause := 25, tval := tv }
  else none

/-- A walk ends for every context it serves. -/
def Core.endWalk (k : Core) (w : Nat) (v : Walk) (n : Nat) (f : Ctx → TlbMiss → Option Trap) : Core :=
  (k.walkers v).foldl (fun k i => k.modCtx i (fun x =>
    match x.tmiss with
    | some m => x.walkEnd (f x m) n
    | none => x)) (k.setWalk w none)

/-- R371, R86, R89 to R91: a round whose buckets have completed is decided. -/
def execWalkRoundDecision (core w : Nat) (s : State) : Out :=
  let k := s.core core
  let t := s.cyc core
  match k.walk w with
  | none => .next s
  | some v =>
    let last := v.bks.foldl (fun m b => max m b.done) v.start
    if v.bks.any (fun b => decide (b.res = .waiting)) || v.orWord.isSome || decide (t < (if v.en then last + 1 else v.start)) then .next s
    else
      let free := Config.freeWay s.free
      let x := k.ctx v.ctx
      match v.outcome v.kind v.va with
      | .err tr => .next (s.setCore core (k.endWalk w v (t + 1) (fun _ m => some { tr with tval := BitVec.ofNat 64 m.va })))
      | .none =>
        if v.round = 1 ∧ 4 < (sizeList v.xlt).length then
          let bks := s.roundBks core (t + 1) (s.part v.part).xltbase v.xlt v.va v.asid 2
          .next (s.setCore core ((k.walkMisses w v.ctx bks).setWalk w (some { v with round := 2, bks := bks })))
        else
          .next (s.setCore core (k.endWalk w v (t + 1) (fun _ m => some { cause := m.kind.pageFault, tval := BitVec.ofNat 64 m.va })))
      | .hit e w0 pa =>
        let own : TlbMiss := { va := v.va, kind := v.kind, cycle := 0 }
        let mask : W64 := if v.kind.storeKind && !bit w0 13 then 0x3000 else if bit w0 12 then 0 else 0x1000
        if v.hw && (entryFault x own e w0 true).isNone && mask ≠ 0 then
          let line := pa / 64
          let e := { e with d := e.d || v.kind.storeKind }
          match Tab.find k.l2 line with
          | some l =>
            if l.st = .m then
              let old := lineLoad l.data pa 3 false
              let k := (k.setL2 line { l with data := lineStore l.data pa 3 (old ||| mask) }).wroteLine t line 1024
              .next (s.setCore core (k.setWalk w (some { v with orWord := some (pa, w0, mask, e), orBack := some (t + 12, 0, old) })))
            else
              .next (s.setCore core ((k.addMiss { line := line, req := .amoH, far := .amo .or 3 mask pa, ctx := v.ctx, walker := some w, found := t })
                |>.setWalk w (some { v with orWord := some (pa, w0, mask, e) })))
          | none =>
            .next (s.setCore core ((k.addMiss { line := line, req := .amoH, far := .amo .or 3 mask pa, ctx := v.ctx, walker := some w, found := t })
              |>.setWalk w (some { v with orWord := some (pa, w0, mask, e) })))
        else
          let k := if (entryFault x own e w0 v.hw).isSome then k else k.tlbFill (decide (v.kind = .fetch)) free e
          .next ((s.setCore core (k.endWalk w v (t + 1) (fun y m => entryFault y m e w0 v.hw))).takeFree)

/-- R91: the OR's old value has returned: compared, it completes the walk, restarts it once, or faults; a bus error on it is
WALK_BUS_ERROR (R89). -/
def execAdFlagOrReturn (core w : Nat) (s : State) : Out :=
  let k := s.core core
  let t := s.cyc core
  match k.walk w with
  | none => .next s
  | some v =>
    match v.orWord, v.orBack with
    | some (_, w0, _, e), some (c, status, old) =>
      if t ≤ c then .next s
      else if status ≠ 0 then
        .next (s.setCore core (k.endWalk w v (t + 1) (fun _ m => some { cause := 26, tval := BitVec.ofNat 64 m.va, reason := status })))
      else
        let keep : W64 := 0x00FFFFFFFFFFCFFF
        if old &&& keep = w0 &&& keep then
          .next ((s.setCore core ((k.tlbFill (decide (v.kind = .fetch)) (Config.freeWay s.free) e).endWalk w v (t + 1)
            (fun y m => entryFault y m e w0 true))).takeFree)
        else if v.restarted then
          .next (s.setCore core (k.endWalk w v (t + 1) (fun _ m => some { cause := m.kind.pageFault, tval := BitVec.ofNat 64 m.va })))
        else
          let bks := s.roundBks core t (s.part v.part).xltbase v.xlt v.va v.asid 1
          .next (s.setCore core ((k.walkMisses w v.ctx bks).setWalk w (some { v with round := 1, bks := bks, restarted := true
                                                                                     orWord := none, orBack := none })))
    | _, _ => .next s

/-- R93, R94: every walk in flight is discarded; what waited on one starts again from its TLB lookup. -/
def Core.discardWalks (k : Core) (t : Nat) : Core :=
  { k with walks := [], walkQ := []
           ctxs := k.ctxs.map (fun e => (e.1, if e.2.tmiss.isSome then e.2.walkEnd none (t + 1) else e.2)) }

/-- R93, R94: the entries of a partition that an invalidation names: by page, ASID with G = 0, or both. -/
def TlbE.named (e : TlbE) (part : Nat) (va asid : Option Nat) : Bool :=
  decide (e.part = part) &&
    (match va with | some a => decide (a % 2 ^ 48 / 2 ^ e.size = e.vpn) | none => true) &&
    (match asid with | some a => decide (e.asid = a) && !e.g | none => true)

/-- R93, R94: the TLBs of a core without the entries named. -/
def Core.tlbInval (k : Core) (part : Nat) (va asid : Option Nat) : Core :=
  { k with itlb := k.itlb.filter (fun e => !e.named part va asid), dtlb := k.dtlb.filter (fun e => !e.named part va asid)
           stlb := k.stlb.filter (fun e => !e.named part va asid) }

end Sys2Proof.Machine
end

