-- ==== Sys2Proof/Machine/Lsu.lean ====
section
/-! DEFINITION. Memory instructions and instruction fetch: the fault check, loads, the store buffer and its drain, atomics, cache operations
and fences (R21, R23 to R37, R53, R59, R60, R63, R114, R117, R118, R368). -/

namespace Sys2Proof.Machine

/-- What the fault check of an access answers: a physical address and memory type to go on with, or the state after a fault or a TLB
miss. -/
inductive Chk where
  | ok (pa mt : Nat)
  | stop (s : State)
  deriving DecidableEq, Repr

/-- R85, R86: a data access that waits for a translation: the instruction stays unissued and its shadow is cancelled. -/
def Ctx.unissue (x : Ctx) (old : Ctx) (t : Nat) : Ctx :=
  { x with fbuf := old.fbuf, pc := old.pc, shadowEnd := t + 2, shadowKill := true, memFree := t + 3, inflight := max x.inflight (t + 3) }

/-- R23, R25, R28, R60: the fault check of a data access in MA1: alignment, translation, PMP, memory type, then the physical map.
`old` is the context before the instruction issued. -/
def State.check (s : State) (t : Nat) (h : Ins) (old : Ctx) (kind : AKind) (va size : Nat) (atomic : Bool) (misaligned : Nat) : Chk :=
  let c := h.core
  let i := h.ctx
  let tv := BitVec.ofNat 64 va
  let trap := fun (tr : Trap) => Chk.stop (s.modCore c (fun k => k.syncTrap t h tr (t + 3)))
  if va % size ≠ 0 ∧ misaligned ≠ 0 then trap { cause := misaligned, tval := tv }
  else
    match s.xlate c i kind va with
    | .fault tr => trap tr
    | .miss k =>
      .stop ((s.setCore c (k.noteMiss t i kind va)).modCtx c i (fun x => x.unissue old t))
    | .refill e =>
      .stop (((s.modCore c (fun k => (k.tlbFill1 false (Config.freeWay s.free) e).ev 16 i 1)).takeFree).modCtx c i
        (fun x => { x.unissue old t with nextIssue := t + 6, sflags := 8 }))
    | .ok pa mt =>
      let x := s.ctx c i
      let pa0 := if misaligned = 0 then pa / size * size else pa
      if !(s.core c).pmpOk (x.effPrv kind) kind pa0 size then trap { cause := kind.accessFault, tval := tv }
      else if atomic && mt ≠ 0 then trap { cause := 7, tval := tv }
      else
        match s.physReason (s.corePart c) pa0 size with
        | some r => trap { cause := kind.accessFault, tval := tv, reason := r }
        | none => .ok pa mt

/-- R24, R25: an access that waits: nothing younger issues and the shadow is cancelled. -/
def Ctx.hold_ (x : Ctx) (t : Nat) (a : Acc) : Ctx :=
  { x with acc := some a, memFree := t + 3, shadowEnd := t + 2, shadowKill := true, inflight := max x.inflight (t + 3) }

/-- R24: a memory instruction that passed its check and needs no wait. -/
def Ctx.passed (x : Ctx) (t : Nat) : Ctx := { x with memFree := t + 3, shadowEnd := t + 2, shadowKill := false }

/-- R344: an error of an on-die structure met by an access: false in the second part when the access goes no further. -/
def State.meetErr (s : State) (c i line : Nat) (e : CoreErr) : State × Bool :=
  match e with
  | .none => (s, true)
  | .l1Parity =>
    (((s.modCore c (fun k => { k with l1d := k.l1d.filter (· != line), l1i := k.l1i.filter (· != line), l1Parity := k.l1Parity + 1 }.ev 7 i 1)).coreCe c 1), true)
  | .l2DataCe => (s.coreCe c 2, true)
  | .l2DataUe =>
    match Tab.find (s.core c).l2 line with
    | some l =>
      let t := s.cyc c
      if l.st = .s && decide ((s.core c).evb.length < 8) then
        let s := s.modCore c (fun k => { k.loseLine t line with evb := k.evb ++ [{ line := line, mi := false, data := 0 }] })
        ((s.send { kind := .evc, line := line, core := c, slice := sliceOf line, pkg := s.pkg, way := l.way } (s.fcyc + 3)).coreCe c 2, true)
      else if l.st = .m then
        let s := s.modCore c (fun k => { k.loseLine t line with evb := k.evb ++ [{ line := line, mi := true, data := 0, poison := true }] })
        let s := s.send { kind := .wb, line := line, core := c, slice := sliceOf line, pkg := s.pkg, way := l.way, hasData := true, poison := true }
          (s.fcyc + 3 + s.lineDelay (dieOf c) 2 true)
        (s.logEvent { cls := 2, event := 0x11, kind := 1, idx := c, part := s.corePart c, reason := rPoisoned, addr := line * 64 }, true)
      else (s, true)
    | none => (s, true)
  | .l2TagUe => (s.fenceCore c, false)
  | .regParity => (s.loseCtx c i 3, false)
  | .rowCe => (s.coreCe c 4, true)
  | .rowUe => (s.loseCtx c i 4, false)
  | .sbUe => (s.loseCtx c i 5, false)

/-- R25, R30, R32, R37: a load that passed its check: a store-buffer forward, an L1D hit, a wait for an overlapping entry, a direct access, or
the L2. -/
def State.loadGo (s : State) (t : Nat) (h : Ins) (m : MemOp) (rd va pa mt : Nat) (e : CoreErr) : State :=
  let c := h.core
  let i := h.ctx
  let line := pa / 64
  let a : Acc := { op := .load, kind := 0, va := va, pa := pa, rd := rd, fp := m.fp, sgn := m.sgn, sz := m.sz, rvc := h.rvc, dev := decide (mt ≠ 0)
                   issued := t, raw := h.raw }
  let hit := fun (s : State) (v : W64) => s.modCore c (fun k =>
    let k := k.finish i (k.ctx i).pc (BitVec.ofNat 64 va) h.raw t (t + 3) 0
    k.modCtx i (fun x =>
      let x := if m.fp then x.setF rd (loadReg true m.sz v) else x.setX rd v
      ((x.passed t).owe t 3 (some a.reg)).adv (insLen h)))
  match (s.core c).sbHit i pa m.sz with
  | some b =>
    if b.covers pa m.sz then hit s (b.forward pa m.sz m.sgn)
    else s.modCore c (fun k => (k.modCtx i (fun x => x.hold_ t { a with stage := 3 })).ev 6 i 1)
  | none =>
    if mt ≠ 0 then (s.modCore c (fun k => (k.modCtx i (fun x => x.hold_ t { a with stage := 2 })).ev 6 i 1)).directSend c i pa m.sz false 0
    else
      let r := s.meetErr c i line e
      if !r.2 then r.1
      else
        let s := r.1
        let k := s.core c
        let v := Config.freeWay s.free
        match Tab.find k.l2 line with
        | some l =>
          if k.l1d.contains line && AccOp.load.servedBy l.st then hit s (lineLoad l.data pa m.sz m.sgn)
          else (s.modCore c (fun k => ((k.modCtx i (fun x => x.hold_ t a)).ev 6 i 1).startAcc t i v a)).takeFree
        | none => (s.modCore c (fun k => ((k.modCtx i (fun x => x.hold_ t a)).ev 6 i 1).startAcc t i v a)).takeFree

/-- R25: a load, on lane 1. -/
def execLoad (h : Ins) (m : MemOp) (rd rs1 : Nat) (off : W64) (e : CoreErr) (s : State) : Out :=
  let old := s.ctx h.core h.ctx
  let q : IssQ := { lane := 1, regs := [if m.fp then rd + 32 else rd, rs1], mem := true }
  let go := fun (s : State) (t : Nat) =>
    let va := ((s.ctx h.core h.ctx).ea rs1 off).toNat
    match s.check t h old .load va (2 ^ m.sz) false 4 with
    | .stop s => s
    | .ok pa mt => s.loadGo t h m rd va pa mt e
  if m.fp then s.issueFpS h q go else s.issue h q go

/-- R32: a load whose overlapping entries have drained goes to the L2 as an L1D miss issued in this cycle. -/
def execLoadAfterDrain (core ctx : Nat) (e : CoreErr) (s : State) : Out :=
  let k := s.core core
  let t := s.cyc core
  match (k.ctx ctx).acc with
  | none => .next s
  | some a =>
    if a.stage ≠ 3 ∨ (k.sbHit ctx a.pa a.sz).any (fun b => !b.covers a.pa a.sz) ∨ !k.runs then .next s
    else
      match k.sbHit ctx a.pa a.sz with
      | some _ => .next s
      | none =>
        if a.dev then .next ((s.modCtx core ctx (fun x => { x with acc := some { a with stage := 2 } })).directSend core ctx a.pa a.sz false 0)
        else
          let r := s.meetErr core ctx (a.pa / 64) e
          if !r.2 then .next r.1
          else .next ((r.1.modCore core (fun k => k.startAcc t ctx (Config.freeWay s.free) a)).takeFree)

/-- R31, R33: a store that passed its check fills its entry in MA2, and its line's ownership is asked for. -/
def State.storeGo (s : State) (t : Nat) (h : Ins) (sz va pa mt : Nat) (fp : Bool) (v : W64) : State :=
  s.modCore h.core (fun k =>
    let line := pa / 64
    let e : SbEnt := { ctx := h.ctx, va := va, pa := pa, sz := sz, val := v, mt := mt, fp := fp, filled := t + 2 }
    let k := { k with sb := k.sb ++ [e] }
    let st := k.l2St line
    let k := if mt = 0 ∧ (st = none ∨ st = some .s) then k.addMiss { line := line, req := k.ownReq line, ctx := h.ctx, found := t + 8 } else k
    let k := k.finish h.ctx (k.ctx h.ctx).pc (BitVec.ofNat 64 va) h.raw t (t + 3) 0
    k.modCtx h.ctx (fun x => ((x.passed t).owe t 3 none).adv (insLen h)))

/-- R31: a store issues only with a free store-buffer entry. -/
def execStore (h : Ins) (m : MemOp) (rs2 rs1 : Nat) (off : W64) (e : CoreErr) (s : State) : Out :=
  let old := s.ctx h.core h.ctx
  let q : IssQ := { lane := 1, regs := [if m.fp then rs2 + 32 else rs2, rs1], mem := true }
  let go := fun (s : State) (t : Nat) =>
    let x := s.ctx h.core h.ctx
    let va := (x.ea rs1 off).toNat
    match s.check t h old .store va (2 ^ m.sz) false 6 with
    | .stop s => s
    | .ok pa mt =>
      let s := s.storeGo t h m.sz va pa mt m.fp (if m.fp then x.getF rs2 else x.getX rs2)
      if e = .sbUe then (s.modCore h.core (fun k => { k with sb := k.sb.dropLast })).loseCtx h.core h.ctx 5 else s
  let k := s.core h.core
  if 16 ≤ k.sb.length ∧ !k.killed (s.cyc h.core) h q then
    if k.issueOk (s.cyc h.core) h q then .next (s.setCore h.core (k.ev 15 h.ctx 1)) else .next s
  else if m.fp then s.issueFpS h q go
  else s.issue h q go

/-- A context's oldest store-buffer entry. -/
def Core.sbHead (k : Core) (i : Nat) : Option SbEnt := k.sb.find? (fun e => e.ctx == i)

/-- R39: once a context's last entry has gone, a context in MISS for its drain is READY. -/
def Core.drainEnds (k : Core) (t i : Nat) : Core :=
  let x := k.ctx i
  if k.drained i && decide (x.st = .miss) && decide (x.pkind = 5) && !x.pact then k.makeReady t i false else k

/-- R33: an entry leaves the buffer. -/
def Core.sbPop (k : Core) (t i : Nat) (e : SbEnt) : Core := ({ k with sb := k.sb.erase e, sbNext := t + 1 }).drainEnds t i

/-- R34: a store's bus error: that entry and every younger one of the context are discarded, and the deferred fault is due. R339: with no context
left to trap, the entry alone is discarded, and noted for the log. -/
def Core.storeError (k : Core) (t : Nat) (e : SbEnt) (reason : Nat) : Core :=
  let n := (k.sb.takeWhile (fun (f : SbEnt) => decide (f ≠ e))).length
  if (k.ctx e.ctx).st = .empty then { k with sb := k.sb.erase e, badStores := k.badStores ++ [e.pa] }
  else
  let k := { k with sb := (k.sb.take n) ++ (k.sb.drop n).filter (fun (f : SbEnt) => f.ctx != e.ctx) }
  k.modCtx e.ctx (fun x => { x with dfault := some (t, BitVec.ofNat 64 e.va, reason) })

/-- R33: one entry a core cycle drains: into a line held in M, or to the MSC or the device it names. -/
def execStoreBufferDrain (core ctx : Nat) (s : State) : Out :=
  let k := s.core core
  let t := s.cyc core
  match k.sbHead ctx with
  | none => .next s
  | some e =>
    if t < k.sbNext ∨ t < e.filled ∨ !k.clockOn then .next s
    else if e.mt ≠ 0 then
      if e.devSent then .next s
      else
        let k := { k with sb := k.sb.map (fun f => if f = e then { f with devSent := true } else f), sbNext := t + 1 }
        .next ((s.setCore core k).directSend core ctx e.pa e.sz true e.val)
    else
      let line := e.pa / 64
      match Tab.find k.l2 line with
      | some l =>
        if l.st = .m then
          let k := k.setL2 line { l with data := lineStore l.data e.pa e.sz e.val, performed := true }
          .next (s.setCore core ((k.wroteLine t line ctx).sbPop t ctx e))
        else if l.st = .s then .next (s.setCore core (k.addMiss { line := line, req := .upg, ctx := ctx, found := t }))
        else .next s
      | none => .next (s.setCore core (k.addMiss { line := line, req := .rdM, ctx := ctx, found := t }))

/-- R34, R368: a deferred store fault is taken at the context's next instruction boundary, its handler's fetch entering IF1 in t + 2. -/
def execDeferredStoreFault (core ctx : Nat) (s : State) : Out :=
  let k := s.core core
  let t := s.cyc core
  let x := k.ctx ctx
  match x.dfault with
  | none => .next s
  | some (d, va, r) =>
    if x.st = .active && k.runs && decide (d ≤ t) && x.acc.isNone && decide (x.inflight ≤ t) && x.park.isNone && (k.slotOf ctx).isSome then
      let k := k.takeTrap ctx false { cause := 7, tval := va, reason := r, dfr := true } (t + 2)
      .next (s.setCore core (k.modCtx ctx (fun x => { x with dfault := none, dwait := false, nextIssue := t + 2, tmiss := none, facc := none })))
    else .next s

/-- R36, R43 kind 5: an instruction that waits for its context's stores to drain: until then it does not issue. -/
def State.issueDrained (s : State) (h : Ins) (q : IssQ) (f : State → Nat → State) : Out :=
  let k := s.core h.core
  if k.drained h.ctx then
    (s.issue h q (fun s t => f (s.modCtx h.core h.ctx (fun x => { x with dwait := false })) t))
  else if k.issueOk (s.cyc h.core) h q then .next (s.modCtx h.core h.ctx (fun x => { x with dwait := true }))
  else .next s

/-- R36: an atomic or cache operation that passed its check goes to the L2. -/
def State.accGo (s : State) (t : Nat) (i : Ins) (a : Acc) : State :=
  (s.modCore i.core (fun k => (k.modCtx i.ctx (fun x => x.hold_ t a)).startAcc t i.ctx (Config.freeWay s.free) a)).takeFree

/-- R36, R114: an AMO. -/
def execAmo (h : Ins) (op : AmoOp) (sz rd rs1 rs2 : Nat) (s : State) : Out :=
  let old := s.ctx h.core h.ctx
  s.issueDrained h { lane := 1, regs := [rd, rs1, rs2], mem := true } (fun s t =>
    let x := s.ctx h.core h.ctx
    let va := (x.getX rs1).toNat
    match s.check t h old .amo va (2 ^ sz) true 6 with
    | .stop s => s
    | .ok pa _ => s.accGo t h { op := .amo op, kind := 2, va := va, pa := pa, rd := rd, sgn := true, sz := sz, arg := x.getX rs2, issued := t, raw := h.raw })

/-- R36, R53: an LR. -/
def execLr (h : Ins) (sz rd rs1 : Nat) (s : State) : Out :=
  let old := s.ctx h.core h.ctx
  s.issueDrained h { lane := 1, regs := [rd, rs1], mem := true } (fun s t =>
    let va := ((s.ctx h.core h.ctx).getX rs1).toNat
    match s.check t h old .load va (2 ^ sz) true 4 with
    | .stop s => s
    | .ok pa _ => s.accGo t h { op := .lr, kind := 1, va := va, pa := pa, rd := rd, sgn := true, sz := sz, issued := t, raw := h.raw })

/-- R36, R53, R114: an SC. -/
def execSc (h : Ins) (sz rd rs1 rs2 : Nat) (s : State) : Out :=
  let old := s.ctx h.core h.ctx
  s.issueDrained h { lane := 1, regs := [rd, rs1, rs2], mem := true } (fun s t =>
    let x := s.ctx h.core h.ctx
    let va := (x.getX rs1).toNat
    match s.check t h old .store va (2 ^ sz) true 6 with
    | .stop s => s
    | .ok pa _ => s.accGo t h { op := .sc, kind := 2, va := va, pa := pa, rd := rd, sgn := true, sz := sz, arg := x.getX rs2, issued := t, raw := h.raw })

/-- R35: a FENCE issues with nothing older in flight and every store and device access of the context complete; the next
instruction issues two cycles later. -/
def execFence (h : Ins) (s : State) : Out :=
  s.issueDrained h { lane := 1, regs := [], mem := true, serial := true } (fun s t =>
    s.modCore h.core (fun k => (k.done t h 1 none id).modCtx h.ctx (fun x => { x with nextIssue := t + 2 })))

/-- R35: FENCE.I: after the stores have drained, the fetch buffer is discarded and fetch restarts. -/
def execFenceI (h : Ins) (s : State) : Out :=
  s.issueDrained h { lane := 0, regs := [], serial := true } (fun s t => s.modCore h.core (fun k => k.serialDone t h none id))

/-- The cache-operation enables of menvcfg and senvcfg (R56): bit 6 CBCFE, bit 7 CBZE, bits 5:4 CBIE. -/
def Core.cboOk (k : Core) (i lo len : Nat) : Bool :=
  match (k.ctx i).prv with
  | .m => true
  | .s => decide (bits k.menvcfg lo len ≠ 0)
  | .u => decide (bits k.menvcfg lo len ≠ 0) && decide (bits k.senvcfg lo len ≠ 0)

/-- R36, R117: a Zicbom operation. -/
def State.cbom (s : State) (h : Ins) (op : AccOp) (lo len rs1 : Nat) : Out :=
  let old := s.ctx h.core h.ctx
  let q : IssQ := { lane := 1, regs := [rs1], mem := true }
  if !(s.core h.core).cboOk h.ctx lo len then s.issueK h q (fun k t => k.illegal t h)
  else
    s.issueDrained h q (fun s t =>
      let va := ((s.ctx h.core h.ctx).getX rs1).toNat
      match s.check t h old .cbo va 64 true 0 with
      | .stop s => s
      | .ok pa _ => s.accGo t h { op := op, kind := 3, va := va, pa := pa, rd := 0, issued := t, raw := h.raw })

/-- R117: CBO.CLEAN. -/
def execCboClean (h : Ins) (rs1 : Nat) (s : State) : Out := s.cbom h .clean 6 1 rs1

/-- R117: CBO.FLUSH. -/
def execCboFlush (h : Ins) (rs1 : Nat) (s : State) : Out := s.cbom h .flush 6 1 rs1

/-- R117: CBO.INVAL, performed as a flush. -/
def execCboInval (h : Ins) (rs1 : Nat) (s : State) : Out := s.cbom h .flush 4 2 rs1

/-- R118, R63: CBO.ZERO: the line in M and zeroed; on non-cacheable memory, one write of 64 bytes at the MSC; on device memory, a fault. -/
def execCboZero (h : Ins) (rs1 : Nat) (s : State) : Out :=
  let old := s.ctx h.core h.ctx
  let q : IssQ := { lane := 1, regs := [rs1], mem := true }
  if !(s.core h.core).cboOk h.ctx 7 1 then s.issueK h q (fun k t => k.illegal t h)
  else
    s.issueDrained h q (fun s t =>
      let va := ((s.ctx h.core h.ctx).getX rs1).toNat
      match s.check t h old .store va 64 false 0 with
      | .stop s => s
      | .ok pa mt =>
        let pa := pa / 64 * 64
        let a : Acc := { op := .zero, kind := 3, va := va, pa := pa, rd := 0, issued := t, raw := h.raw }
        if mt = 2 then s.modCore h.core (fun k => k.syncTrap t h { cause := 7, tval := BitVec.ofNat 64 va } (t + 3))
        else if mt = 0 then s.accGo t h a
        else ((s.modCtx h.core h.ctx (fun x => x.hold_ t { a with stage := 2, dev := true })).ncSend (.core h.core h.ctx) .plain true pa 64 0 false 3).2)

/-- R21: IF1 selects a slot: no block in flight, the byte limit, two slots a cycle, and the stream has not stopped. -/
def Core.fetchOk (k : Core) (t i : Nat) : Bool :=
  let x := k.ctx i
  let held : Nat := x.fbuf.foldl (fun n b => n + (b.hi - b.lo)) 0
  k.runs && (k.slotOf i).isSome && decide (x.st = .active) && !x.fstop && x.facc.isNone && x.tmiss.all (fun m => decide (m.kind ≠ .fetch)) &&
    x.park.isNone && decide (x.fmin ≤ t) && decide (x.runAt ≤ t + 3) && decide (held + 16 ≤ 64) && (decide (k.if1.1 ≠ t) || decide (k.if1.2 < 2))

/-- R21, R22, R30: a fetch of the aligned block at the stream's address; a fetch fault is taken once everything before it has issued (R28). -/
def execInstructionFetch (core ctx : Nat) (pd : Predecode) (e : CoreErr) (s : State) : Out :=
  let k := s.core core
  let t := s.cyc core
  let x := k.ctx ctx
  match x.ffault with
  | some tr =>
    if x.fbuf.isEmpty && x.acc.isNone && decide (x.nextIssue ≤ t) && decide (x.inflight ≤ t) && x.park.isNone && x.dfault.isNone &&
        decide (x.st = .active) && k.runs then
      .next (s.setCore core ((k.takeTrap ctx false tr (t + 2)).modCtx ctx (fun x => { x with nextIssue := t + 2 })))
    else .next s
  | none =>
    if !k.fetchOk t ctx then .next s
    else
      let va := x.fnext
      let s := s.setCore core { k with if1 := if k.if1.1 = t then (t, k.if1.2 + 1) else (t, 1) }
      let fault := fun (tr : Trap) => Host.Outcome.next (s.modCtx core ctx (fun x => { x with ffault := some tr, fstop := true }))
      let tv := BitVec.ofNat 64 va
      match s.xlate core ctx .fetch va with
      | .fault tr => fault tr
      | .miss k => .next (s.setCore core (k.noteMiss t ctx .fetch va))
      | .refill te =>
        .next (((s.modCore core (fun k => k.tlbFill1 true (Config.freeWay s.free) te)).modCtx core ctx (fun x => { x with fmin := t + 6 })).takeFree)
      | .ok pa mt =>
        if mt = 2 ∨ !(s.core core).pmpOk x.prv .fetch (pa / 16 * 16) 16 then fault { cause := 1, tval := tv }
        else
          match s.physReason (s.corePart core) (pa / 16 * 16) 16 with
          | some r => fault { cause := 1, tval := tv, reason := r }
          | none =>
            let line := pa / 64
            let a : Acc := { op := .fetch, kind := 4, va := va, pa := pa, rd := 0, issued := t, pd := pd }
            if mt = 1 then .next ((s.modCtx core ctx (fun x => { x with facc := some { a with stage := 2, dev := true } })).ncSend (.core core ctx) .plain false (pa / 16 * 16) 16 0 false 3).2
            else
              let r := s.meetErr core ctx line e
              if !r.2 then .next r.1
              else
                let s := r.1
                let k := s.core core
                match Tab.find k.l2 line with
                | some l =>
                  if k.l1i.contains line && AccOp.fetch.servedBy l.st then .next (s.modCtx core ctx (fun x => x.block va (t + 3) (t + 2) pd))
                  else if AccOp.fetch.servedBy l.st then
                    .next (((s.modCore core (fun k => ({ k with l1i := allocL1 k.l1i line (Config.freeWay s.free) }).ev 5 ctx 1)).modCtx core ctx
                      (fun x => x.block va (t + 14) (t + 13) pd)).takeFree)
                  else .next (s.modCore core (fun k => (k.modCtx ctx (fun x => { x with facc := some a })).ev 5 ctx 1))
                | none =>
                  .next (s.modCore core (fun k => ((k.modCtx ctx (fun x => { x with facc := some a })).ev 5 ctx 1).addMiss
                    { line := line, req := .rdS, ctx := ctx, found := t + 8 }))

end Sys2Proof.Machine
end

