-- ==== Sys2Proof/Machine/Fill.lean ====
section
/-! DEFINITION. Accesses that end: completion in the slot, bus errors, and fills that go to a record (R25, R28, R34, R42 to R45, R49, R111,
R138). -/

namespace Sys2Proof.Machine

/-- R28: a bus error of an access that completes in its slot in cycle c: the handler's fetch enters IF1 in c + 1. -/
def Core.busFault (k : Core) (i c : Nat) (a : Acc) (reason : Nat) : Core :=
  let x := k.ctx i
  let k := k.retired { ctx := i, pc := x.pc, addr := BitVec.ofNat 64 a.va, raw := a.raw, issued := a.issued, done := c
                       flags := a.flags ||| 36, prv := x.prv }
  (k.takeTrap i false (a.busTrap reason) (c + 1)).modCtx i (fun y =>
    { y with acc := none, nextIssue := c + 1, inflight := max y.inflight c, shadowKill := true })

/-- R43, R374: whether a context's access completes in its slot: it has drawn no LONG hint that was taken. -/
def Ctx.inSlot (x : Ctx) (a : Acc) : Bool := decide (x.st = .active) && !a.long

/-- R21, R30: a fetched block that a fill brings: IF2 in the next cycle. -/
def Core.fetchFill (k : Core) (t i : Nat) (a : Acc) : Core :=
  k.modCtx i (fun x => { (x.block a.va (t + 3) (t + 2) a.pd) with facc := none, heldHint := false })

/-- A fetch that ends as a bus error in its slot (R28). -/
def Core.fetchFault (k : Core) (i : Nat) (a : Acc) (reason : Nat) : Core :=
  k.modCtx i (fun x => { x with facc := none, heldHint := false, fstop := true
                                ffault := some { cause := 1, tval := BitVec.ofNat 64 a.va, reason := reason } })

/-- R42: a fill kept for a record. -/
def Core.keepFill (k : Core) (t i : Nat) (fetch : Bool) (status : Nat) (val : W64) : Core :=
  { k with fills := k.fills ++ [{ ctx := i, fetch := fetch, status := status, val := val, at_ := t }] }

/-- R28, R45: a context's data access ends as a bus error, in its slot or into its record. -/
def Core.accError (k : Core) (t i : Nat) (a : Acc) (reason : Nat) : Core :=
  if (k.ctx i).inSlot a then k.busFault i (t + 1) a reason else k.keepFill t i false reason 0

/-- R25, R44, R138: a context's data access ends with a value, one cycle after the fill in its slot, or into its record. -/
def Core.accOk (k : Core) (t i : Nat) (a : Acc) (wr : Bool) (val : W64) : Core :=
  if (k.ctx i).inSlot a then k.accFinish i (t + 1) a wr val else k.keepFill t i false 0 val

/-- R49: the line of a CTX.WAIT has arrived: the watch is armed, or the instruction completes without waiting. -/
def Core.watchFill (k : Core) (t i : Nat) (a : Acc) : Core :=
  if (k.ctx i).inSlot a then k.watchHit t i a
  else
    match k.arm i (a.pa / 64) with
    | (k, true) => k.keepFill t i false 0 1
    | (k, false) => k.keepFill t i false 0 0

/-- R99, R111: a context's access on a line that has been installed: performed if the line's state serves it, else asked for again. -/
def Core.serve (t v line : Nat) (k : Core) (i : Nat) : Core :=
  let x := k.ctx i
  let k := match x.facc, Tab.find k.l2 line with
    | some a, some l =>
      if a.pa / 64 = line && !a.dev && AccOp.fetch.servedBy l.st then
        let p := k.perform t i v a l
        if x.inSlot a then p.core.fetchFill t i a else p.core.keepFill t i true 0 0
      else k
    | _, _ => k
  match x.acc, Tab.find k.l2 line with
  | some a, some l =>
    if a.pa / 64 = line && !a.dev && (a.stage == 1 || a.stage == 2) then
      if a.op.servedBy l.st then
        let k := k.setL2 line { l with performed := true }
        if a.op = .watch then k.watchFill t i a
        else
          let p := k.perform t i v a { l with performed := true }
          p.core.accOk t i a p.wr p.val
      else if a.op = .sc && !k.reserved i line then (k.clearResv i).accOk t i a true 1
      else k.addMiss { line := line, req := k.accReq a, far := accFar a, zero := decide (a.op = .zero), ctx := i, found := t }
    else k
  | _, _ => k

/-- The contexts of a core with an access on a line. -/
def Core.waiting (k : Core) (line : Nat) : List Nat :=
  (k.ctxs.filter (fun e => e.2.acc.any (fun a => a.pa / 64 == line && !a.dev) || e.2.facc.any (fun a => a.pa / 64 == line && !a.dev))).map (fun e => e.1)

/-- R83: walkers' buckets on a line take its data, or its bus error. -/
def Core.feedWalks (k : Core) (t line : Nat) (res : BkRes) : Core :=
  { k with walks := k.walks.map (fun e => (e.1, e.2.map (fun (w : Walk) =>
      { w with bks := w.bks.map (fun (b : Bk) => if b.pa / 64 = line ∧ b.res = .waiting then { b with res := res, done := t + 1 } else b) }))) }

/-- The line's misses that have been answered go. -/
def Core.missDone (k : Core) (line : Nat) (p : MsgKind → Bool) : Core :=
  { k with miss := k.miss.filter (fun m => !(m.line == line && m.sent && p m.req)) }

/-- R111: a line whose fill was asked for by a store stays unperformed until that store drains. -/
def Core.storeWaits (k : Core) (line : Nat) : Bool := k.sb.any (fun e => e.mt == 0 && e.pa / 64 == line)

/-- R99, R138: a line installed and what waits on it served. -/
def Core.install (k : Core) (t v line : Nat) (st : L2St) (data : LineData) : Core :=
  let way := match Tab.find k.l2 line with | some l => l.way | none => 0
  let held := match Tab.find k.l2 line with | some l => l.held | none => []
  let k := k.setL2 line { st := st, data := data, way := way, held := held, performed := decide (st = .s) || !k.storeWaits line }
  let k := k.feedWalks t line (.ok data)
  (k.waiting line).foldl (Core.serve t v line) k

/-- R34: the oldest store entry of a context on a line. -/
def Core.sbOn (k : Core) (line i : Nat) : Option SbEnt := k.sb.find? (fun e => e.ctx == i && e.mt == 0 && e.pa / 64 == line)

/-- R25, R34, R45: a line's request has ended with an access reason: what waits on it ends as a bus error. `own` tells an ownership
request, whose stores fail, from a read. -/
def Core.lineError (k : Core) (t line reason : Nat) (own : Bool) : Core :=
  let k := { k with l2 := match Tab.find k.l2 line with
      | some (l : L2Line) => if l.st = L2St.sm then Tab.ins k.l2 line { l with st := .s } else Tab.del k.l2 line
      | none => k.l2 }
  let k := k.feedWalks t line (.bus reason)
  let k := (k.waiting line).foldl (fun (k : Core) i =>
    let x := k.ctx i
    let k := match x.facc with
      | some a => if a.pa / 64 = line && !own then
          (if x.inSlot a then k.fetchFault i a reason else k.keepFill t i true reason 0) else k
      | none => k
    match x.acc with
    | some (a : Acc) =>
      if a.pa / 64 = line && !a.dev && (a.stage == 1 || a.stage == 2) then
        let rd := decide (k.accReq a = MsgKind.rdS)
        if rd = !own then k.accError t i a reason
        else k.addMiss { line := line, req := k.accReq a, far := accFar a, zero := decide (a.op = AccOp.zero), ctx := i, found := t }
      else k
    | none => k) k
  if own then
    ((k.sb.map (fun e => e.ctx)).eraseDups).foldl (fun (k : Core) i =>
      match k.sbOn line i with
      | some e => k.storeError t e reason
      | none => k) k
  else k

end Sys2Proof.Machine
end

