-- ==== Sys2Proof/Machine/L2.lean ====
section
/-! DEFINITION. The L2's side of coherence: miss requests, fills, acknowledgements, snoops and LONG hints (R43, R99, R100, R103, R109 to R118, R374), and
the die egress with its credits (R135, R143). -/

namespace Sys2Proof.Machine

/-- R100: lines of a line's L2 set. -/
def Core.setMates (k : Core) (line : Nat) : List (Nat × L2Line) := k.l2.filter (fun e => e.1 % 1024 == line % 1024)

/-- R99: a free way of a line's set. -/
def Core.freeL2Way (k : Core) (line : Nat) : Option Nat :=
  (List.range 8).find? (fun w => !(k.setMates line).any (fun e => e.2.way == w))

/-- R100: a line that may be a victim: in a stable state, performed, with no snoop held. -/
def L2Line.stable (l : L2Line) : Bool := (decide (l.st = .s) || decide (l.st = .m)) && l.performed && l.held.isEmpty

/-- R103: an upward message of a core leaves its egress in the F-cycle in progress. -/
def State.up (s : State) (m : Msg) (line : Bool) : State :=
  s.send { m with pkg := s.pkg, slice := sliceOf m.line } (s.fcyc + 3 + s.lineDelay (dieOf m.core) 2 line)

/-- R100: a line leaves the L2 for the eviction buffer: EVC from S, WB from M. -/
def State.evictL2 (s : State) (c line : Nat) (l : L2Line) : State :=
  let t := s.cyc c
  let m : Msg := { kind := if l.st = .m then .wb else .evc, line := line, core := c, way := l.way
                   part := (s.corePart c).getD 0, data := if l.st = .m then l.data else 0, hasData := decide (l.st = .m) }
  let s := s.modCore c (fun k => { k.loseLine t line with
    evb := k.evb ++ [{ line := line, mi := decide (l.st = .m), data := if l.st = .m then l.data else 0 }] })
  s.up m (decide (l.st = .m))

/-- R100: a way for a line that comes: a free one, or a victim's once the eviction buffer has room. -/
def State.makeRoom (s : State) (c line : Nat) : Option (State × Nat) :=
  let k := s.core c
  match k.freeL2Way line with
  | some w => some (s, w)
  | none =>
    let v := (k.setMates line).filter (fun e => e.2.stable)
    match v[Config.freeWay s.free % v.length]? with
    | some e => if k.evb.length < 8 then some ((s.evictL2 c e.1 e.2).takeFree, e.2.way) else none
    | none => none

/-- R135: a request put at the die egress, where it waits for a credit of its partition and slice. -/
def State.request (s : State) (c : Nat) (m : Miss) (kind : MsgKind) (way : Nat) : State :=
  let p := (s.corePart c).getD 0
  let r : Msg := { kind := kind, line := m.line, core := c, tag := s.hartid c m.ctx, part := p, slice := sliceOf m.line
                   pkg := s.pkg, way := way, flag := m.zero, far := m.far, at_ := s.fcyc }
  let s := s.modCore c (fun k =>
    let k := { k with miss := k.miss.map (fun (n : Miss) => if n = m then { n with sent := true, req := kind } else n) }
    let k := k.ev 8 m.ctx 1
    if kind = .amoH then k.ev 26 m.ctx 1 else k)
  let s := s.modCore c (fun k => (k.waiting m.line).foldl (fun (k : Core) i =>
    k.modCtx i (fun x => { x with acc := x.acc.map (fun (a : Acc) => if a.pa / 64 = m.line ∧ a.stage = 1 then { a with stage := 2 } else a) })) k)
  { s with fab := { s.fab with egress := s.fab.egress ++ [r] } }

/-- R117: a Zicbom operation on a line held in M: WB with RETAIN for a clean, WB for a flush. -/
def State.cboWb (s : State) (c : Nat) (m : Miss) (l : L2Line) : State :=
  let mark := fun (s : State) => s.modCore c (fun k =>
    { k with miss := k.miss.map (fun (n : Miss) => if n = m then { n with sent := true, req := .wb } else n) })
  if m.far = .clean then
    let s := (mark s).modCore c (fun k => k.setL2 m.line { l with st := .s })
    s.up { kind := .wb, line := m.line, core := c, way := l.way, part := (s.corePart c).getD 0, data := l.data, hasData := true, flag := true } true
  else if (s.core c).evb.length < 8 then (mark s).evictL2 c m.line l
  else s

/-- R100, R114, R115, R117, R118: the L2 sends a miss's request, once its victim has room, as the line's state then asks. -/
def execL2MissRequest (core line : Nat) (s : State) : Out :=
  let k := s.core core
  let t := s.cyc core
  match k.miss.find? (fun m => m.line == line && !m.sent && decide (m.found ≤ t)) with
  | none => .next s
  | some m =>
    if k.evb.any (fun e => e.line == line) then .next s
    else
      let v := Config.freeWay s.free
      let drop := s.modCore core (fun k => { k with miss := k.miss.erase m })
      match Tab.find k.l2 line with
      | some l =>
        if l.st = .is ∨ l.st = .im ∨ l.st = .sm then .next drop
        else if m.req = .wb ∨ (m.req = .amoH ∧ m.far = .clean ∧ l.st = .m) ∨ (m.req = .amoH ∧ m.far = .flush ∧ l.st = .m) then
          if l.st = .m then .next (s.cboWb core m l)
          else .next ((s.modCore core (fun k => k.loseLine t line)).request core m .amoH l.way)
        else if m.req = .amoH ∧ l.st = .s then
          .next ((s.modCore core (fun k => k.loseLine t line)).request core m .amoH l.way)
        else if m.req = .rdM ∧ l.st = .s ∧ m.zero then
          .next ((s.modCore core (fun k => k.setL2 line { l with st := .sm })).request core m .rdM l.way)
        else if (m.req = .upg ∨ m.req = .rdM) ∧ l.st = .s then
          .next ((s.modCore core (fun k => k.setL2 line { l with st := .sm })).request core m .upg l.way)
        else
          .next ((drop.modCore core (fun k => ((k.feedWalks t line (.ok l.data)).waiting line).foldl (Core.serve t v line)
            (k.feedWalks t line (.ok l.data)))).takeFree)
      | none =>
        if m.req = .amoH ∨ m.req = .wb then .next (s.request core m .amoH 0)
        else
          match s.makeRoom core line with
          | none => .next (s.modCore core (fun k => k.ev 21 m.ctx 1))
          | some (s, w) =>
            let rd := decide (m.req = .rdS)
            .next ((s.modCore core (fun k => k.setL2 line { st := if rd then .is else .im, way := w, performed := false })).request core m
              (if rd then .rdS else .rdM) w)

/-- R143: the credits in use of a (die, partition, slice) queue. -/
def State.used (s : State) (d p n : Nat) : Nat := Tab.get 0 s.fab.used ((d * 64 + p) * 16 + n)

/-- R143: the credits in use set. -/
def State.setUsed (s : State) (d p n v : Nat) : State :=
  { s with fab := { s.fab with used := Tab.put 0 s.fab.used ((d * 64 + p) * 16 + n) v } }

/-- R135: the (partition, slice) queue of a waiting request. -/
def queueOf (m : Msg) : Nat := m.part * 16 + m.slice

/-- R135, R143: the heads of the die's queues that hold a credit. -/
def State.launchable (s : State) (d : Nat) : List Msg :=
  let es := s.fab.egress.filter (fun m => dieOf m.core == d)
  let heads := es.filter (fun m => (es.find? (fun n => queueOf n == queueOf m)) == some m)
  heads.filter (fun m => decide (s.used d m.part m.slice < s.fget .cdCrgrantGrant d m.part))

/-- R135: the first queue at or after the die's pointer. -/
def pickQueue (ms : List Msg) (ptr : Nat) : Option Msg :=
  ms.foldl (fun b m =>
    match b with
    | none => some m
    | some c => if (queueOf m + 1024 - ptr) % 1024 < (queueOf c + 1024 - ptr) % 1024 then some m else b) none

/-- R135, R143: a request with a credit is launched, the one the rotating pointer picks. -/
def execRequestLaunch (die : Nat) (s : State) : Out :=
  let ptr := Tab.get 0 s.fab.eptr die
  match pickQueue (s.launchable die) ptr with
  | none =>
    let waits := (s.fab.egress.filter (fun m => dieOf m.core == die)).map (fun m => m.part)
    .next (waits.eraseDups.foldl (fun s p => s.fbump .cdCrgrantWait die p) s)
  | some m =>
    let n := s.used die m.part m.slice + 1
    let s := s.setUsed die m.part m.slice n
    let s := s.fput .cdCrgrantMaxuse die m.part (max (s.fget .cdCrgrantMaxuse die m.part) n)
    let s := { s with fab := { s.fab with egress := s.fab.egress.erase m, eptr := Tab.put 0 s.fab.eptr die ((queueOf m + 1) % 1024) } }
    let late := if m.kind = .amoH ∧ (s.slipOut die 0 ∨ s.slipOut die 1) then 2 else 0
    .next (s.send m (s.fcyc + 3 + late))

/-- R143: a credit that returns may be used again from this F-cycle. -/
def execCreditReturn (die : Nat) (s : State) : Out :=
  match s.arrived (fun m => m.kind == .credit && dieOf m.core == die) with
  | none => .next s
  | some m => .next ((s.takeMsg m).setUsed die m.part m.slice (s.used die m.part m.slice - 1))

/-- R42, R147: a fill for a core whose fill buffer is full waits. -/
def Core.fillRoom (k : Core) : Bool := decide (k.fills.length < 32)

/-- R99: a DATA_S installs the line in S, or ends its accesses with its reason. -/
def execDataS (core : Nat) (e : CoreErr) (s : State) : Out :=
  match s.arrived (fun m => m.kind == .dataS && m.core == core) with
  | none => .next s
  | some m =>
    if !(s.core core).fillRoom then .next (s.setCore core ((s.core core).ev 20 0 1))
    else
      let t := s.cyc core
      let s := s.takeMsg m
      if (s.core core).l2St m.line ≠ some .is then .next s
      else
        let k := (s.core core).missDone m.line (fun q => q == .rdS)
        if m.status ≠ 0 then .next (s.setCore core (k.lineError t m.line m.status false))
        else
          let s := (s.setCore core (k.install t (Config.freeWay s.free) m.line .s m.data)).takeFree
          .next (if e = .l2DataCe then s.coreCe core 2 else if e = .l2TagUe then s.fenceCore core else s)

/-- R99, R118: a DATA_M installs the line in M, zeros for CBO.ZERO, or ends its accesses with its reason. -/
def execDataM (core : Nat) (s : State) : Out :=
  match s.arrived (fun m => m.kind == .dataM && m.core == core) with
  | none => .next s
  | some m =>
    if !(s.core core).fillRoom then .next (s.setCore core ((s.core core).ev 20 0 1))
    else
      let t := s.cyc core
      let s := s.takeMsg m
      match Tab.find (s.core core).l2 m.line with
      | none => .next s
      | some l =>
        if l.st ≠ .im ∧ l.st ≠ .sm then .next s
        else
          let k := (s.core core).missDone m.line (fun q => q == .rdM || q == .upg)
          if m.status ≠ 0 then .next ((s.setCore core (k.lineError t m.line m.status true)).logStores core)
          else .next ((s.setCore core (k.install t (Config.freeWay s.free) m.line .m (if m.hasData then m.data else 0))).takeFree)

/-- R100: an ACK_UPG gives ownership of a line held in SM. -/
def execAckUpg (core : Nat) (s : State) : Out :=
  match s.arrived (fun m => m.kind == .ackUpg && m.core == core) with
  | none => .next s
  | some m =>
    let t := s.cyc core
    let s := s.takeMsg m
    match Tab.find (s.core core).l2 m.line with
    | none => .next s
    | some l =>
      if l.st ≠ .sm then .next s
      else
        let k := (s.core core).missDone m.line (fun q => q == .rdM || q == .upg)
        .next ((s.setCore core (k.install t (Config.freeWay s.free) m.line .m l.data)).takeFree)

/-- A far or written-back operation of a core ends: its walker or its context goes on, and others on the line ask again. -/
def Core.farEnds (k : Core) (t line status : Nat) (val : W64) (m : Miss) : Core :=
  let k := { k with miss := k.miss.erase m }
  let k := match m.walker with
    | some w => k.setWalk w ((k.walk w).map (fun (v : Walk) => { v with orBack := some (t, status, val) }))
    | none =>
      match (k.ctx m.ctx).acc with
      | some a => if a.pa / 64 = line && !a.dev then
          (if status ≠ 0 then k.accError t m.ctx a status
           else k.accOk t m.ctx a (match a.op with | .amo _ => true | _ => false) val) else k
      | none => k
  ((k.waiting line).filter (fun i => i ≠ m.ctx)).foldl (fun (k : Core) i =>
    match (k.ctx i).acc with
    | some a => if a.stage = 1 then k.addMiss { line := line, req := k.accReq a, far := accFar a, zero := decide (a.op = .zero), ctx := i, found := t } else k
    | none => k) k

/-- R116: an AMO_RET ends the far operation with its old value, or its bus error. -/
def execAmoRet (core : Nat) (s : State) : Out :=
  match s.arrived (fun m => m.kind == .amoRet && m.core == core) with
  | none => .next s
  | some m =>
    let s := s.takeMsg m
    match (s.core core).miss.find? (fun n => n.line == m.line && n.sent && n.req == .amoH) with
    | none => .next s
    | some n => .next (s.setCore core ((s.core core).farEnds (s.cyc core) m.line m.status m.val n))

/-- R100, R117: a WB_ACK frees the line's eviction-buffer entry, and completes the cache operation that wrote it back. -/
def execWbAck (core : Nat) (s : State) : Out :=
  match s.arrived (fun m => m.kind == .wbAck && m.core == core) with
  | none => .next s
  | some m =>
    let s := (s.takeMsg m).modCore core (fun k => { k with evb := k.evb.filter (fun e => e.line != m.line) })
    match (s.core core).miss.find? (fun n => n.line == m.line && n.sent && n.req == .wb) with
    | none => .next s
    | some n => .next (s.setCore core ((s.core core).farEnds (s.cyc core) m.line 0 0 n))

/-- R100: an EVC_ACK frees the line's eviction-buffer entry. -/
def execEvcAck (core : Nat) (s : State) : Out :=
  match s.arrived (fun m => m.kind == .evcAck && m.core == core) with
  | none => .next s
  | some m => .next ((s.takeMsg m).modCore core (fun k => { k with evb := k.evb.filter (fun e => e.line != m.line) }))

/-- R263: F-cycles by which a core in CS1 or CS2 answers a snoop late: 20 core cycles. -/
def State.wakeLate (s : State) (c : Nat) : Nat :=
  if (s.core c).cst = .cs1 ∨ (s.core c).cst = .cs2 then (400 + s.freq c - 1) / s.freq c else 0

/-- R110: a snoop's answer, which leaves two F-cycles after the snoop was taken; `keep` is FINAL = S. -/
def State.answer (s : State) (c line : Nat) (data : Option LineData) (keep poison byway : Bool) : State :=
  let m : Msg := { kind := if data.isSome then .snpData else .snpAck, line := line, core := c, data := data.getD 0, hasData := data.isSome
                   flag := keep, poison := poison, arg := b2n byway, pkg := s.pkg, slice := sliceOf line }
  s.send m (s.fcyc + 5 + s.wakeLate c + s.lineDelay (dieOf c) 2 data.isSome)

/-- R110, R111: a snoop for a line at its L2: answered by the line's state, or held. -/
def State.takeSnoop (s : State) (c line : Nat) (inv : Bool) (m : Msg) : State :=
  let k := s.core c
  let t := s.cyc c
  match k.evb.find? (fun e => e.line == line) with
  | some e => if e.mi then s.answer c line (some e.data) false e.poison false else s.answer c line none false false false
  | none =>
    match Tab.find k.l2 line with
    | none => s.answer c line none false false false
    | some l =>
      match l.st with
      | .is | .im => s.setCore c (k.setL2 line { l with held := l.held ++ [m] })
      | .s =>
        if inv then (s.setCore c (k.loseLine t line)).answer c line none false false false else s.answer c line none true false false
      | .sm =>
        if inv then
          let k := { k with l1i := k.l1i.filter (· != line), l1d := k.l1d.filter (· != line)
                            resv := k.resv.map (fun (r : Resv) => if r.line = line then { r with lost := true } else r) }
          (s.setCore c ((k.setL2 line { l with st := .im, performed := false }).wakeLine t line)).answer c line none false false false
        else s.answer c line none true false false
      | .m =>
        if !l.performed then s.setCore c (k.setL2 line { l with held := l.held ++ [m] })
        else if inv then (s.setCore c (k.loseLine t line)).answer c line (some l.data) false false false
        else (s.setCore c (k.setL2 line { l with st := .s })).answer c line (some l.data) true false false

/-- R132: a BYWAY snoop: the core evicts what its set and way hold, or answers that the way is empty. -/
def State.takeByway (s : State) (c : Nat) (m : Msg) : State :=
  match (s.core c).l2.find? (fun e => e.1 % 1024 == m.arg && e.2.way == m.way) with
  | none => s.answer c m.line none false false true
  | some e => if e.2.stable then (s.evictL2 c e.1 e.2).answer c m.line none false false true else s

/-- R110, R132: an SNP_INV at the L2; R263: a core in CS2 or CS3 holds no line, and answers as for I. -/
def execSnpInv (core : Nat) (s : State) : Out :=
  match s.arrived (fun m => m.kind == .snpInv && m.core == core) with
  | none => .next s
  | some m =>
    let s := (s.takeMsg m).modCore core (fun k => k.ev 22 0 1)
    if m.flag then
      let u := s.takeByway core m
      .next (if u = s then s.send m (s.fcyc + 1) else u)
    else .next (s.takeSnoop core m.line true m)

/-- R110: an SNP_SHD at the L2. -/
def execSnpShd (core : Nat) (s : State) : Out :=
  match s.arrived (fun m => m.kind == .snpShd && m.core == core) with
  | none => .next s
  | some m => .next (((s.takeMsg m).modCore core (fun k => k.ev 22 0 1)).takeSnoop core m.line false m)

/-- R111: a held snoop is answered once its line is installed and its access has been performed once. -/
def execHeldSnoopAnswer (core line : Nat) (s : State) : Out :=
  let k := s.core core
  match Tab.find k.l2 line with
  | none => .next s
  | some l =>
    match l.held with
    | [] => .next s
    | m :: rest =>
      if (l.st = .s ∨ l.st = .m ∨ l.st = .sm) ∧ l.performed then
        .next ((s.setCore core (k.setL2 line { l with held := rest })).takeSnoop core line (decide (m.kind = .snpInv)) m)
      else .next s

/-- R43, R46: the pending-access fields of a record that parks for an access. -/
def Ctx.pend (x : Ctx) (a : Acc) : Ctx :=
  { x with pkind := a.kind, prd := a.rd, pfp := a.fp, psgn := a.sgn, poff := a.pa % 64, psz := a.sz, pc2 := a.rvc, pva := BitVec.ofNat 48 a.va, pact := true }

/-- R43: a context parks in MISS for its data access. -/
def Core.longPark (k : Core) (t i : Nat) (a : Acc) : Core :=
  (k.ev 9 i 1).modCtx i (fun x => { (x.pend a).trigger .miss t with
    acc := some { a with long := true, flags := a.flags ||| 3 }, heldHint := false, facc := none })

/-- R43: a context parks in MISS for its fetch. -/
def Core.longFetch (k : Core) (t i : Nat) (a : Acc) : Core :=
  (k.ev 9 i 1).modCtx i (fun x => { (x.pend a).trigger .miss t with facc := some { a with long := true }, heldHint := false })

/-- R374: the context has a data access waiting, or an instruction before MA1. -/
def Ctx.dataBusy (x : Ctx) (t : Nat) : Bool := x.acc.isSome || decide (t < x.iss + 2)

/-- R43, R52, R374: what a LONG hint for a line does to one context of the core. -/
def Core.longFor (t line : Nat) (k : Core) (i : Nat) : Core :=
  let x := k.ctx i
  if x.st ≠ .active ∨ x.park.isSome then k
  else
    let k := match x.acc with
      | some a => if a.pa / 64 = line && !a.dev && (a.stage == 1 || a.stage == 2) && !a.long then k.longPark t i a else k
      | none => k
    let x := k.ctx i
    if x.park.isSome then k
    else
      let k := match x.facc with
        | some a =>
          if a.pa / 64 = line && !a.dev then
            (if x.dataBusy t then k.modCtx i (fun y => { y with heldHint := true }) else k.longFetch t i a)
          else k
        | none => k
      let x := k.ctx i
      if x.park.isNone && x.dwait && (k.sbOn line i).isSome then
        (k.ev 9 i 1).modCtx i (fun y => { y.trigger .miss t with
          pkind := 5, pva := BitVec.ofNat 48 (((k.sbHead i).map (fun e => e.va)).getD 0) })
      else k

/-- R43, R109: a LONG hint for a line parks what waits on it in a slot; where the fill has arrived, it is discarded. -/
def execLongHint (core : Nat) (s : State) : Out :=
  match s.arrived (fun m => m.kind == .long && m.core == core) with
  | none => .next s
  | some m =>
    let t := s.cyc core
    let k := s.core core
    .next ((s.takeMsg m).setCore core ((k.slots.filterMap id).foldl (Core.longFor t m.line) k))

/-- R374: a held fetch hint is taken once no data access waits and nothing is before MA1. -/
def execHeldFetchHint (core ctx : Nat) (s : State) : Out :=
  let k := s.core core
  let t := s.cyc core
  let x := k.ctx ctx
  match x.facc with
  | none => .next s
  | some a =>
    if x.heldHint && x.st = .active && x.park.isNone && !x.dataBusy t then .next (s.setCore core (k.longFetch t ctx a)) else .next s

end Sys2Proof.Machine
end

