-- ==== Sys2Proof/Machine/Context.lean ====
section
/-! DEFINITION. Contexts: parking and unparking, fills into records, wakes, spawns and deadlines (R38 to R53, R66, R369). -/

namespace Sys2Proof.Machine

/-- R40, R42, R52: a context is at an instruction boundary with nothing older in flight. -/
def Core.atBoundary (k : Core) (i t : Nat) : Bool :=
  let x := k.ctx i
  x.acc.isNone && x.park.isNone && x.spawnRd.isNone && decide (x.inflight < t) &&
    (match k.divu with | some u => decide (u.ctx ≠ i) | none => true) && (match k.fdivu with | some u => decide (u.ctx ≠ i) | none => true)

/-- R51: what enters the heap when a context parks. -/
def Core.heapIn (k : Core) (i : Nat) (dest : CtxState) (deadline : Nat) : Core :=
  let x := k.ctx i
  let parked := decide (dest = .wait) || decide (dest = .sleep) || decide (dest = .idle)
  let h := if dest = .sleep then [({ val := deadline, ctx := i, timer := false } : Heap)] else []
  let h := if parked && bit x.mie 5 then h ++ [{ val := x.stimecmp.toNat, ctx := i, timer := true }] else h
  { k with heap := k.heap ++ h }

/-- The slot's part of a context that leaves its slot. -/
def Ctx.leaveSlot (x : Ctx) : Ctx :=
  { x with park := none, fbuf := [], fstop := false, ffault := none, regReady := [], fpHere := false, fpAt := none, fpDirty := false
           tmiss := none, wfault := none, shadowKill := false, dwait := false, heldHint := false }

/-- R39, R41, R42: the state change and the stream of a park, its first cycle t. -/
def Core.park (k : Core) (t i slot : Nat) (p : Park) : Core :=
  let x := k.ctx i
  let rows := if x.fpDirty then 12 else 6
  let token := x.wtok && (decide (p.dest = .wait) || decide (p.dest = .sleep))
  let dest := if token then .ready else p.dest
  let k := k.modCtx i (fun x => { x.leaveSlot with st := dest, wtok := if token then false else x.wtok, runAt := t + rows })
  let k := { k with slots := k.slots.set slot none, slotEnd := Tab.put 0 k.slotEnd slot (t + rows), slotPark := Tab.put 0 k.slotPark slot t
                    wrEnd := t + rows, chg := t + 1, walkQ := k.walkQ.filter (fun w => w.1 ≠ i) }
  let k := if dest = .ready then (k.unwatch i).enqueue i false else k.heapIn i dest p.deadline
  let k := if dest = .miss ∧ x.pkind = 5 ∧ !x.pact then k.drainEnds t i else k
  (k.ev 10 i 1).intWake t i

/-- R38, R40, R42: a triggered park, or that of a held ACTIVE context at its boundary, starts its stream. -/
def execContextPark (core ctx : Nat) (s : State) : Out :=
  let k := s.core core
  let t := s.cyc core
  let x := k.ctx ctx
  match k.slotOf ctx with
  | none => .next s
  | some slot =>
    let p := match x.park with
      | some p => some p
      | none => if x.hold && k.atBoundary ctx t && x.facc.isNone then some { dest := .ready, trig := t - 1 } else none
    match p with
    | none => .next s
    | some p =>
      if x.st = .active && k.clockOn && decide (p.trig + 1 ≤ t) && decide (x.inflight < t) && decide (k.wrEnd ≤ t) && decide (k.chg ≤ t) then
        .next (s.setCore core (k.park t ctx slot p))
      else .next s

/-- R40: a context ACTIVE for its quantum parks to READY at its next boundary while another is READY. -/
def execQuantumExpiry (core ctx : Nat) (s : State) : Out :=
  let k := s.core core
  let t := s.cyc core
  let x := k.ctx ctx
  let q := bits k.mctxctl 8 8
  if q ≠ 0 ∧ x.st = .active ∧ x.since + q * 256 ≤ t ∧ !k.readyQ.isEmpty ∧ k.atBoundary ctx t ∧ x.facc.isNone ∧ k.runs then
    .next (s.modCtx core ctx (fun x => x.trigger .ready t))
  else .next s

/-- R45: the trap of a bus error found in a record at unpark. -/
def Ctx.recordTrap (x : Ctx) : Trap :=
  let cause := match x.pkind with | 0 => 5 | 1 => 5 | 6 => 5 | 4 => 1 | _ => 7
  { cause := cause, tval := x.pva.signExtend 64, reason := x.preason.toNat, dfr := decide (x.pkind = 5) }

/-- R40, R41, R45: the context at the head of the ready queue enters a slot; a bus error of its record traps before anything issues. -/
def Core.unpark (k : Core) (t i slot : Nat) : Core :=
  let first := max (t + 6) (Tab.get 0 k.slotEnd slot)
  let k := { k with slots := k.slots.set slot (some i), readyQ := k.readyQ.filter (· != i), rdEnd := t + 6, chg := max k.chg (t + 1) }
  let k := k.modCtx i (fun x => { (x.leaveSlot.restart x.pc (t + 3)) with st := .active, runAt := first, since := t, nextIssue := first,
                                                                           memFree := first, inflight := t, iss := first, shadowEnd := t, acc := none })
  let k := k.ev 11 i 1
  let x := k.ctx i
  if x.berr then
    (k.takeTrap i false x.recordTrap (t + 3)).modCtx i (fun x => { x with berr := false, pact := false, nextIssue := first })
  else k

/-- R40: the head of the ready queue is unparked into a free slot, or one that begins a park in this cycle. -/
def execContextUnpark (core islot : Nat) (s : State) : Out :=
  let k := s.core core
  let t := s.cyc core
  let swap := decide (Tab.get 0 k.slotPark islot = t) && decide (Tab.get 0 k.slotEnd islot > t)
  match k.readyQ with
  | [] => .next s
  | i :: _ =>
    if k.runs && decide (islot < 8) && (k.slots.getD islot none).isNone && decide (k.rdEnd ≤ t) && (swap || decide (k.chg ≤ t)) &&
        (swap || decide (Tab.get 0 k.slotEnd islot ≤ t)) && (k.ctx i).dfault.isNone && decide ((k.ctx i).runAt ≤ t) then
      .next (s.setCore core (k.unpark t i islot))
    else .next s

/-- R44: the rows a fill writes: the destination's, row 0, and row 4 when FS changes. -/
def Ctx.fillRows (x : Ctx) : Nat :=
  let wr := decide (x.pkind ≤ 2)
  let row := if x.pfp then (384 + 8 * x.prd) / 64 else (8 + 8 * x.prd) / 64
  let fs := wr && x.pfp && decide (x.fs ≠ 3)
  1 + (if wr && (x.pfp || x.prd ≠ 0) && decide (row ≠ 0) then 1 else 0) + b2n fs

/-- R44: a fill's effect on the record. -/
def Ctx.fillIn (x : Ctx) (val : W64) : Ctx :=
  let x := if x.pkind ≤ 2 then (if x.pfp then { x with f := Tab.put 0 x.f x.prd val, mstatus := setBits x.mstatus 13 2 3 } else x.setX x.prd val) else x
  let x := if x.pkind ≤ 2 then x.adv (if x.pc2 then 2 else 4) else if x.pkind = 3 ∨ x.pkind = 6 then x.adv 4 else x
  { x with pact := false, acc := none, facc := none }

/-- A fill of a context in the fill buffer. -/
def Core.fillFor (k : Core) (i : Nat) : Option Fill := k.fills.find? (fun f => f.ctx == i)

/-- R42: a record may be written: its park stream is over and the write port is free. -/
def Core.recFree (k : Core) (t i : Nat) : Bool :=
  k.clockOn && decide ((k.ctx i).st ≠ .active) && decide (k.wrEnd ≤ t) && decide ((k.ctx i).runAt ≤ t)

/-- R44, R49, R39: a fill written into a parked record: the context is READY in the cycle after its last row, or in WAIT. -/
def execRecordFill (core ctx : Nat) (s : State) : Out :=
  let k := s.core core
  let t := s.cyc core
  let x := k.ctx ctx
  match k.fillFor ctx with
  | none => .next s
  | some f =>
    if f.status ≠ 0 ∨ x.st ≠ .miss ∨ !x.pact ∨ !k.recFree t ctx then .next s
    else
      let n := x.fillRows
      let head := decide (x.pkind = 1)
      let waits := decide (x.pkind = 6) && decide (f.val = 1) && !x.wtok
      let a := x.acc
      let k := { k with fills := k.fills.erase f, wrEnd := t + n }
      let k := match a with
        | some a => k.finish ctx x.pc (BitVec.ofNat 64 a.va) a.raw a.issued (t + n) a.flags
        | none => k
      let k := k.modCtx ctx (fun x => { (x.fillIn f.val) with runAt := t + n })
      let k := if waits then ((k.modCtx ctx (fun x => { x with st := .wait })).heapIn ctx .wait 0).noteChange (t + n) |>.intWake (t + n) ctx
        else
          let k := if x.pkind = 6 ∧ f.val = 1 then k.modCtx ctx (fun x => { x with wtok := false }) else k
          k.makeReady (t + n) ctx head
      .next (s.setCore core k)

/-- R45, R369: a record that takes a bus error or a store's deferred fault; two rows are written. -/
def Core.recErr (k : Core) (t i kind : Nat) (va : BitVec 48) (reason : Nat) : Core :=
  let k := { k with wrEnd := t + 2, fills := k.fills.filter (fun f => f.ctx ≠ i) }
  k.modCtx i (fun x => { x with pkind := kind, pva := va, preason := BitVec.ofNat 16 reason, berr := true, sbd := if kind = 5 then true else x.sbd
                                dfault := none, pact := false, acc := none, facc := none, runAt := t + 2 })

/-- R45, R369: an access that ends as a bus error into a parked record, or the store error of a context that waits for its own drain; a
store error takes precedence. -/
def execRecordBusError (core ctx : Nat) (s : State) : Out :=
  let k := s.core core
  let t := s.cyc core
  let x := k.ctx ctx
  if x.st ≠ .miss ∨ !k.recFree t ctx then .next s
  else
    match k.fillFor ctx, x.dfault with
    | some f, none => if f.status ≠ 0 then .next (s.setCore core ((k.recErr t ctx x.pkind x.pva f.status).makeReady (t + 2) ctx false)) else .next s
    | some f, some (_, va, r) =>
      if f.status ≠ 0 then .next (s.setCore core ((k.recErr t ctx 5 (va.truncate 48) r).makeReady (t + 2) ctx false)) else .next s
    | none, some (_, va, r) =>
      if x.pkind = 5 ∧ !x.pact then .next (s.setCore core ((k.recErr t ctx 5 (va.truncate 48) r).makeReady (t + 2) ctx false)) else .next s
    | none, none => .next s

/-- R369: a store error for a context parked in READY, WAIT, SLEEP or IDLE. -/
def execParkedStoreError (core ctx : Nat) (s : State) : Out :=
  let k := s.core core
  let t := s.cyc core
  let x := k.ctx ctx
  match x.dfault with
  | none => .next s
  | some (_, va, r) =>
    if !k.recFree t ctx then .next s
    else
      let k' := k.recErr t ctx 5 (va.truncate 48) r
      match x.st with
      | .ready => .next (s.setCore core k')
      | .wait | .sleep | .idle => .next (s.setCore core (k'.makeReady (t + 2) ctx false))
      | .miss | .active | .empty => .next s

/-- R48: a wake or post is discarded at its target's core, and counted. -/
def Core.discard (k : Core) (own : Bool) : Core := k.ev (if own then 23 else 24) 0 1

/-- R48: a wake at its target's core. -/
def execWakeDelivery (core : Nat) (s : State) : Out :=
  match s.arrived (fun m => m.kind == .wake && m.core == core) with
  | none => .next s
  | some m =>
    let s := s.takeMsg m
    let own := decide (s.corePart core = some m.part)
    let k := s.core core
    if !own || decide ((k.ctx m.tag).st = .empty) then .next (s.setCore core (k.discard own))
    else .next (s.setCore core (k.wake (s.cyc core) m.tag))

/-- R48: the words a spawn carries: PC, PRV, mtvec, stvec, XLT, TRAPCFG's fields and mstatus (DESIGN CHOICE, log 11: their order). -/
def Ctx.spawnWords (x : Ctx) (pc : W64) : List W64 :=
  [pc, BitVec.ofNat 64 x.prv.code, x.mtvec, x.stvec, x.xlt, x.medeleg, x.mideleg, x.mie, x.mcounteren.zeroExtend 64,
   x.scounteren.zeroExtend 64, x.mstatus]

/-- R48: the initial state of a spawned context. -/
def spawned (ws : List W64) (own spawner : Nat) : Ctx :=
  let w := fun n => ws.getD n 0
  let ms := w 10
  { st := .ready, prv := Prv.ofCode (w 1).toNat, pc := w 0, mtvec := w 2, stvec := w 3, xlt := w 4, medeleg := w 5, mideleg := w 6, mie := w 7
    mcounteren := (w 8).truncate 3, scounteren := (w 9).truncate 3, mstatus := setBits ms 13 2 (if bits ms 13 2 = 0 then 0 else 1)
    x := Tab.put 0 (Tab.put 0 [] 10 (BitVec.ofNat 64 own)) 11 (BitVec.ofNat 64 spawner) }

/-- R48: the lowest-numbered EMPTY slot of a core. -/
def Core.emptySlot (k : Core) : Option Nat := (List.range 1024).find? (fun i => decide ((k.ctx i).st = .empty))

/-- R48: the spawn's answer sent to the spawner: the new number, or −1. -/
def State.spawnReply (s : State) (m : Msg) (v : W64) : State :=
  match hartParts m.tag with
  | none => s
  | some (q, c, i) =>
    let r : Msg := { kind := .spawnRsp, core := c, tag := i, val := v, part := m.part, pkg := s.pkg }
    if q = s.pkg then s.send r (s.fcyc + 7) else s.reelSend q { op := .spawnRsp, m := { r with tag := m.tag } }

/-- R48: a spawn at its target core: the EMPTY slot chosen or named becomes READY, or the spawn is refused. R266: while the kiln holds every
context, the new one is held too. -/
def execSpawnRequest (core : Nat) (s : State) : Out :=
  match s.arrived (fun m => m.kind == .spawn && m.core == core) with
  | none => .next s
  | some m =>
    let s := s.takeMsg m
    let k := s.core core
    let slot := if m.flag then k.emptySlot else if (k.ctx m.arg).st = .empty then some m.arg else none
    match (if s.corePart core = some m.part && !s.dieOut (dieOf core) && !k.rst then slot else none) with
    | none => .next (s.spawnReply m (-1))
    | some i =>
      let h := s.hartid core i
      let hold := decide (s.fget .pwrStatusHosthold = 1)
      let k := (k.setCtx i { spawned m.words h m.tag with hold := hold }).enqueue i false
      let s := if hold then { s with pwr := { s.pwr with held := s.pwr.held ++ [core * 1024 + i] } } else s
      .next ((s.setCore core (k.noteChange (s.cyc core))).spawnReply m (BitVec.ofNat 64 h))

/-- R48: the reply reaches the spawner, which writes rd and continues at the cost of R20. -/
def execSpawnResponse (core : Nat) (s : State) : Out :=
  match s.arrived (fun m => m.kind == .spawnRsp && m.core == core) with
  | none => .next s
  | some m =>
    let s := s.takeMsg m
    let t := s.cyc core
    match (s.ctx core m.tag).spawnRd with
    | none => .next s
    | some rd =>
      .next (s.modCore core (fun k =>
        let k := k.finish m.tag (k.ctx m.tag).pc 0 0 t t 0
        k.modCtx m.tag (fun x =>
          let x := (x.setX (rd % 32) m.val).adv 4
          { x.restart x.pc (t + 2) with spawnRd := none, nextIssue := t + 2 })))

/-- R51: the order of due entries: value, then slot. -/
def heapFirst (h : List Heap) (now : Nat) : Option Heap :=
  h.foldl (fun b e =>
    if now < e.val then b
    else match b with
      | none => some e
      | some c => if e.val < c.val ∨ (e.val = c.val ∧ e.ctx < c.ctx) then some e else b) none

/-- R51: a due entry is popped: a sleeper becomes READY, a timer's interrupt becomes pending and may wake its context. -/
def execDeadlineExpiry (core : Nat) (s : State) : Out :=
  let k := s.core core
  let t := s.cyc core
  match heapFirst k.heap s.time with
  | none => .next s
  | some e =>
    let k := { k with heap := k.heap.erase e }
    if e.timer then
      .next (s.setCore core ((k.modCtx e.ctx (fun x => { x with stip := bit k.menvcfg 63 })).intWake t e.ctx))
    else if (k.ctx e.ctx).st = .sleep then .next (s.setCore core (k.makeReady t e.ctx false))
    else .next (s.setCore core k)

/-- R66: at a tick, MTIP of the target is 1 while the timer is enabled and time has reached mtmrcmp; a parked target may wake. -/
def execMtimerCompare (core : Nat) (s : State) : Out :=
  let k := s.core core
  let on := bit k.mtmrctl 16 && decide (k.mtmrcmp.toNat ≤ s.time)
  let i := bits k.mtmrctl 0 10
  let k := { k with mtip := if on then some i else none }
  .next (s.setCore core (if on then k.intWake (s.cyc core) i else k))

/-- R66: STIP of a context is 1 while STCE is set and time has reached its stimecmp. -/
def execStimerCompare (core ctx : Nat) (s : State) : Out :=
  let k := s.core core
  let on := bit k.menvcfg 63 && decide ((k.ctx ctx).stimecmp.toNat ≤ s.time)
  if (k.ctx ctx).st = .empty then .next s
  else .next (s.setCore core ((k.modCtx ctx (fun x => { x with stip := on })).intWake (s.cyc core) ctx))

/-- R48: the mode may execute CTX.SPAWN, CTX.WAKE and CTX.EXIT. -/
def Core.ctxOk (k : Core) (i : Nat) : Bool :=
  match (k.ctx i).prv with
  | .m => true
  | .s => bit k.mctxctl 0
  | .u => bit k.mctxctl 0 && bit k.sctxctl 0

/-- R20: what a serialising instruction on lane 0 needs. -/
def serialQ (regs : List Nat) : IssQ := { lane := 0, regs := regs, serial := true }

/-- R48: CTX.YIELD. -/
def execCtxYield (h : Ins) (s : State) : Out :=
  s.issueK h (serialQ []) (fun k t =>
    let k' := k.serialDone t h none id
    if k.readyQ.isEmpty then k' else k'.modCtx h.ctx (fun x => x.trigger .ready t))

/-- R48: CTX.SLEEP. -/
def execCtxSleep (h : Ins) (rs1 : Nat) (s : State) : Out :=
  s.issueK h (serialQ [rs1]) (fun k t =>
    let x := k.ctx h.ctx
    let d := (x.getX rs1).toNat
    if x.wtok then k.serialDone t h none (fun x => { x with wtok := false })
    else if d ≤ s.time then k.serialDone t h none id
    else (k.serialDone t h none id).modCtx h.ctx (fun x => x.trigger .sleep t d))

/-- R39, R52, R56: WFI: illegal in U-mode and, with TW, in S-mode; complete when an interrupt is pending and enabled in mie; else the
context parks in IDLE. -/
def execWfi (h : Ins) (s : State) : Out :=
  s.issueK h (serialQ []) (fun k t =>
    let x := k.ctx h.ctx
    if x.prv = .u ∨ (x.prv = .s ∧ bit x.mstatus 21) then k.illegal t h
    else if k.intPend h.ctx then k.serialDone t h none id
    else (k.serialDone t h none id).modCtx h.ctx (fun x => x.trigger .idle t))

/-- R49: CTX.WAIT: the steps in order, after the translation of rs1 as a 1-byte load. -/
def execCtxWait (h : Ins) (rs1 : Nat) (s : State) : Out :=
  let old := s.ctx h.core h.ctx
  s.issue h (serialQ [rs1]) (fun s t =>
    let x := s.ctx h.core h.ctx
    let va := (x.getX rs1).toNat
    match s.check t h old .load va 1 false 0 with
    | .stop s => s
    | .ok pa mt =>
      let line := pa / 64
      s.modCore h.core (fun k =>
        let go := fun (k : Core) => k.serialDone t h none id
        let park := fun (k : Core) => (go k).modCtx h.ctx (fun x => x.trigger .wait t)
        if x.wtok then k.serialDone t h none (fun x => { x with wtok := false })
        else if mt ≠ 0 then go k
        else
          match k.resv.find? (fun r => r.ctx == h.ctx && r.line == line) with
          | some r => if r.lost then go (k.clearResv h.ctx)
                      else match (k.clearResv h.ctx).arm h.ctx line with
                        | (k, true) => park k
                        | (k, false) => go k
          | none =>
            if !k.watch.any (fun w => w.line == line) && decide (256 ≤ k.watch.length) then go { k with mctxctl := setBit k.mctxctl 16 true }
            else
              let k := k.clearResv h.ctx
              let a : Acc := { op := .watch, kind := 6, va := va, pa := pa, rd := 0, issued := t, raw := h.raw }
              match Tab.find k.l2 line with
              | some l =>
                if AccOp.watch.servedBy l.st then
                  match k.arm h.ctx line with
                  | (k, true) => park k
                  | (k, false) => go k
                else (k.modCtx h.ctx (fun x => x.hold_ t a)).startAcc t h.ctx 0 a
              | none => (k.modCtx h.ctx (fun x => x.hold_ t a)).startAcc t h.ctx 0 a))

/-- R48: CTX.WAKE: after the stores have drained, a wake is sent to the context named. -/
def execCtxWake (h : Ins) (rs1 : Nat) (s : State) : Out :=
  if !(s.core h.core).ctxOk h.ctx then s.issueK h (serialQ [rs1]) (fun k t => k.illegal t h)
  else
    s.issueDrained h (serialQ [rs1]) (fun s t =>
      let n := ((s.ctx h.core h.ctx).getX rs1).toNat
      let p := (s.corePart h.core).getD 0
      let s := s.modCore h.core (fun k => k.serialDone t h none id)
      match (if n < 2 ^ 21 then hartParts n else none) with
      | none => s.modCore h.core (fun k => k.discard true)
      | some (q, c, i) =>
        let m : Msg := { kind := .wake, core := c, tag := i, part := p, pkg := s.pkg }
        if q = s.pkg then s.send m (s.fcyc + 7) else s.reelSend q { op := .wake, m := { m with tag := n } })

/-- R48: CTX.SPAWN: the request goes to the target core, and the spawner waits in its slot. -/
def execCtxSpawn (h : Ins) (rd rs1 rs2 : Nat) (s : State) : Out :=
  if !(s.core h.core).ctxOk h.ctx then s.issueK h (serialQ [rd, rs1, rs2]) (fun k t => k.illegal t h)
  else
    s.issue h (serialQ [rd, rs1, rs2]) (fun s _ =>
      let x := s.ctx h.core h.ctx
      let n := x.getX rs2
      let me := s.hartid h.core h.ctx
      let m : Msg := { kind := .spawn, core := h.core, tag := me, part := (s.corePart h.core).getD 0, pkg := s.pkg, flag := true
                       words := x.spawnWords (x.getX rs1) }
      let q := if n.toNat < 2 ^ 21 then ((hartParts n.toNat).map (fun p => p.1)).getD s.pkg else s.pkg
      let s := s.modCtx h.core h.ctx (fun x => { x with spawnRd := some (rd + 32 * q) })
      if n = -1 then s.send m (s.fcyc + 7)
      else
        match (if n.toNat < 2 ^ 21 then hartParts n.toNat else none) with
        | none => s.spawnReply m (-1)
        | some (q, c, i) =>
          let m := { m with core := c, flag := false, arg := i }
          if q = s.pkg then (if s.dieOut (dieOf c) then s.spawnReply m (-1) else s.send m (s.fcyc + 7))
          else if s.member q then s.reelSend q { op := .spawn, m := m }
          else s.spawnReply m (-1))

/-- R48: CTX.EXIT: after the stores have drained, the context is EMPTY and nothing of it is kept. -/
def execCtxExit (h : Ins) (s : State) : Out :=
  if !(s.core h.core).ctxOk h.ctx then s.issueK h (serialQ []) (fun k t => k.illegal t h)
  else
    s.issueDrained h (serialQ []) (fun s t =>
      (s.modCore h.core (fun k => k.finish h.ctx (k.ctx h.ctx).pc 0 h.raw t (t + 1) 0)).emptyCtx h.core h.ctx)

/-- R28: ECALL: cause 8, 9 or 11 by the mode. -/
def execEcall (h : Ins) (s : State) : Out :=
  s.issueK h (serialQ []) (fun k t => k.syncTrap t h { cause := 8 + (k.ctx h.ctx).prv.code, tval := 0 } (t + 2))

/-- R28, R59: EBREAK: cause 3, value 0. -/
def execEbreak (h : Ins) (s : State) : Out := s.issueK h (serialQ []) (fun k t => k.syncTrap t h { cause := 3, tval := 0 } (t + 2))

/-- R28: an instruction marked illegal issues on lane 0 as a trap marker. -/
def execIllegalInstruction (h : Ins) (s : State) : Out := s.issueK h { lane := 0, regs := [] } (fun k t => k.illegal t h)

/-- R22: MRET, in M-mode; elsewhere it is illegal. -/
def execMret (h : Ins) (s : State) : Out :=
  s.issueK h (serialQ []) (fun k t =>
    if (k.ctx h.ctx).prv ≠ .m then k.illegal t h
    else ((k.done t h 1 none id).modCtx h.ctx (fun x => { x.mret (t + 2) with nextIssue := t + 2 })).ev 4 h.ctx 4)

/-- R22: SRET, in M-mode or in S-mode without TSR; elsewhere it is illegal. -/
def execSret (h : Ins) (s : State) : Out :=
  s.issueK h (serialQ []) (fun k t =>
    let x := k.ctx h.ctx
    if x.prv = .u ∨ (x.prv = .s ∧ bit x.mstatus 22) then k.illegal t h
    else ((k.done t h 1 none id).modCtx h.ctx (fun x => { x.sret (t + 2) with nextIssue := t + 2 })).ev 4 h.ctx 4)

/-- R28, R368: an interrupt pending and enabled is taken at an instruction boundary, a due deferred fault before it. -/
def execInterruptTaken (core ctx : Nat) (s : State) : Out :=
  let k := s.core core
  let t := s.cyc core
  let x := k.ctx ctx
  match k.pickInt ctx with
  | none => .next s
  | some n =>
    if x.st = .active && k.runs && (k.slotOf ctx).isSome && k.atBoundary ctx t && x.dfault.isNone && decide (x.runAt ≤ t) && decide (x.nextIssue ≤ t) then
      .next (s.setCore core ((k.takeTrap ctx true { cause := n, tval := 0 } (t + 2)).modCtx ctx (fun x => { x with nextIssue := t + 2, dwait := false })))
    else .next s

/-- R93: SFENCE.VMA: after the stores have drained, the entries it names go, and every walk of the core starts again. -/
def execSfenceVma (h : Ins) (rs1 rs2 : Nat) (s : State) : Out :=
  let x := s.ctx h.core h.ctx
  if x.prv = .u ∨ (x.prv = .s ∧ bit x.mstatus 20) then s.issueK h (serialQ [rs1, rs2]) (fun k t => k.illegal t h)
  else
    s.issueDrained h (serialQ [rs1, rs2]) (fun s t =>
      let p := s.tlbPart h.core
      s.modCore h.core (fun k =>
        let va := if rs1 = 0 then none else some (x.getX rs1).toNat
        let asid := if rs2 = 0 then none else some (bits (x.getX rs2) 0 16)
        ((k.tlbInval p va asid).discardWalks t).serialDone t h none id))

end Sys2Proof.Machine
end

