-- ==== Sys2Proof/Machine/Csr.lean ====
section
/-! DEFINITION. The CSRs: who may access each, what it reads, and what a write does (R46, R47, R54 to R57, R61, R65 to R69, R72, R76, R77, R94, R317,
R320, R367, R370). -/

namespace Sys2Proof.Machine

/-- R56: mcycle of a core. -/
def State.mcycle (s : State) (c : Nat) : W64 :=
  match (s.core c).mcycleFrozen with
  | some v => v
  | none => BitVec.ofNat 64 (s.cyc c) + (s.core c).mcycleOff

/-- R317: a counter of a core, 3 to 10. -/
def Core.hpmOf (k : Core) (n : Nat) : Hpm := Tab.get {} k.hpm n

/-- R317: a counter changed. -/
def Core.setHpm (k : Core) (n : Nat) (h : Hpm) : Core := { k with hpm := Tab.put {} k.hpm n h }

/-- R47: mcause and scause as they read. -/
def causeRead (b : BitVec 8) : W64 := BitVec.ofNat 64 (bits b 0 5 + bits b 7 1 * 2 ^ 63)

/-- R47: a cause's compact form. -/
def causeWrite (v : W64) : BitVec 8 := BitVec.ofNat 8 (bits v 0 5 + bits v 63 1 * 128)

/-- R370: the writable bits of medeleg. -/
def medelegMask : W64 := 0x0F00B3FF

/-- R370: the writable bits of mideleg. -/
def midelegMask : W64 := 0x2222

/-- R46 TRAPCFG. -/
def Ctx.trapcfg (x : Ctx) : W64 :=
  BitVec.ofNat 64 (bits x.medeleg 0 28 + bits x.mideleg 0 14 * 2 ^ 28 + bits x.mie 0 14 * 2 ^ 42 + x.mcounteren.toNat * 2 ^ 56 +
    x.scounteren.toNat * 2 ^ 59)

/-- R38: the code of a state. -/
def CtxState.code : CtxState → Nat
  | .empty => 0
  | .ready => 1
  | .active => 2
  | .miss => 3
  | .wait => 4
  | .sleep => 5
  | .idle => 6

/-- R47: the header of a record. -/
def Ctx.header (x : Ctx) : W64 :=
  BitVec.ofNat 64 (x.st.code + x.prv.code * 8 + b2n x.wtok * 32 + b2n x.hold * 64 + b2n x.berr * 128 +
    (x.prd % 32 + b2n x.pfp * 32 + b2n x.psgn * 64 + b2n x.pact * 128) * 2 ^ 8 + (x.poff % 64 + x.psz % 4 * 64) * 2 ^ 16 +
    (b2n x.sbd + b2n x.ssip * 2 + x.pkind % 8 * 4 + b2n x.pc2 * 32) * 2 ^ 24 + x.mcause.toNat * 2 ^ 32 + x.scause.toNat * 2 ^ 40 +
    x.sbuserr.toNat * 2 ^ 48)

/-- R46: a doubleword of a record. -/
def Ctx.recordDw (x : Ctx) (dw : Nat) : W64 :=
  if dw = 0 then x.header
  else if dw = 1 then x.pc
  else if dw < 33 then x.getX (dw - 1)
  else if 48 ≤ dw ∧ dw < 80 then x.getF (dw - 48)
  else match dw with
    | 33 => x.mstatusRead
    | 34 => x.mepc
    | 35 => x.mtval
    | 36 => x.mtvec
    | 37 => x.mscratch
    | 38 => x.sepc
    | 39 => x.stval
    | 40 => x.stvec
    | 41 => x.sscratch
    | 42 => x.stimecmp
    | 43 => x.xlt
    | 44 => x.trapcfg
    | 45 => BitVec.ofNat 64 (x.pva.toNat + x.preason.toNat * 2 ^ 48)
    | 46 => x.ipend
    | 47 => x.ien
    | 80 => x.fcsr.zeroExtend 64
    | _ => 0

/-- R46: a doubleword of a record written; doubleword 0 changes only PRV. -/
def Ctx.setRecordDw (x : Ctx) (dw : Nat) (v : W64) : Ctx :=
  if dw = 0 then { x with prv := if bits v 3 2 = 2 then x.prv else Prv.ofCode (bits v 3 2) }
  else if dw = 1 then { x with pc := setBits v 0 1 0 }
  else if dw < 33 then x.setX (dw - 1) v
  else if 48 ≤ dw ∧ dw < 80 then { x with f := Tab.put 0 x.f (dw - 48) v }
  else match dw with
    | 33 => x.writeMstatus v
    | 34 => { x with mepc := setBits v 0 1 0 }
    | 35 => { x with mtval := v }
    | 36 => { x with mtvec := setBits v 1 1 0 }
    | 37 => { x with mscratch := v }
    | 38 => { x with sepc := setBits v 0 1 0 }
    | 39 => { x with stval := v }
    | 40 => { x with stvec := setBits v 1 1 0 }
    | 41 => { x with sscratch := v }
    | 42 => { x with stimecmp := v }
    | 43 => { x with xlt := v }
    | 44 => { x with medeleg := BitVec.ofNat 64 (bits v 0 28) &&& medelegMask, mideleg := BitVec.ofNat 64 (bits v 28 14) &&& midelegMask,
                     mie := BitVec.ofNat 64 (bits v 42 14) &&& 0x2AAA, mcounteren := BitVec.ofNat 3 (bits v 56 3), scounteren := BitVec.ofNat 3 (bits v 59 3) }
    | 45 => { x with pva := v.truncate 48, preason := BitVec.ofNat 16 (bits v 48 16) }
    | 46 => { x with ipend := v }
    | 47 => { x with ien := v }
    | 80 => { x with fcsr := v.truncate 8 }
    | _ => x

/-- mctxdata: the access is permitted. -/
def Core.ctxdataOk (k : Core) : Bool :=
  let x := k.ctx (bits k.mctxsel 0 10)
  let held := x.hold && (decide (x.st = .ready) || decide (x.st = .wait) || decide (x.st = .sleep) || decide (x.st = .idle))
  (decide (x.st = .empty) || held) && !x.pact && decide (bits k.mctxsel 10 7 ≤ 95)

/-- R56: a counter CSR may be read from the mode: index 0 CY, 1 TM, 2 IR, 3 to 10 the counters. -/
def Core.counterOk (k : Core) (i n : Nat) : Bool :=
  let x := k.ctx i
  let m := if n < 3 then bit x.mcounteren n else if n < 11 then bit k.mcountHi (n - 3) else false
  let u := if n < 3 then bit x.scounteren n else if n < 11 then bit k.scountHi (n - 3) else false
  match x.prv with
  | .m => true
  | .s => m
  | .u => m && u

/-- R67: the value of a claim CSR. -/
def Ctx.claim (x : Ctx) (mLevel : Bool) : W64 :=
  match x.topVector mLevel with
  | some v => BitVec.ofNat 64 (v + 64)
  | none => 0

/-- partinfo (R57). -/
def State.partinfo (s : State) (c : Nat) : W64 :=
  match s.corePart c with
  | some p => BitVec.ofNat 64 (p + b2n (s.plat p) * 64 + b2n (s.isot p) * 128 + s.pkg * 256)
  | none => BitVec.ofNat 64 (s.pkg * 256)

/-- pmpaddr as it reads at granularity 4 KiB (R61): bits [9:0] are 0 in OFF and TOR, [8:0] are ones in NAPOT. -/
def Core.pmpaddrRead (k : Core) (n : Nat) : W64 :=
  let v := Tab.get 0 k.pmpaddr n
  if bits (Tab.get 0 k.pmpcfg n) 3 2 = 3 then v ||| 0x1FF else setBits v 0 10 0

/-- pmpcfg0 and pmpcfg2 as they read. -/
def Core.pmpcfgRead (k : Core) (lo : Nat) : W64 :=
  BitVec.ofNat 64 (leNat ((List.range 8).map (fun i => Tab.get 0 k.pmpcfg (lo + i))))

/-- One PMP configuration byte written (R61): a locked entry keeps; NA4 reads back as OFF; W without R is reserved and keeps. -/
def pmpcfgWrite (old new : BitVec 8) : BitVec 8 :=
  if bit old 7 then old
  else
    let v := new &&& 0x9F
    let v := if bits v 3 2 = 2 then setBits v 3 2 0 else v
    if bit v 1 && !bit v 0 then old else v

/-- pmpcfg0 or pmpcfg2 written. -/
def Core.pmpcfgPut (k : Core) (lo : Nat) (v : W64) : Core :=
  { k with pmpcfg := (List.range 8).foldl (fun m i =>
      Tab.put 0 m (lo + i) (pmpcfgWrite (Tab.get 0 m (lo + i)) (BitVec.ofNat 8 (bits v (8 * i) 8)))) k.pmpcfg }

/-- pmpaddr written: a locked entry keeps, and so does the one below a locked TOR entry. -/
def Core.pmpaddrPut (k : Core) (n : Nat) (v : W64) : Core :=
  let up := Tab.get 0 k.pmpcfg (n + 1)
  if bit (Tab.get 0 k.pmpcfg n) 7 || (bit up 7 && decide (bits up 3 2 = 1)) then k
  else { k with pmpaddr := Tab.put 0 k.pmpaddr n (BitVec.ofNat 64 (bits v 0 54)) }

/-- R54 to R57: what a CSR reads for a context; none where the number raises an illegal-instruction exception on every access. -/
def State.csrRead (s : State) (c i csr : Nat) : Option W64 :=
  let k := s.core c
  let x := k.ctx i
  let n64 := fun (n : Nat) => some (BitVec.ofNat 64 n)
  if 0x3B0 ≤ csr ∧ csr < 0x3C0 then some (k.pmpaddrRead (csr - 0x3B0))
  else if 0xB03 ≤ csr ∧ csr ≤ 0xB0A then n64 ((k.hpmOf (csr - 0xB00)).count % 2 ^ 48)
  else if 0xC03 ≤ csr ∧ csr ≤ 0xC0A then n64 ((k.hpmOf (csr - 0xC00)).count % 2 ^ 48)
  else if 0xB0B ≤ csr ∧ csr ≤ 0xB1F then some 0
  else if 0xC0B ≤ csr ∧ csr ≤ 0xC1F then some 0
  else if 0x323 ≤ csr ∧ csr ≤ 0x32A then some (k.hpmOf (csr - 0x320)).sel
  else if 0x32B ≤ csr ∧ csr ≤ 0x33F then some 0
  else match csr with
    | 0x001 => n64 (bits x.fcsr 0 5)
    | 0x002 => n64 (bits x.fcsr 5 3)
    | 0x003 => n64 x.fcsr.toNat
    | 0xC00 => some (s.mcycle c)
    | 0xC01 => some s.tb
    | 0xC02 => some k.minstret
    | 0x100 => some (x.mstatusRead &&& (sstatusMask ||| 0x8000000300000000))
    | 0x104 => some (x.mie &&& x.mideleg)
    | 0x105 => some x.stvec
    | 0x106 => n64 (x.scounteren.toNat + k.scountHi.toNat * 8)
    | 0x10A => some k.senvcfg
    | 0x140 => some x.sscratch
    | 0x141 => some x.sepc
    | 0x142 => some (causeRead x.scause)
    | 0x143 => some x.stval
    | 0x144 => n64 (k.mip i &&& x.mideleg.toNat)
    | 0x14D => some x.stimecmp
    | 0x180 => some 0
    | 0xF11 => some 0
    | 0xF12 => some 0x8000000000002416
    | 0xF13 => n64 (bits ((s.die (dieOf c)).fuses.getD 0 0) 8 16)
    | 0xF14 => n64 (s.hartid c i)
    | 0xF15 => some 0
    | 0x300 => some x.mstatusRead
    | 0x301 => some 0x800000000014112D
    | 0x302 => some x.medeleg
    | 0x303 => some x.mideleg
    | 0x304 => some x.mie
    | 0x305 => some x.mtvec
    | 0x306 => n64 (x.mcounteren.toNat + k.mcountHi.toNat * 8)
    | 0x30A => some k.menvcfg
    | 0x320 => some k.mcountinhibit
    | 0x340 => some x.mscratch
    | 0x341 => some x.mepc
    | 0x342 => some (causeRead x.mcause)
    | 0x343 => some x.mtval
    | 0x344 => n64 (k.mip i)
    | 0x3A0 => some (k.pmpcfgRead 0)
    | 0x3A2 => some (k.pmpcfgRead 8)
    | 0xB00 => some (s.mcycle c)
    | 0xB02 => some k.minstret
    | 0x7C0 => some k.mctxctl
    | 0x7C1 => some k.mctxsel
    | 0x7C2 => some (if k.ctxdataOk then (k.ctx (bits k.mctxsel 0 10)).recordDw (bits k.mctxsel 10 7) else 0)
    | 0x7C3 => some (setBits k.mctxhold 20 3 (k.ctx (bits k.mctxhold 0 10)).st.code)
    | 0x7C8 => some k.mtmrcmp
    | 0x7C9 => some k.mtmrctl
    | 0x7D0 => some x.ipend
    | 0x7D1 => some x.ien
    | 0x7D2 => some (x.claim true)
    | 0x7D3 => some 0
    | 0x7D4 => some 0
    | 0x5C0 => some k.sctxctl
    | 0x5C1 => n64 (x.sbuserr.toNat + b2n x.sbd * 2 ^ 16)
    | 0x5C4 => some x.xlt
    | 0x5C5 => some (s.part ((s.corePart c).getD 0)).xltbase
    | 0x5C6 => some 0
    | 0x5C7 => n64 (b2n x.xbusy + b2n x.xdone * 2 + x.xreason.toNat * 2 ^ 16)
    | 0x5D0 => some (setBits x.ipend 0 16 0)
    | 0x5D1 => some (setBits x.ien 0 16 0)
    | 0x5D2 => some (x.claim false)
    | 0x5D3 => some 0
    | 0x5D4 => some 0
    | 0x800 => n64 (i + k.readyQ.length * 2 ^ 10 + (1024 - (k.ctxs.filter (fun e => e.2.st ≠ .empty)).length) * 2 ^ 21)
    | 0x801 => some (s.partinfo c)
    | _ => none

/-- R57: a write of the CSR raises an illegal-instruction exception. -/
def csrReadOnly (csr : Nat) : Bool := decide (csr / 1024 = 3) || csr == 0x800 || csr == 0x801

/-- R54, R56, R57, R65, R66: the access is legal in the context's mode. -/
def State.csrOk (s : State) (c i csr : Nat) (wr : Bool) : Bool :=
  let k := s.core c
  let x := k.ctx i
  let tvm := decide (x.prv = .s) && bit x.mstatus 20 && [0x5C4, 0x5C5, 0x5C6, 0x5C7, 0x180].contains csr
  (s.csrRead c i csr).isSome && decide (csr / 256 % 4 ≤ x.prv.code) && !(wr && csrReadOnly csr) && !tvm &&
    !(decide (csr ≤ 3) && decide (x.fs = 0)) &&
    (if 0xC00 ≤ csr ∧ csr ≤ 0xC1F then k.counterOk i (csr - 0xC00) else true) &&
    (if csr = 0x14D then decide (x.prv = .m) || (bit k.menvcfg 63 && bit x.mcounteren 1) else true)

/-- R46, R48: HOLD set or cleared: a held context leaves the ready queue, a released one enters at its tail. -/
def Core.setHold (k : Core) (i : Nat) (h : Bool) : Core :=
  let k := k.modCtx i (fun x => { x with hold := h })
  if h then { k with readyQ := k.readyQ.filter (· != i) }
  else if (k.ctx i).st = .ready then k.enqueue i false else k

/-- R77: the check of an sxltbase enable. -/
def State.xltbaseCheck (s : State) (p : Nat) (v : W64) : Option Nat :=
  let n := bits v 8 6
  let b := bits v 16 36 * 2 ^ 16
  if n < 10 ∨ 34 < n ∨ b % 2 ^ (n + 6) ≠ 0 then some rXltTableSize
  else if 2 ^ 47 < b + 2 ^ (n + 6) then some rXltTableNotNormalMemory
  else if s.cores.any (fun e => e.2.walks.any (fun w => w.2.any (fun v => decide (v.part = p)))) then some rBusyDraining
  else none

/-- R77: a write of sxltbase. -/
def State.xltbasePut (s : State) (c i : Nat) (v : W64) : State :=
  let p := (s.corePart c).getD 0
  let old := (s.part p).xltbase
  let v := BitVec.ofNat 64 (bits v 0 1 + bits v 8 6 * 2 ^ 8 + bits v 16 36 * 2 ^ 16)
  if bit old 0 then s.modPart p (fun q => { q with xltbase := setBits old 0 1 (bits v 0 1) })
  else if !bit v 0 then s.modPart p (fun q => { q with xltbase := v })
  else
    match s.xltbaseCheck p v with
    | none => s.modPart p (fun q => { q with xltbase := v })
    | some r => (s.modPart p (fun q => { q with xltbase := setBits v 0 1 0 })).modCtx c i (fun x => { x with xreason := BitVec.ofNat 16 r })

/-- R94: cores of a partition in this package. -/
def State.coresOfPart (s : State) (p : Nat) : List Nat := (List.range 240).filter (fun c => s.partHasCore p c)

/-- R94: a shootdown sent to every core of the partition in this package, and its answers awaited. -/
def State.shootLocal (s : State) (p tag from_ : Nat) (v : W64) (far : List Nat) : State :=
  let cs := s.coresOfPart p
  let s := cs.foldl (fun s c => s.send { kind := .shoot, core := c, tag := tag, part := p, val := v, pkg := from_ } (s.fcyc + 7)) s
  { s with fab := { s.fab with shoots := s.fab.shoots ++ [(tag, from_, cs ++ far.map (· + 240), s.fcyc)] } }

/-- R94: a write of sxltinv starts a shootdown across the partition's span. -/
def State.xltinvPut (s : State) (c i : Nat) (v : W64) : State :=
  let p := (s.corePart c).getD 0
  let tag := s.hartid c i
  let far := (List.range 8).filter (fun q => q ≠ s.pkg && s.member q && bit (BitVec.ofNat 8 (s.fget .prtCtlSpan p)) q)
  let s := s.modCtx c i (fun x => { x with xbusy := true })
  let s := far.foldl (fun s q => s.reelSend q { op := .shoot, m := { kind := .shoot, tag := tag, part := p, val := v } }) s
  s.shootLocal p tag s.pkg v far

/-- R72: a vector posted to a context of this package: discarded where its target is EMPTY or in another partition. -/
def State.postHere (s : State) (c i vec part : Nat) : State :=
  let k := s.core c
  let own := decide (s.corePart c = some part)
  if !own || decide ((k.ctx i).st = .empty) then s.setCore c (k.discard own)
  else s.setCore c ((k.modCtx i (fun x => { x with ipend := setBit x.ipend vec true })).intWake (s.cyc c) i)

/-- R72: a write of mifpost or sifpost. -/
def State.postPut (s : State) (c : Nat) (v : W64) : State :=
  let p := (s.corePart c).getD 0
  let h := bits v 16 21
  match hartParts h with
  | none => s.modCore c (fun k => k.discard true)
  | some (q, d, i) =>
    if q = s.pkg then s.postHere d i (bits v 0 6) p
    else s.reelSend q { op := .post, m := { kind := .post, tag := h, arg := bits v 0 6, part := p } }

/-- R69, R72: COMPLETE for a vector of a context. -/
def State.eoiPut (s : State) (c i : Nat) (v : W64) : State := s.sendComplete (s.hartid c i) (bits v 0 6)

/-- R56: mcountinhibit written: mcycle stops and goes on at the value it holds. -/
def State.inhibitPut (s : State) (c : Nat) (v : W64) : State :=
  let now := s.mcycle c
  s.modCore c (fun k => { k with
    mcountinhibit := v &&& 0x7FD
    mcycleFrozen := if bit v 0 then some now else none
    mcycleOff := if bit v 0 then k.mcycleOff else now - BitVec.ofNat 64 (s.cyc c) })

/-- The writable bits of an event selector (R317). -/
def hpmSelMask : W64 := 0xF00007FFFFFF00FF

/-- R57, R367: a write of a CSR: `v` the value the RISC-V rules write, `ones` those for W1C fields. -/
def State.csrPut (s : State) (c i csr : Nat) (v ones : W64) : State :=
  let kf := fun (f : Core → Core) => s.modCore c f
  let xf := fun (f : Ctx → Ctx) => s.modCtx c i f
  if 0x3B0 ≤ csr ∧ csr < 0x3C0 then kf (fun k => k.pmpaddrPut (csr - 0x3B0) v)
  else if 0xB03 ≤ csr ∧ csr ≤ 0xB0A then kf (fun k => k.setHpm (csr - 0xB00) { k.hpmOf (csr - 0xB00) with count := bits v 0 48, wrote := s.cyc c + 1 })
  else if 0x323 ≤ csr ∧ csr ≤ 0x32A then
    kf (fun k => (k.setHpm (csr - 0x320) { k.hpmOf (csr - 0x320) with sel := v &&& hpmSelMask, owner := i }).intWake (s.cyc c) i)
  else match csr with
    | 0x001 => xf (fun x => { x.fpDirtied with fcsr := setBits x.fcsr 0 5 (bits v 0 5) })
    | 0x002 => xf (fun x => { x.fpDirtied with fcsr := setBits x.fcsr 5 3 (bits v 0 3) })
    | 0x003 => xf (fun x => { x.fpDirtied with fcsr := v.truncate 8 })
    | 0x100 => xf (fun x => x.writeSstatus v)
    | 0x104 => xf (fun x => { x with mie := (x.mie &&& ~~~ x.mideleg) ||| (v &&& x.mideleg &&& 0x2AAA) })
    | 0x105 => xf (fun x => { x with stvec := setBits v 1 1 0 })
    | 0x106 => kf (fun k => { k.modCtx i (fun x => { x with scounteren := v.truncate 3 }) with scountHi := BitVec.ofNat 8 (bits v 3 8) })
    | 0x10A => kf (fun k => { k with senvcfg := (v &&& 0xC0) ||| BitVec.ofNat 64 ((if bits v 4 2 = 2 then bits k.senvcfg 4 2 else bits v 4 2) * 16) })
    | 0x140 => xf (fun x => { x with sscratch := v })
    | 0x141 => xf (fun x => { x with sepc := setBits v 0 1 0 })
    | 0x142 => xf (fun x => { x with scause := causeWrite v })
    | 0x143 => xf (fun x => { x with stval := v })
    | 0x144 => xf (fun x => { x with ssip := if bit x.mideleg 1 then bit v 1 else x.ssip })
    | 0x14D => kf (fun k => k.modCtx i (fun x => { x with stimecmp := v, stip := bit k.menvcfg 63 && decide (v.toNat ≤ s.time) }))
    | 0x300 => xf (fun x => x.writeMstatus v)
    | 0x302 => xf (fun x => { x with medeleg := v &&& medelegMask })
    | 0x303 => xf (fun x => { x with mideleg := v &&& midelegMask })
    | 0x304 => xf (fun x => { x with mie := v &&& 0x2AAA })
    | 0x305 => xf (fun x => { x with mtvec := setBits v 1 1 0 })
    | 0x306 => kf (fun k => { k.modCtx i (fun x => { x with mcounteren := v.truncate 3 }) with mcountHi := BitVec.ofNat 8 (bits v 3 8) })
    | 0x30A =>
      kf (fun k =>
        let on := bit v 63
        { k with menvcfg := (v &&& 0x80000000000000C0) ||| BitVec.ofNat 64 ((if bits v 4 2 = 2 then bits k.menvcfg 4 2 else bits v 4 2) * 16)
                 ctxs := k.ctxs.map (fun e => (e.1, if e.2.st = .empty then e.2 else { e.2 with stip := on && decide (e.2.stimecmp.toNat ≤ s.time) })) })
    | 0x320 => s.inhibitPut c v
    | 0x340 => xf (fun x => { x with mscratch := v })
    | 0x341 => xf (fun x => { x with mepc := setBits v 0 1 0 })
    | 0x342 => xf (fun x => { x with mcause := causeWrite v })
    | 0x343 => xf (fun x => { x with mtval := v })
    | 0x344 => xf (fun x => { x with ssip := bit v 1 })
    | 0x3A0 => kf (fun k => k.pmpcfgPut 0 v)
    | 0x3A2 => kf (fun k => k.pmpcfgPut 8 v)
    | 0xB00 => kf (fun k => { k with mcycleFrozen := k.mcycleFrozen.map (fun _ => v), mcycleOff := v - BitVec.ofNat 64 (s.cyc c) })
    | 0xB02 => kf (fun k => { k with minstret := v })
    | 0x7C0 => kf (fun k => { k with mctxctl := setBits ((v &&& 0xFF01) ||| (k.mctxctl &&& 0x10000)) 16 1 (bits (k.mctxctl &&& ~~~ ones) 16 1) })
    | 0x7C1 => kf (fun k => { k with mctxsel := (v &&& 0x1FFFF) ||| (k.mctxsel &&& 0x8000000000000000) })
    | 0x7C2 => kf (fun k => if k.ctxdataOk then k.modCtx (bits k.mctxsel 0 10) (fun x => x.setRecordDw (bits k.mctxsel 10 7) v) else k)
    | 0x7C3 => kf (fun k => { (k.setHold (bits v 0 10) (bit v 16)) with mctxhold := v &&& 0x103FF })
    | 0x7C8 => kf (fun k => { k with mtmrcmp := v })
    | 0x7C9 => kf (fun k => { k with mtmrctl := v &&& 0x103FF })
    | 0x7D0 => xf (fun x => { x with ipend := v })
    | 0x7D1 => xf (fun x => { x with ien := v })
    | 0x7D2 => xf (fun x => match x.topVector true with | some n => { x with ipend := setBit x.ipend n false } | none => x)
    | 0x7D3 => s.eoiPut c i v
    | 0x7D4 => s.postPut c v
    | 0x5C0 => kf (fun k => { k with sctxctl := v &&& 1 })
    | 0x5C1 => xf (fun x => { x with sbuserr := v.truncate 16, sbd := bit v 16 })
    | 0x5C4 => xf (fun x => if sizeListOk v then { x with xlt := v } else { x with xreason := BitVec.ofNat 16 rXltSizeListInvalid })
    | 0x5C5 => s.xltbasePut c i v
    | 0x5C6 => s.xltinvPut c i v
    | 0x5C7 => xf (fun x => { x with xdone := x.xdone && !bit ones 1 })
    | 0x5D0 => xf (fun x => { x with ipend := setBits v 0 16 (bits x.ipend 0 16) })
    | 0x5D1 => xf (fun x => { x with ien := setBits v 0 16 (bits x.ien 0 16) })
    | 0x5D2 => xf (fun x => match x.topVector false with | some n => { x with ipend := setBit x.ipend n false } | none => x)
    | 0x5D3 => if bits v 0 6 < 16 then s else s.eoiPut c i v
    | 0x5D4 => s.postPut c v
    | _ => s

/-- mip and sip read and write as a CSR sets and clears them: SSIP alone is software's (R56). -/
def State.csrOld (s : State) (c i csr : Nat) : W64 := ((s.csrRead c i csr).getD 0)

/-- mctxdata: an access sets or clears ERR. -/
def Core.ctxdataErr (k : Core) : Core := { k with mctxsel := setBit k.mctxsel 63 (!k.ctxdataOk) }

/-- R20, R367: a CSR instruction on a CSR number: its checks, its read, its write. The read value is taken before the write. -/
def State.csrDo (s : State) (h : Ins) (op : CsrOp) (csr rd src : Nat) : Out :=
  let wr := csrWrites op src
  let x := s.ctx h.core h.ctx
  let a := csrOperand op x src
  let q := serialQ (csrSrcRegs op src ++ [rd])
  let lowPost := csr == 0x5D4 && wr && decide (bits a 0 6 < 16)
  if !s.csrOk h.core h.ctx csr wr || lowPost then s.issueK h q (fun k t => k.illegal t h)
  else
    let go := fun (s : State) (t : Nat) =>
      let old := s.csrOld h.core h.ctx csr
      let s := if csr = 0x7C2 then s.modCore h.core Core.ctxdataErr else s
      let s := if wr then s.csrPut h.core h.ctx csr (csrNew op old a) (csrOnes op a) else s
      s.modCore h.core (fun k => (k.serialDone t h (some rd) (fun x => x.setX rd old)).intWake t h.ctx)
    if wr && (csr == 0x5C6 || csr == 0x7D4 || csr == 0x5D4) then
      if csr = 0x5C6 ∧ x.xbusy then .next s else s.issueDrained h q go
    else if csr ≤ 3 then s.issueFpS h q go
    else s.issue h q go

/-- R367: a CSR instruction. -/
def execCsrAccess (h : Ins) (op : CsrOp) (csr rd src : Nat) (s : State) : Out := s.csrDo h op csr rd src

/-- R46: an access of mctxdata. -/
def execMctxdataAccess (h : Ins) (op : CsrOp) (rd src : Nat) (s : State) : Out := s.csrDo h op 0x7C2 rd src

/-- R38: a write of mctxhold. -/
def execMctxholdWrite (h : Ins) (op : CsrOp) (rd src : Nat) (s : State) : Out := s.csrDo h op 0x7C3 rd src

/-- R76: a write of sxlt. -/
def execSxltWrite (h : Ins) (op : CsrOp) (rd src : Nat) (s : State) : Out := s.csrDo h op 0x5C4 rd src

/-- R77: a write of sxltbase. -/
def execSxltbaseWrite (h : Ins) (op : CsrOp) (rd src : Nat) (s : State) : Out := s.csrDo h op 0x5C5 rd src

/-- R94: a write of sxltinv. -/
def execSxltinvWrite (h : Ins) (op : CsrOp) (rd src : Nat) (s : State) : Out := s.csrDo h op 0x5C6 rd src

/-- R61: a write of a PMP CSR; any other number raises an illegal-instruction exception here as in `csrDo`. -/
def execPmpWrite (h : Ins) (op : CsrOp) (csr rd src : Nat) (s : State) : Out := s.csrDo h op csr rd src

/-- R68: a write of mifclaim or sifclaim. -/
def execIfClaim (h : Ins) (op : CsrOp) (mLevel : Bool) (rd src : Nat) (s : State) : Out := s.csrDo h op (if mLevel then 0x7D2 else 0x5D2) rd src

/-- R69: a write of mifeoi or sifeoi. -/
def execIfEoi (h : Ins) (op : CsrOp) (mLevel : Bool) (rd src : Nat) (s : State) : Out := s.csrDo h op (if mLevel then 0x7D3 else 0x5D3) rd src

/-- R72: a write of mifpost or sifpost. -/
def execIfPost (h : Ins) (op : CsrOp) (mLevel : Bool) (rd src : Nat) (s : State) : Out := s.csrDo h op (if mLevel then 0x7D4 else 0x5D4) rd src

end Sys2Proof.Machine
end

