-- ==== Sys2Proof/Machine/Irq.lean ====
section
/-! DEFINITION. The interrupt router and shootdowns: route events, deliveries, completions, route writes, the MSI doorbell (R70 to R73) and
partition shootdowns at the cores and their issuer (R94). -/

namespace Sys2Proof.Machine

/-- R72: routes with SENT = 1 that target a context, with a vector or (64) with any. -/
def State.sentRoutes (s : State) (hart vec : Nat) : List Nat :=
  ((s.regsOf .irtRoute).map (fun e => e.1)).filter (fun r =>
    decide (s.fget .irtRouteSent r = 1) && decide (s.fget .irtRouteTarget r = hart) &&
      (decide (vec = 64) || decide (s.fget .irtRouteVector r = vec)))

/-- R72 step 4: a route's COMPLETE. -/
def State.routeComplete (s : State) (r : Nat) : State :=
  let again := decide (s.fget .irtRoutePend r = 1) || (levelRoute r && s.fab.level.contains r)
  let s := (s.fput .irtRouteSent r 0 0).fput .irtRoutePend r 0 0
  if again then s.redeliver r else s

/-- R70, R72: a source event, or a change of a level-sensitive source. Message routes are fired by the doorbell alone and routes 428 to 511
never. -/
def execRouteEvent (route : Nat) (asserted : Bool) (s : State) : Out :=
  if levelRoute route then
    let l := s.fab.level.filter (· != route)
    let s := { s with fab := { s.fab with level := if asserted then l ++ [route] else l } }
    .next (if asserted then s.fireRoute route else s)
  else if asserted && decide (route < 428) then .next (s.fireRoute route)
  else .next s

/-- R72 steps 2 and 5: a DELIVER at its target's core. DESIGN CHOICE (log 12): no message carries a refusal to another package's router. -/
def execDeliver (core : Nat) (s : State) : Out :=
  match s.arrived (fun m => m.kind == .deliver && m.core == core) with
  | none => .next s
  | some m =>
    let s := s.takeMsg m
    let i := m.tag % 1024
    if (s.ctx core i).st = .empty then .next (if m.pkg = s.pkg then s.routeLost (m.arg / 64) else s)
    else
      .next (s.modCore core (fun k => (k.modCtx i (fun x => { x with ipend := setBit x.ipend (m.arg % 64) true })).intWake (s.cyc core) i))

/-- R72 step 4: a COMPLETE at the router. -/
def execComplete (s : State) : Out :=
  match s.arrived (fun m => m.kind == .complete) with
  | none => .next s
  | some m =>
    let s := s.takeMsg m
    .next ((s.sentRoutes m.tag m.arg).foldl (fun s r => s.routeComplete r) s)

/-- R71: whether a partition owns the source of a route. -/
def State.ownsSource (s : State) (r p : Nat) : Bool :=
  if r < 256 then s.partHasDma p r
  else if r < 336 then s.partHasPort p ((r - 256) / 4)
  else if r < 356 then s.partHasPort p (r - 336)
  else if r < 420 then decide (r - 356 = p)
  else if r < 428 then s.plat p
  else decide (512 ≤ r)

/-- R234: the core map of a partition, on this package or another. -/
def State.coreOfPart (s : State) (p q c : Nat) : Bool :=
  if q = s.pkg then s.partHasCore p c else bit (Tab.get 0 (s.part p).remCore (q * 32 + c / 64)) (c % 64)

/-- R71: the configuration-consistency check of a route. -/
def State.routeOk (s : State) (r p target : Nat) : Bool :=
  match hartParts target with
  | none => false
  | some (q, c, _) =>
    s.member q && !s.lost q && decide (s.partState p ≠ 0) && bit (BitVec.ofNat 8 (s.fget .prtCtlSpan p)) q &&
      s.coreOfPart p q c && s.ownsSource r p

/-- R351: the routes of a root port that does not exist are inert. -/
def State.routeInert (s : State) (r : Nat) : Bool :=
  (decide (256 ≤ r ∧ r < 336) && !s.portExists ((r - 256) / 4)) || (decide (336 ≤ r ∧ r < 356) && !s.portExists (r - 336))

/-- R71, R72 step 6: a write of IRT_ROUTEn. -/
def State.routePut (s : State) (r : Nat) (v : W64) : State :=
  let old := s.rget .irtRoute r
  let lost := bit old 50 && !bit v 50
  let lvl := b2n (levelRoute r)
  if s.routeInert r then s
  else if bit old 0 then
    let w := setBits (setBits (setBits old 50 1 (b2n lost)) 1 1 lvl) 0 1 (bits v 0 1)
    s.rput .irtRoute r 0 (if bit v 0 then w else setBits w 48 2 0)
  else
    let w := setBits (BitVec.ofNat 64 (lvl * 2 + bits v 2 6 * 4 + bits v 8 6 * 2 ^ 8 + bits v 16 21 * 2 ^ 16)) 50 1 (b2n lost)
    let s' := s.rput .irtRoute r 0 w
    if !bit v 0 then s'
    else if s.routeOk r (bits v 8 6) (bits v 16 21) then
      let s' := s'.rput .irtRoute r 0 (setBit w 0 true)
      if s.fab.level.contains r then s'.fireRoute r else s'
    else (s'.fput .irtReasonReason 0 0 rNotPermitted).fput .irtReasonRoute 0 0 r

/-- R71: a write of IRT_ROUTEn. -/
def execIrtRouteWrite (q : Req) (n : Nat) (v : W64) (s : State) : Out := s.regWrite q .irtRoute n 0 v (fun s => s.routePut n v)

/-- R73: a discarded doorbell or device write to control space, logged. -/
def State.doorbellLost (s : State) (r : Nat) (part : Option Nat) : State :=
  s.logEvent { cls := 1, event := 0x60, kind := 10, part := part, detail := r }

/-- R73: a write of IRT_MSI: an event on a message route, for a device of a root port (`port`) only where the route's partition owns it. -/
def State.msiPut (s : State) (v : BitVec 32) (port : Option Nat) : State :=
  let r := bits v 0 12
  let ok := match port with
    | some n => s.partHasPort (s.fget .irtRoutePart r) n
    | none => true
  if decide (bits v 12 20 = 0) && decide (512 ≤ r) && ok then s.fireRoute r else s.doorbellLost r none

/-- R73: a write of IRT_MSI by a core or the control host. -/
def execMsiDoorbell (q : Req) (v : BitVec 32) (s : State) : Out :=
  s.ctlWrite q (RegKind.irtMsi.addr 0 0) 2 (v.zeroExtend 64) (fun s => s.msiPut v none)

/-- R71: every route of a partition disabled. -/
def State.clearRoutes (s : State) (p : Nat) : State :=
  let rs := ((s.regsOf .irtRoute).map (fun e => e.1)).filter (fun r => decide (s.fget .irtRoutePart r = p))
  rs.foldl (fun s r => s.rput .irtRoute r 0 (setBits (setBit (s.rget .irtRoute r) 0 false) 48 2 0)) s

/-- R94: the page and ASID that a shootdown's scope names. -/
def shootScope (v : W64) : Option Nat × Option Nat :=
  let va := bits v 12 36 * 4096
  let asid := bits v 48 16
  match bits v 0 2 with
  | 0 => (none, none)
  | 1 => (none, some asid)
  | 2 => (some va, none)
  | _ => (some va, some asid)

/-- An access of a context, marked by its context, its issue cycle and whether it is a fetch. -/
def Acc.mark (a : Acc) (i : Nat) (fetch : Bool) : Nat := (a.issued * 2 + b2n fetch) * 1024 + i

/-- R94 step 4: the accesses of a core that have not completed. -/
def Core.openAccs (k : Core) : List Nat :=
  k.ctxs.flatMap (fun e => (e.2.acc.map (fun a => a.mark e.1 false)).toList ++ (e.2.facc.map (fun a => a.mark e.1 true)).toList)

/-- R94 steps 1 and 2: a shootdown at a core, and what it waits for. -/
def execShootdownReceipt (core : Nat) (s : State) : Out :=
  match s.arrived (fun m => m.kind == .shoot && m.core == core) with
  | none => .next s
  | some m =>
    let s := s.takeMsg m
    let sc := shootScope m.val
    .next (s.modCore core (fun k =>
      let k := (k.tlbInval m.part sc.1 sc.2).discardWalks (s.cyc core)
      { k with shoots := k.shoots ++ [{ tag := m.tag, pkg := m.pkg, stores := k.sb.map (fun e => (e.ctx, e.filled)), accs := k.openAccs }] }))

/-- R94 steps 3 and 4: a shootdown waits for nothing more. -/
def Core.shootDone (k : Core) (h : Shoot) : Bool :=
  !k.sb.any (fun e => h.stores.contains (e.ctx, e.filled)) && !k.openAccs.any (fun a => h.accs.contains a)

/-- R94 step 5: a core acknowledges the oldest shootdown that waits for nothing more. -/
def execShootdownLocalDone (core : Nat) (s : State) : Out :=
  let k := s.core core
  match k.shoots.find? k.shootDone with
  | none => .next s
  | some h =>
    .next ((s.setCore core { k with shoots := k.shoots.erase h }).send { kind := .shootAck, core := core, tag := h.tag, pkg := h.pkg } (s.fcyc + 7))

/-- R94: every core has acknowledged: the issuer's BUSY clears, DONE is set and it is woken; or the issuing package is told. -/
def State.shootEnd (s : State) (tag from_ : Nat) : State :=
  let s := { s with fab := { s.fab with shoots := s.fab.shoots.filter (fun x => !(x.1 == tag && x.2.1 == from_)) } }
  if from_ ≠ s.pkg then s.reelSend from_ { op := .shootAck, m := { kind := .shootAck, tag := tag } }
  else
    match hartParts tag with
    | none => s
    | some (_, c, i) =>
      if (s.ctx c i).st = .empty then s
      else s.modCore c (fun k => (k.modCtx i (fun x => { x with xbusy := false, xdone := true })).wake (s.cyc c) i)

/-- R94: an acknowledgement reaches the issuer; the last one, no sooner than 60 F-cycles after the issue, ends the shootdown. -/
def execShootdownAck (s : State) : Out :=
  let ends := fun (x : Nat × Nat × List Nat × Nat) => x.2.2.1.isEmpty && decide (x.2.2.2 + 60 ≤ s.fcyc)
  match s.arrived (fun m => m.kind == .shootAck) with
  | some m =>
    let s := s.takeMsg m
    let s := { s with fab := { s.fab with shoots := s.fab.shoots.map (fun (x : Nat × Nat × List Nat × Nat) =>
      if x.1 = m.tag ∧ x.2.1 = m.pkg then (x.1, x.2.1, x.2.2.1.filter (· != m.core), x.2.2.2) else x) } }
    .next (match s.fab.shoots.find? ends with
      | some x => s.shootEnd x.1 x.2.1
      | none => s)
  | none =>
    .next (match s.fab.shoots.find? ends with
      | some x => s.shootEnd x.1 x.2.1
      | none => s)

end Sys2Proof.Machine
end

