-- ==== Sys2Proof/Machine/Kiln.lean ====
section
/-! DEFINITION. The kiln's command handling: packets, the checks on acceptance, order, relays and replies (R218, R236 to R246). -/

namespace Sys2Proof.Machine

/-- R241: the OPCODE of a packet. -/
def pktOp (p : List W64) : Nat := bits (p.getD 0 0) 0 16

/-- R241: LENGTH in units. -/
def pktLen (p : List W64) : Nat := bits (p.getD 0 0) 32 16

/-- R241: FLAGS. -/
def pktFlags (p : List W64) : Nat := bits (p.getD 0 0) 48 8

/-- R241: TARGET. -/
def pktTarget (p : List W64) : Nat := bits (p.getD 0 0) 56 8

/-- R241: parameter n of a command. -/
def KCmd.p (c : KCmd) (n : Nat) : W64 := c.pkt.getD (n + 1) 0

/-- R248 to R252: the lengths an opcode allows. -/
def opLens (op : Nat) : Option (Nat × Nat) :=
  match op with
  | 0x0001 => some (2, 32)
  | 0x0002 | 0x0003 | 0x0010 | 0x0011 => some (2, 2)
  | 0x0100 | 0x0106 | 0x0107 | 0x0108 => some (2, 2)
  | 0x0101 => some (6, 6)
  | 0x0102 => some (4, 4)
  | 0x0103 => some (7, 7)
  | 0x0104 => some (17, 17)
  | 0x0105 => some (5, 5)
  | 0x0200 | 0x0202 | 0x0203 => some (2, 2)
  | 0x0201 => some (3, 3)
  | 0x0300 | 0x0301 => some (3, 3)
  | 0x0302 | 0x0303 | 0x0304 | 0x0305 => some (2, 2)
  | 0x0306 => some (4, 4)
  | 0x0400 | 0x0401 | 0x0402 | 0x0403 | 0x0404 => some (2, 2)
  | 0x0500 => some (3, 3)
  | 0x0501 => some (2, 2)
  | 0x0600 | 0x0601 => some (2, 2)
  | 0x0700 | 0x0800 => some (3, 3)
  | 0x0801 => some (2, 2)
  | _ => none

/-- R236, R288: the privilege of a source: 0 for H, 1 for P, 2 for M; and the partition of a mailbox. -/
def State.srcPriv (s : State) (k : KSrc) : Nat × Nat :=
  match k with
  | .ring _ => (0, 0)
  | .mbx p _ host => (if host then 0 else if s.plat p then 1 else 2, p)
  | .peer _ _ priv part _ => (priv, part)

/-- R245: whether two commands have the same source. -/
def KSrc.same (a b : KSrc) : Bool :=
  match a, b with
  | .ring r, .ring t => decide (r = t)
  | .mbx p _ _, .mbx q _ _ => decide (p = q)
  | .peer q _ _ _ _, .peer r _ _ _ _ => decide (q = r)
  | _, _ => false

/-- R250, PWR_SET_PSTATE from M: the cores its masks name belong to its partition. -/
def State.pstateOwn (s : State) (c : KCmd) (part : Nat) : Bool :=
  let d := bits (c.p 0) 0 4
  let dies := if d = 15 then List.range 12 else [d]
  decide (bits (c.p 0) 4 4 = 15) &&
    dies.all (fun d => (List.range 20).all (fun i => !bit (c.p 1) i || s.partHasCore part (d * 20 + i)))

/-- R248 to R252: what a mailbox without PLATFORM privilege may ask for. The ranges of R190, R251 and the destination of LOG_READ are checked with
the commands' own refusals. -/
def State.mAllows (s : State) (c : KCmd) (part : Nat) : Bool :=
  match pktOp c.pkt with
  | 0x0001 | 0x0002 | 0x0202 | 0x0301 | 0x0306 | 0x0500 => true
  | 0x0010 | 0x0011 => decide (bits (c.p 0) 0 8 = 3) && decide (bits (c.p 0) 16 6 = part)
  | 0x0108 => decide (bits (c.p 0) 0 6 = part)
  | 0x0201 => s.pstateOwn c part
  | 0x0700 => bit (c.p 0) 30 && decide (bits (c.p 0) 24 6 = part)
  | _ => false

/-- R248 to R252: the sources of an opcode. -/
def State.permits (s : State) (c : KCmd) : Bool :=
  let (priv, part) := s.srcPriv c.src
  let t := pktTarget c.pkt
  if priv = 0 then true
  else if priv = 1 then !(decide (pktOp c.pkt = 0x0100) && bit (c.p 0) 9)
  else s.mAllows c part && (decide (t = 0xFF) || bit (BitVec.ofNat 8 (s.fget .prtCtlSpan part)) t)

/-- R234: the commands that act on the whole span of a partition, whatever package they target. -/
def spanOp (op : Nat) : Bool := decide (op = 0x0100) || decide (op = 0x0105) || decide (op = 0x0106) || decide (op = 0x0107)

/-- R218, R234, R244: the packages that a command is for. -/
def State.kilnTargets (s : State) (c : KCmd) : List Nat :=
  let t := pktTarget c.pkt
  let (priv, part) := s.srcPriv c.src
  match c.src with
  | .peer _ _ _ _ _ => [s.pkg]
  | _ =>
    if t = 0xFF && spanOp (pktOp c.pkt) then [s.pkg]
    else if t = 0xFF then
      (List.range 8).filter (fun q => if priv = 2 then bit (BitVec.ofNat 8 (s.fget .prtCtlSpan part)) q && s.member q else s.member q)
    else [t]

/-- R245, R246: what a command holds while it runs: the objects and engines that others wait for. -/
def KCmd.holds (c : KCmd) : List Nat :=
  let op := pktOp c.pkt
  let i := bits (c.p 0) 0 4
  if op / 256 = 1 then [0x100 + bits (c.p 0) 0 6]
  else if op = 0x0304 ∨ op = 0x0305 then [0x200 + i]
  else if op / 256 = 5 then [0x300]
  else if op = 0x0401 then [0x400 + i]
  else if op = 0x0600 then [0x400 + i]
  else if op = 0x0601 then [0x400 + i, 0x702]
  else if op = 0x0402 then [(if bits (c.p 0) 6 2 = 0 then 0x400 else 0x500) + bits (c.p 0) 0 6, 0x702]
  else if op = 0x0403 then [0x500 + i, 0x702]
  else if op = 0x0404 then [0x500 + i]
  else if op / 256 = 8 then [0x600]
  else if op = 0x0301 then [0x700]
  else if op = 0x0306 then [0x701]
  else if op = 0x0300 then [0x703]
  else []

/-- R261: the opcodes served in PS2 and PS3. -/
def servedAsleep (op : Nat) : Bool :=
  decide (op / 256 = 2) || [0x0001, 0x0002, 0x0003, 0x0010, 0x0011, 0x0108].contains op

/-- R245, R246: whether an accepted command may start: nothing accepted before it holds what it acts on, an ORDERED one follows its source's
commands, no switch of firmware is in progress (R254), and PS2 and PS3 leave it in service (R261). -/
def State.kcan (s : State) (c : KCmd) : Bool :=
  s.kiln.fwSwitch.isNone && (decide (s.fget .pwrStatusState ≤ 1) || servedAsleep (pktOp c.pkt)) &&
    s.kiln.cmds.all (fun o => decide (c.id ≤ o.id) ||
      (!o.holds.any (fun h => c.holds.contains h) && !(decide (pktFlags c.pkt / 2 % 2 = 1) && o.src.same c.src)))

/-- R244 checks 1 to 7. -/
def State.kcheck (s : State) (c : KCmd) : Nat :=
  let len := pktLen c.pkt
  let t := pktTarget c.pkt
  if len < 2 ∨ 64 < len then rBadLength
  else
    match opLens (pktOp c.pkt) with
    | none => rBadOpcode
    | some (lo, hi) =>
      if len < lo ∨ hi < len then rBadLength
      else if 4 ≤ pktFlags c.pkt ∨ (8 ≤ t ∧ t ≠ 0xFF) then rBadParameter
      else if !s.permits c then rNotPermitted
      else if t < 8 ∧ s.lost t then rLinkPeerLost
      else if t < 8 ∧ !s.member t then rLinkPeerAbsent
      else if (match c.src with | .ring _ => decide (64 < (s.kiln.cmds.filter (fun (o : KCmd) => o.src.same c.src)).length) | _ => false) then rQueueFull
      else if (s.kilnTargets c).any (fun q => decide (32 ≤ (s.reel.relays.filter (fun (r : Nat × Nat × Nat) => r.2.1 == q)).length)) then rQueueFull
      else if !s.kcan c ∧ 256 ≤ (s.kiln.cmds.filter (fun (o : KCmd) => !o.started && o.id != c.id)).length then rQueueFull
      else 0

/-- A command of the kiln. -/
def State.kfind (s : State) (id : Nat) : Option KCmd := s.kiln.cmds.find? (fun c => c.id == id)

/-- A command changed. -/
def State.kmod (s : State) (id : Nat) (f : KCmd → KCmd) : State :=
  { s with kiln := { s.kiln with cmds := s.kiln.cmds.map (fun c => if c.id = id then f c else c) } }

/-- R242: a reply packet. -/
def replyPkt (c : KCmd) (status : Nat) (result : W64) (more : List W64) : List W64 :=
  let body := if status = 0 then result :: more else [0]
  BitVec.ofNat 64 (pktOp c.pkt + bits (c.pkt.getD 0 0) 16 16 * 2 ^ 16 + (body.length + 1) * 2 ^ 32 + status * 2 ^ 48) :: body

/-- R242: the STATUS of a reply. -/
def replyStatus (p : List W64) : Nat := bits (p.getD 0 0) 48 16

/-- R218: a kiln relay sent to a member: its cells on the bundle, and its payload. -/
def State.krelaySend (s : State) (q : Nat) (k : KRelay) : State :=
  let n := match k with
    | .command p _ _ _ _ => (p.length + 1) / 2
    | .reply _ p => (p.length + 1) / 2
    | .windowCopy _ _ w c => (w.length + c.length + 1) / 2
    | _ => 1
  ({ s with reel := { s.reel with relayOut := s.reel.relayOut ++ [(q, k)] } }).reelSend q { op := .krelay, len := n }

/-- R238, R240, R218: a command's reply goes to its source: it waits to be written, or is relayed back. R336: the kiln's own enable of partition 0
(source 5) logs a refusal. -/
def State.kfinish (s : State) (c : KCmd) (pkt : List W64) : State :=
  let s := { s with kiln := { s.kiln with cmds := s.kiln.cmds.filter (fun o => o.id != c.id)
                                          got := s.kiln.got.filter (fun g => g.1 != c.id) } }
  match c.src with
  | .peer q rid _ _ _ => s.krelaySend q (.reply rid pkt)
  | .ring 5 => if replyStatus pkt = 0 then s else s.logEvent { cls := 1, event := 1, kind := 0, reason := replyStatus pkt, detail := 9 }
  | src => { s with kiln := { s.kiln with replies := s.kiln.replies ++ [{ src := src, notify := decide (pktFlags c.pkt % 2 = 1), pkt := pkt }] } }

/-- R218: the reply to a command for several packages: this package's, or that of the lowest-numbered member that did not reply OK. -/
def State.kgather (s : State) (c : KCmd) : State :=
  if s.reel.relays.any (fun r => r.2.2 == c.id) then s
  else
    let gs := s.kiln.got.filter (fun g => g.1 == c.id)
    let bad := (List.range 8).findSome? (fun q => (gs.find? (fun g => g.2.1 == q && replyStatus g.2.2 != 0)).map (fun g => g.2.2))
    match bad, gs.find? (fun g => g.2.1 == s.pkg), gs.head? with
    | some p, _, _ => s.kfinish c p
    | none, some g, _ => s.kfinish c g.2.2
    | none, none, some g => s.kfinish c g.2.2
    | none, none, none => s

/-- R249: a partition command but PART_CREATE leaves the reason of its refusal in PRT_CTLp. -/
def State.partReason (s : State) (c : KCmd) (status : Nat) : State :=
  if status ≠ 0 && decide (0x101 ≤ pktOp c.pkt) && decide (pktOp c.pkt ≤ 0x108) then s.fput .prtCtlReason (bits (c.p 0) 0 6) 0 status else s

/-- R242: a command replies. -/
def State.kreply (s : State) (id status : Nat) (result : W64 := 0) (more : List W64 := []) : State :=
  match s.kfind id with
  | none => s
  | some c =>
    let s := s.partReason c status
    let s := { s with kiln := { s.kiln with got := s.kiln.got ++ [(id, s.pkg, replyPkt c status result more)] } }
    (s.kmod id (fun c => { c with running := true })).kgather c

/-- R218: a command relayed to a member's kiln. -/
def State.krelayCmd (s : State) (c : KCmd) (q : Nat) (pkt : List W64) (here : Bool := false) : State :=
  let rid := s.reel.relayNext
  let (priv, part) := s.srcPriv c.src
  ({ s with reel := { s.reel with relayNext := rid + 1, relays := s.reel.relays ++ [(rid, q, c.id)] } }).krelaySend q (.command pkt priv part rid here)

/-- R244, R245: a command accepted: checked, relayed where it is for others, and started where it may be. -/
def State.kaccept (s : State) (src : KSrc) (pkt : List W64) : State :=
  let id := s.kiln.next
  let c : KCmd := { id := id, src := src, pkt := pkt, started := false }
  let s := { s with kiln := { s.kiln with cmds := s.kiln.cmds ++ [c], next := id + 1 } }
  let r := s.kcheck c
  if r ≠ 0 then s.kreply id r
  else
    let ts := s.kilnTargets c
    let s := (ts.filter (· != s.pkg)).foldl (fun s q => s.krelayCmd c q pkt) s
    if ts.contains s.pkg then (if s.kcan c then s.kmod id (fun c => { c with started := true }) else s)
    else s.kmod id (fun c => { c with started := true, running := true })

/-- R218: a relayed command's reply reaches its sender. -/
def State.kreplied (s : State) (rid : Nat) (pkt : List W64) : State :=
  match s.reel.relays.find? (fun r => r.1 == rid) with
  | none => s
  | some (_, q, id) =>
    let s := { s with reel := { s.reel with relays := s.reel.relays.filter (fun r => r.1 != rid) }
                      kiln := { s.kiln with got := s.kiln.got ++ [(id, q, pkt)] } }
    match s.kfind id with
    | some c => if (s.kilnTargets c).contains s.pkg && !s.kiln.got.any (fun g => g.1 == id && g.2.1 == s.pkg) then s else s.kgather c
    | none => s

/-- A command that its own row may carry out now: accepted, started, of that opcode, and not running already. -/
def State.kready (s : State) (id op : Nat) : Option KCmd :=
  (s.kfind id).filter (fun c => c.started && !c.running && decide (pktOp c.pkt = op))

/-- A command's row: nothing happens unless the command is there to be carried out. -/
def State.krun (s : State) (id op : Nat) (f : KCmd → State → State) : Out :=
  match s.kready id op with
  | some c => .next (f c s)
  | none => .next s

/-- A command goes on while an engine works for it. -/
def State.krunning (s : State) (id acc : Nat) : State := s.kmod id (fun c => { c with running := true, acc := acc })

/-- R245: an accepted command starts once nothing it waits for is left. -/
def execDeferredCommandStart (id : Nat) (s : State) : Out :=
  match s.kfind id with
  | some c => .next (if !c.started && s.kcan c then s.kmod id (fun c => { c with started := true }) else s)
  | none => .next s

end Sys2Proof.Machine
end

