-- ==== Sys2Proof/Machine/Peer.lean ====
section
/-! DEFINITION. Loss of a package, of a reel link and of a bundle, and the FATAL outcome (R131, R211, R220 to R223, R235, R345). -/

namespace Sys2Proof.Machine

/-- R131: lines of this package's memory that the lost package owned are poisoned, and its bit leaves every vector. -/
def State.vecsLose (s : State) (r : Nat) : State :=
  (s.home.vec.filter (fun e => bit e.2 r)).foldl (fun s e =>
    if bit e.2 s.pkg then (s.setVec e.1 0).poisonLine e.1 r else s.setVec e.1 (setBit e.2 r false)) s

/-- R131: a tracker that awaits the lost package's answer gets it on that package's behalf. -/
def State.trkLoses (s : State) (n r : Nat) (t : Trk) : State :=
  let line := t.req.line
  let owned := bit (s.vecOf line) r && bit (s.vecOf line) s.pkg
  s.modTrk n line (fun t => { t with rsnp := t.rsnp.filter (· != r), timer := s.fcyc
                                     data := if owned then some 0 else t.data, fail := if owned then rPoisoned else t.fail })

/-- R131, R223: what a home slice does when a package is lost. -/
def State.sliceLosesPkg (s : State) (r n : Nat) : State :=
  let waits := (s.slice n).trk.filter (fun t => t.active && t.rhome == 8 && t.rsnp.contains r)
  let s := waits.foldl (fun s t => s.trkLoses n r t) s
  let s := s.modSlice n (fun sl => { sl with arr := sl.arr.filter (fun m => m.pkg != r), trk := sl.trk.filter (fun t => t.rhome != r) })
  let s := ((s.slice n).trk.filter (fun t => t.active && t.remote && pkgOf (t.req.line * 64) == r)).foldl
    (fun s t => s.refuse n { t with remote := false } (s.fcyc + 1) rPeerLost) s
  let s := ((s.slice n).fwd.filter (fun m => pkgOf (m.line * 64) == r)).foldl
    (fun s m => if m.core < 240 then s.send { m with kind := if m.kind = .wb then .wbAck else .evcAck, slice := n } (s.fcyc + 3) else s) s
  let s := s.modSlice n (fun sl => { sl with fwd := sl.fwd.filter (fun m => pkgOf (m.line * 64) != r) })
  let s := ((s.slice n).dup.filter (fun d => pkgOf (d.line * 64) == r)).foldl
    (fun s d => (s.snoop n d.line d.core true (s.fcyc + 1)).modSlice n (fun sl => { sl with rcOut := sl.rcOut ++ [(d.line, d.core)] })) s
  waits.foldl (fun s t => s.settle n t.req.line) s

/-- R218, R223: relayed commands outstanding at a lost package are answered LINK_PEER_LOST. -/
def State.relaysLose (s : State) (r : Nat) : State :=
  (s.reel.relays.filter (fun x => x.2.1 == r)).foldl (fun s x =>
    match s.kfind x.2.2 with
    | some c => s.kreplied x.1 (replyPkt c rLinkPeerLost 0 [])
    | none => s) s

/-- R223: SPAWNs toward a lost package return −1. -/
def State.spawnsLose (s : State) (r : Nat) : State :=
  s.cores.foldl (fun s e => e.2.ctxs.foldl (fun s x =>
    match x.2.spawnRd with
    | some v => if v / 32 = r then s.spawnReply { kind := .spawn, tag := s.hartid e.1 x.1 } (-1) else s
    | none => s) s) s

/-- R223, R120: non-coherent accesses toward a lost package: reads complete with PEER_LOST, writes are discarded and logged. -/
def State.ncLoses (s : State) (r : Nat) : State :=
  let gone := fun (q : NcReq) => q.dram && pkgOf q.pa == r
  let s := { s with home := { s.home with ncDone := s.home.ncDone.map (fun (q : NcReq) => if gone q then { q with dram := false, status := rPeerLost } else q) } }
  s

/-- R235: the parts of partitions that spanned a lost package. -/
def State.partsLose (s : State) (r : Nat) : State :=
  ((List.range 64).filter (fun p => s.partState p ≠ 0 && bit (BitVec.ofNat 8 (s.fget .prtCtlSpan p)) r)).foldl (fun s p =>
    (s.fput .prtCtlLostspan p 0 (setBit (BitVec.ofNat 8 (s.fget .prtCtlLostspan p)) r true).toNat).notify (some p)
      { tag := 0, status := rLinkPeerLost, result := BitVec.ofNat 64 r, kind := 6 }) s

/-- R72, R223: routes whose delivery is on its way to a lost package. -/
def State.routesLose (s : State) (r : Nat) : State :=
  let rs := ((s.regsOf .irtRoute).map (fun e => e.1)).filter (fun n =>
    decide (s.fget .irtRouteSent n = 1) && decide (s.fget .irtRouteTarget n / 2 ^ 18 = r))
  rs.foldl (fun s n => s.routeLost n) s

/-- R222: the links to a package are taken down. -/
def State.linksDown (s : State) (r reason : Nat) : State :=
  ((List.range 10).filter (fun k => decide (s.fget .reelStatPeerv k = 1) && decide (s.fget .reelStatPeer k = r))).foldl (fun s k =>
    let s := match (s.rport k).cmd with
      | some id => s.kreply id reason
      | none => s
    ((s.fput .reelStatState k 0 5).fput .reelStatReason k 0 reason).modRport k (fun _ => {})) s

/-- R131, R222, R223, R235: a package is lost. -/
def State.losePackage (s : State) (r : Nat) : State :=
  if s.lost r ∨ !s.member r ∨ r = s.pkg then s
  else
    let s := s.linksDown r rLinkPeerLost
    let s := { s with reel := { s.reel with rx := s.reel.rx.filter (fun m => m.msg.src != r)
                                            quiesce := s.reel.quiesce.filter (· != r)
                                            held := s.reel.held.filter (fun m => m.1 != r) } }
    let s := (List.range 16).foldl (fun s n => s.sliceLosesPkg r n) s
    let s := ((s.vecsLose r).fput .reelSysLost 0 0 (s.fget .reelSysLost + 2 ^ r))
    let s := { s with fab := { s.fab with
      shoots := (s.fab.shoots.filter (fun (x : Nat × Nat × List Nat × Nat) => x.2.1 != r)).map (fun (x : Nat × Nat × List Nat × Nat) => (x.1, x.2.1, x.2.2.1.filter (· != 240 + r), x.2.2.2)) } }
    let s := ((((s.relaysLose r).spawnsLose r).ncLoses r).partsLose r).routesLose r
    s.logEvent { cls := 2, event := 0x40, kind := 7, detail := r * 256 }

/-- R221: the kiln tells every member, and the package named, of an expulsion. -/
def State.tellExpel (s : State) (x : Nat) : State :=
  ((List.range 8).filter (fun q => q ≠ s.pkg && s.member q)).foldl (fun s q => s.krelaySend q (.expel x)) s

/-- R222: a package expelled, or that expels itself, runs alone: its links go down and every other member is lost to it. -/
def State.expelSelf (s : State) : State :=
  let s := ((List.range 8).filter (fun q => q ≠ s.pkg && s.member q)).foldl (fun s q => s.losePackage q) s
  let s := { s with reel := { s.reel with lossSent := none, deputyWait := none } }
  s.fput .reelSysLead 0 0 s.pkg

/-- R222: EXPEL of a package at a member; R217, R221: with the lead gone, the deputy, the lowest-numbered member, leads. -/
def State.expelled (s : State) (x : Nat) : State :=
  let s := { s with reel := { s.reel with lossSent := match s.reel.lossSent with
    | some (q, t) => if x = q ∨ x = s.pkg then none else some (q, t)
    | none => none } }
  if x = s.pkg then s.expelSelf
  else
    let s' := s.losePackage x
    if x = s.fget .reelSysLead then s'.fput .reelSysLead 0 0 (((List.range 8).find? (fun q => s'.member q)).getD s.pkg) else s'

/-- R221: the lead decides: EXPEL goes to every member, and is applied here. -/
def State.decideExpel (s : State) (x : Nat) : State := if s.lost x then s else (s.tellExpel x).expelled x

/-- R214: the deputy: the lowest-numbered member other than the lead. -/
def State.deputy (s : State) : Option Nat := (List.range 8).find? (fun q => s.member q && q ≠ s.fget .reelSysLead)

/-- R221: the last link of a bundle has failed. -/
def State.bundleFailed (s : State) (q : Nat) : State :=
  let lead := s.fget .reelSysLead
  let others := (List.range 8).filter (fun x => x ≠ s.pkg && s.member x)
  if others.all (fun x => (s.bundle x).isEmpty) then s.expelSelf
  else if s.reel.deputyWait.isSome then { s with reel := { s.reel with deputyWait := none, lossSent := some (q, s.now) } }
  else if s.pkg = lead then s.decideExpel q
  else if q ≠ lead then
    let s := { s with reel := { s.reel with lossSent := some (q, s.now) } }
    s.krelaySend lead (.loss s.pkg q)
  else if s.deputy = some s.pkg then { s with reel := { s.reel with deputyWait := some (s.now + 200 * usTicks) } }
  else
    let s := { s with reel := { s.reel with lossSent := some (q, s.now) } }
    match s.deputy with
    | some d => s.krelaySend d (.loss s.pkg q)
    | none => s

/-- R211, R220, R221: a link has failed: it leaves its bundle, whose other links resynchronise, or the bundle itself has failed. -/
def State.linkFail (s : State) (k reason : Nat) : State :=
  let st := s.fget .reelStatState k
  if st ≠ 2 ∧ st ≠ 3 then s
  else
    let q := s.fget .reelStatPeer k
    let s := match (s.rport k).cmd with
      | some id => s.kreply id reason
      | none => s
    let s := s.modRport k (fun p => { p with cmd := none, joining := false, draining := false })
    let s := (s.fput .reelStatState k 0 4).fput .reelStatReason k 0 reason
    let s := s.logEvent { cls := 2, event := 0x40, kind := 7, idx := k, reason := reason, detail := k + q * 256 }
    if (s.bundle q).isEmpty then s.bundleFailed q
    else
      let s := { s with reel := { s.reel with quiesce := if s.reel.quiesce.contains q then s.reel.quiesce else s.reel.quiesce ++ [q] } }
      (s.modRport k (fun p => { p with resyncWait := true })).reelSend q { op := .resync, ctl := BitVec.ofNat 96 k }

/-- R148, R220: a reply timeout fails every link of the bundle to a package. -/
def State.bundleTimeout (s : State) (q : Nat) : State := (s.bundle q).foldl (fun s k => s.linkFail k rLinkPeerLost) s

/-- R345: a FATAL error: every compute die is held in reset with no writeback, every root port's bus mastering is blocked, and the package
expels itself. -/
def State.fatal (s : State) (structure_ : Nat) (kind idx : Nat) : State :=
  let s := s.logEvent { cls := 3, event := 0xF0, kind := kind, idx := idx, detail := structure_ }
  let s := (List.range 12).foldl (fun s d => (s.modDie d (fun x => { x with rstHeld := true })).fput .slpDstatState d 0 0) s
  let s := (List.range 240).foldl (fun s c => s.setCore c { cycBase := s.cyc c, cycRef := s.now, clockOn := false, rst := true }) s
  let s := { s with fab := { s.fab with net := s.fab.net.filter (fun (m : Msg) => decide (m.kind = MsgKind.complete)), egress := [], used := [] } }
  let s := (List.range 20).foldl (fun s n => s.fput .rptCtlBmblk n 0 1) s
  s.expelSelf

end Sys2Proof.Machine
end

