-- ==== Sys2Proof/Machine/Ras.lean ====
section
/-! DEFINITION. What follows from read outcomes: device events and marks (R185), retired pages (R195), and the removal of lines from every L2
(R372). -/

namespace Sys2Proof.Machine

/-- R372: whether a slice still holds a removal of a line of a range. -/
def State.removing (s : State) (base n : Nat) : Bool :=
  (List.range 16).any (fun i =>
    (s.slice i).trk.any (fun t => t.noReq && decide (base ≤ t.req.line) && decide (t.req.line < base + n)) ||
      (s.slice i).arr.any (fun m => m.core == 255 && decide (base ≤ m.line) && decide (m.line < base + n)))

/-- R372: the lines of a range that an L2 holds or asks for. -/
def State.heldLines (s : State) (base n : Nat) : List Nat :=
  let all := (List.range 16).flatMap (fun i => (s.slice i).dup.map (fun d => d.line) ++ (s.slice i).trk.map (fun t => t.req.line))
  (all.filter (fun l => decide (base ≤ l) && decide (l < base + n))).eraseDups

/-- R372: the kiln asks the home of each such line for its removal, as AMO_H(FLUSH) with no requesting core. -/
def State.startRemoval (s : State) (base n : Nat) : State :=
  (s.heldLines base n).foldl (fun s l =>
    s.modSlice (sliceOf l) (fun sl => { sl with arr := sl.arr ++ [{ kind := .amoH, line := l, core := 255, part := (s.linePart l).getD 0, slice := sliceOf l
                                                                    pkg := s.pkg, far := .flush, at_ := s.fcyc }] })) s

/-- R195: the lines of a page that the MSC holds are written to DRAM and leave it. -/
def State.flushMsc (s : State) (base n : Nat) : State :=
  ((s.home.msc.map (fun e => e.1)).filter (fun l => decide (base ≤ l) && decide (l < base + n))).foldl (fun s l => s.evictMsc l) s

/-- R195: the outcome of a page's retirement, logged and reported: 0 retired, 1 refused for a full table, 2 the conditions met in ASSIST mode. -/
def State.pageLog (s : State) (page what : Nat) : State :=
  let p := s.linePart (page * 64)
  let s := s.logEvent { cls := if what = 2 then 1 else 2, event := 0x13, kind := 0, part := p, addr := page * 4096
                        reason := if what = 1 then rMemRetireFull else 0, detail := what }
  if what = 1 then s else s.notify p { tag := 0, status := 0, result := BitVec.ofNat 64 (page * 4096), kind := what + b2n (decide (what = 0)) }

/-- R195: a page's removal has ended: its entry is installed. -/
def State.installRetired (s : State) (page tag : Nat) : State :=
  let s := s.flushMsc (page * 64) 64
  let s := { s with home := { s.home with retired := if s.home.retired.contains page then s.home.retired else s.home.retired ++ [page] } }
  let s := s.pageLog page 0
  if tag = 0 then s else s.kreply (tag - 1) 0 (BitVec.ofNat 64 s.home.retired.length)

/-- R195, R372: removals that have ended. -/
def State.finishRemovals (s : State) : State :=
  (s.home.removals.filter (fun r => !s.removing r.2.1 r.2.2.1)).foldl (fun s r =>
    let s := { s with home := { s.home with removals := s.home.removals.erase r } }
    if r.1 = 0 then s.installRetired (r.2.1 / 64) r.2.2.2 else s) s

/-- R195: the retirement of a page begins; `tag` is the command that waits + 1. -/
def State.startRetire (s : State) (page tag : Nat) : State :=
  let s := s.startRemoval (page * 64) 64
  let s := { s with home := { s.home with removals := s.home.removals ++ [(0, page * 64, 64, tag)] } }
  s.finishRemovals

/-- R195: a page meets the conditions of retirement. -/
def State.pageDue (s : State) (page : Nat) : State :=
  if s.home.retired.contains page || s.home.removals.any (fun r => r.1 == 0 && r.2.1 == page * 64) then s
  else if !s.hwMode 4 then s.pageLog page 2
  else if 1024 ≤ s.home.retired.length then s.pageLog page 1
  else s.startRetire page 0

/-- R185: a device's mark set, or removed (15). -/
def State.setMark (s : State) (mc sub rank dev : Nat) : State :=
  let v := if dev = 15 then 0 else 1
  let d := if dev = 15 then 0 else dev
  if sub = 0 then (s.fput .mcMarkAdev mc rank d).fput .mcMarkAv mc rank v else (s.fput .mcMarkBdev mc rank d).fput .mcMarkBv mc rank v

/-- R185: a device has reached its limit of events. -/
def State.deviceDue (s : State) (line dev : Nat) : State :=
  let a := s.dramAt (line * 64)
  let mc := mcOf (line * 64)
  let at_ := dev + a.1 * 16 + a.2.2.2.2 * 256
  if s.hwMode 5 && (s.markOf line).isNone then
    (s.setMark mc a.1 a.2.2.2.2 dev).logEvent { cls := 2, event := 0x12, kind := 4, idx := mc, detail := at_ }
  else if s.markOf line = some dev then s
  else
    (s.logEvent { cls := 1, event := 0x12, kind := 4, idx := mc, detail := at_ + 4096 }).notify none
      { tag := 0, status := 0, result := BitVec.ofNat 64 (mc + a.1 * 16 + a.2.2.2.2 * 256 + dev * 4096), kind := 3 }

/-- R185: device events of a corrected read. -/
def State.deviceEvents (s : State) (line : Nat) (d : Decoded) : State :=
  let a := s.dramAt (line * 64)
  let mc := mcOf (line * 64)
  ((List.range 10).filter (fun dev => 3 ≤ devCount d.fixed dev)).foldl (fun s dev =>
    let key := ((mc * 2 + a.1) * 16 + a.2.2.2.2) * 16 + dev
    let n := Tab.get 0 s.mem.devEv key + 1
    let s := { s with mem := { s.mem with devEv := Tab.put 0 s.mem.devEv key n } }
    if n = max 1 (s.fget .glbMemrasDevLimit) then s.deviceDue line dev else s) s

/-- R195: corrected reads of a page counted. -/
def State.pageEvent (s : State) (line : Nat) : State :=
  let page := line / 64
  let n := Tab.get 0 s.mem.pageCe page + 1
  let s := { s with mem := { s.mem with pageCe := Tab.put 0 s.mem.pageCe page n } }
  if n = max 1 (s.fget .glbMemrasPageCe) then s.pageDue page else s

/-- R184, R185, R189, R195: what a demand or patrol read's outcome leads to. -/
def State.readOutcome (s : State) (line : Nat) (d : Decoded) (patrol : Bool) : State :=
  let s := s.eccCount line d patrol
  match d.out with
  | .clean => s
  | .corrected => (s.deviceEvents line d).pageEvent line
  | .poisoned => s
  | .uncorrectable => s.pageDue (line / 64)

/-- R184: F-cycles a read's decode adds: 4 unless it is CLEAN in a rank with no marked device. -/
def State.decodeDelay (s : State) (line : Nat) (d : Decoded) : Nat :=
  if decide (d.out = .clean) && (s.markOf line).isNone then 0 else 4

end Sys2Proof.Machine
end

