-- ==== Sys2Proof/Machine/HomeCmd.lean ====
section
/-! DEFINITION. The commands of the home slices: arrival, admission, releases, snoop answers, and their reel counterparts (R103 to
R119, R125 to R132, R140, R145, R148, R181, R344). -/

namespace Sys2Proof.Machine

/-- R105, R147: the source of an arrival: a compute die, a reel port by its package, or the I/O agents. -/
def State.srcOf (s : State) (m : Msg) : Nat := if m.pkg = s.pkg then (if m.core < 240 then dieOf m.core else 22) else 12 + m.pkg

/-- R105, R147: a request reaches the slice's arrival queue, four deep per source; beyond that its stream holds it (R136). -/
def State.arrive (s : State) (n : Nat) (m : Msg) : Option State :=
  if 4 ≤ ((s.slice n).arr.filter (fun a => s.srcOf a == s.srcOf m)).length then none
  else some ((s.takeMsg m).modSlice n (fun sl => { sl with arr := sl.arr ++ [m] }))

/-- A request of a kind reaches its slice. -/
def State.reqArrives (s : State) (n : Nat) (k : MsgKind) : Out :=
  match s.arrived (fun m => m.kind == k && m.slice == n) with
  | none => .next s
  | some m => .next ((s.arrive n m).getD s)

/-- R107: an RD_S reaches its home slice. -/
def execRdS (slice : Nat) (s : State) : Out := s.reqArrives slice .rdS

/-- R107: an RD_M reaches its home slice. -/
def execRdM (slice : Nat) (s : State) : Out := s.reqArrives slice .rdM

/-- R113: a UPG reaches its home slice. -/
def execUpg (slice : Nat) (s : State) : Out := s.reqArrives slice .upg

/-- R106, R115, R116: an AMO_H reaches its home slice: its implied eviction is applied, and it waits for admission. -/
def execAmoH (slice : Nat) (s : State) : Out :=
  match s.arrived (fun m => m.kind == .amoH && m.slice == slice) with
  | none => .next s
  | some m =>
    match s.arrive slice m with
    | none => .next s
    | some s =>
      let s := s.pev 0 11 slice m.part 1
      .next (if (s.dupOf m.line m.core).isSome then ((s.pev 0 13 slice m.part 1).dupDel m.line m.core).settle slice m.line else s)

/-- R110, R128: whether a snoop made for another package awaits a core's answer about a line. -/
def Slice.farSnoop (sl : Slice) (line core : Nat) : Bool :=
  sl.trk.any (fun t => t.rhome != 8 && t.req.line == line && t.snp.contains core)

/-- R103: WB_ACK or EVC_ACK to a core. -/
def State.ackRelease (s : State) (n : Nat) (m : Msg) : State :=
  if m.core < 240 then s.send { m with kind := if m.kind = .wb then .wbAck else .evcAck, slice := n } (s.fcyc + 3) else s

/-- R106, R145: a released line's data is written at once in a slot its partition may use, and waits in the write buffer otherwise. -/
def State.storeReleased (s : State) (n : Nat) (m : Msg) : State :=
  if s.slotAllows n s.fcyc m.part then s.writeReleased n m else s.modSlice n (fun sl => { sl with wbuf := sl.wbuf ++ [m] })

/-- R106, R112, R117, R129: a WB in the release port. -/
def State.releaseWb (s : State) (n : Nat) (m : Msg) : State :=
  match s.dupOf m.line m.core with
  | some e =>
    if e.m then
      let far := (s.slice n).farSnoop m.line m.core
      let s := if m.flag then s.dupSet m.line m.core false e.way else s.dupDel m.line m.core
      let s :=
        if s.homed m.line then s.storeReleased n m
        else if far || !s.member (pkgOf (m.line * 64)) then s.ackRelease n m
        else s.forwardRelease n m
      (s.copyEnds n m.line m.core (some m.data) m.poison false).settle n m.line
    else s.ackRelease n m
  | none => s.ackRelease n m

/-- R106: a WB is applied on arrival. -/
def execWb (slice : Nat) (s : State) : Out :=
  match s.arrived (fun m => m.kind == .wb && m.slice == slice) with
  | none => .next s
  | some m => .next (((s.takeMsg m).pev 0 13 slice m.part 1).releaseWb slice m)

/-- R106, R112, R129: an EVC in the release port. -/
def State.releaseEvc (s : State) (n : Nat) (m : Msg) : State :=
  if (s.dupOf m.line m.core).isNone then s.ackRelease n m
  else
    let far := (s.slice n).farSnoop m.line m.core
    let s := s.dupDel m.line m.core
    let s :=
      if !s.homed m.line && s.member (pkgOf (m.line * 64)) && (s.holders m.line).isEmpty && !far then s.forwardRelease n m else s.ackRelease n m
    s.settle n m.line

/-- R106: an EVC is applied on arrival. -/
def execEvc (slice : Nat) (s : State) : Out :=
  match s.arrived (fun m => m.kind == .evc && m.slice == slice) with
  | none => .next s
  | some m => .next (((s.takeMsg m).pev 0 13 slice m.part 1).releaseEvc slice m)

/-- R132, R344: a tracker whose recovery snoops are all answered looks its line up again. -/
def State.redoLookup (s : State) (n line : Nat) : State :=
  match (s.slice n).busy line with
  | none => s
  | some t =>
    if t.redo && t.snp.isEmpty && t.rsnp.isEmpty then
      let t := { t with redo := false }
      (s.modTrk n line (fun _ => t)).lookup n t
    else s

/-- R119: a range-clean snoop is answered. -/
def State.rcAnswered (s : State) (n line core : Nat) : State :=
  s.modSlice n (fun sl => { sl with rcOut := sl.rcOut.erase (line, core) })

/-- R108, R110, R132: a snoop answer without data. -/
def execSnpAck (slice : Nat) (s : State) : Out :=
  match s.arrived (fun m => m.kind == .snpAck && m.slice == slice) with
  | none => .next s
  | some m =>
    let s := s.takeMsg m
    if m.arg = 1 then
      .next ((s.modTrk slice m.line (fun t => { t with snp := t.snp.filter (· != m.core), timer := s.fcyc })).redoLookup slice m.line)
    else
      let s := match s.dupOf m.line m.core with
        | some e => if m.flag then s else if e.m then s else s.dupDel m.line m.core
        | none => s
      .next (((s.rcAnswered slice m.line m.core).copyEnds slice m.line m.core none false true).settle slice m.line)

/-- R108, R112, R119: a snoop answer with the line: written to the MSC, or sent to the line's home; discarded if the sender's entry no longer
shows M. -/
def State.takeSnpData (s : State) (n : Nat) (m : Msg) : State :=
  match s.dupOf m.line m.core with
  | some e =>
    if e.m then
      let rc := (s.slice n).rcOut.contains (m.line, m.core)
      let s := if m.flag then s.dupSet m.line m.core false e.way else s.dupDel m.line m.core
      let s :=
        if s.homed m.line then s.mscWrite m.line m.data m.poison
        else if rc && s.member (pkgOf (m.line * 64)) then s.forwardRelease n { m with kind := .wb, core := 255 }
        else s
      ((s.rcAnswered n m.line m.core).copyEnds n m.line m.core (some m.data) m.poison true).settle n m.line
    else
      let s := if m.flag then s else s.dupDel m.line m.core
      ((s.rcAnswered n m.line m.core).copyEnds n m.line m.core none false true).settle n m.line
  | none => ((s.rcAnswered n m.line m.core).copyEnds n m.line m.core none false true).settle n m.line

/-- R108: a snoop answer with data. -/
def execSnpData (slice : Nat) (s : State) : Out :=
  match s.arrived (fun m => m.kind == .snpData && m.slice == slice) with
  | none => .next s
  | some m => .next ((s.takeMsg m).takeSnpData slice m)

/-- R132: an uncorrectable duplicate entry: the core is asked to evict what its set and way hold, and the request waits. -/
def State.recoverDup (s : State) (n line core set way : Nat) : State :=
  let s := s.fbump .hsDterrRecov n 0
  let s := s.fput .hsDterrLastset n 0 (set / 16 % 64 * 1024 + core % 256 * 4)
  let s := s.fput .hsDterrLastway n 0 way
  let s := s.logEvent { cls := 1, event := 0x30, kind := 3, idx := n, detail := (s.rget .hsDterr n).toNat }
  let s := s.modTrk n line (fun t => { t with redo := true, snp := [core], timer := s.fcyc })
  s.send { kind := .snpInv, line := line, core := core, slice := n, flag := true, arg := set, way := way } (s.fcyc + 4)

/-- R344: an uncorrectable directory-cache vector is taken as every member's bit with OWNED clear, and rebuilt from the answers. -/
def State.recoverDir (s : State) (n line : Nat) : State :=
  let qs := (List.range 8).filter (fun q => q ≠ s.pkg && s.member q)
  let s := s.setVec line (qs.foldl (fun v q => setBit v q true) 0)
  let s := s.logEvent { cls := 1, event := 0x30, kind := 3, idx := n, addr := line * 64, detail := (s.rget .hsDterr n).toNat }
  match (s.slice n).busy line with
  | none => s
  | some t =>
    let s := s.modTrk n line (fun t => { t with redo := true, rsnp := qs, timer := s.fcyc })
    let s := s.sendLong n t (s.fcyc + 1)
    qs.foldl (fun s q => s.reelSend q { op := .rsnpInv, m := { t.req with slice := n }, excl := decide (q = t.req.pkg) }) s

/-- R132, R181, R344: an error of a slice structure met at a lookup; `true` when the lookup goes on in this F-cycle. -/
def State.homeErr (s : State) (n line : Nat) (e : HomeErr) : State × Bool :=
  match e with
  | .none => (s, true)
  | .dupCe => (s.fbump .hsDterrCorr n 0, true)
  | .dupUe core set way => (s.recoverDup n line core set way, false)
  | .mscCe => (s.logEvent { cls := 1, event := 0, kind := 3, idx := n, addr := line * 64 }, true)
  | .mscDataUe =>
    match s.msc line with
    | some m => (if m.d then s.setMsc line { m with p := true } else s.dropMsc line, true)
    | none => (s, true)
  | .mscTagUe => (s.fatal 1 3 n, false)
  | .trkCe => (s.logEvent { cls := 1, event := 0, kind := 3, idx := n, addr := line * 64 }, true)
  | .trkUe => (s.fatal 2 3 n, false)
  | .dirCe => (s.logEvent { cls := 1, event := 0x30, kind := 3, idx := n, addr := line * 64, detail := (s.rget .hsDterr n).toNat }, true)
  | .dirUe => if s.npkg ≤ 1 || !s.homed line then (s, true) else (s.recoverDir n line, false)

/-- R141: a request from another package finds a reel-pool tracker: in its partition's reservation, or in what the reservations leave. -/
def State.reelRoom (s : State) (n : Nat) (m : Msg) : Bool :=
  let held := (s.slice n).trk.filter (fun t => t.reel)
  let resv := (s.part m.part).reelRes
  if 0 < resv then decide ((held.filter (fun t => t.req.part == m.part)).length < resv)
  else
    let kept := s.parts.foldl (fun a e => a + e.2.reelRes) 0
    decide ((held.filter (fun t => (s.part t.req.part).reelRes == 0)).length < s.fget .hsTrkcfgReel n - kept)

/-- R105, R145: the arrival that may be admitted now: the oldest, ties broken by the rotating pointer. -/
def State.pickArrival (s : State) (n : Nat) : Option Msg :=
  let sl := s.slice n
  let c := sl.arr.filter (fun m => s.slotAllows n s.fcyc m.part && (decide (m.pkg = s.pkg) || s.reelRoom n m))
  let rank := fun (m : Msg) => m.at_ * 32 + (s.srcOf m + 23 - sl.ptr) % 23
  c.foldl (fun b m => match b with
    | none => some m
    | some x => if rank m < rank x then some m else some x) none

/-- R145: the oldest released data whose partition may use the slot is written. -/
def State.drainWbuf (s : State) (n : Nat) : State :=
  match (s.slice n).wbuf.find? (fun m => s.slotAllows n s.fcyc m.part) with
  | none => s
  | some m => (s.modSlice n (fun sl => { sl with wbuf := sl.wbuf.erase m })).writeReleased n m

/-- R105: an admitted request is looked up; released data of its line is written first. -/
def State.admitLookup (s : State) (n line : Nat) (e : HomeErr) : State :=
  let s := (s.flushWbuf n line).modSlice n (fun sl => { sl with lastAdmit := some s.fcyc })
  let r := s.homeErr n line e
  if r.2 then
    match (r.1.slice n).busy line with
    | some t => r.1.lookup n t
    | none => r.1
  else r.1

/-- R105, R145: the slice admits at most one request in an F-cycle: the head of a line queue that is ready, else an arrival. -/
def State.admitOne (s : State) (n : Nat) (e : HomeErr) : State :=
  let headOf := fun (line : Nat) => (s.slice n).trk.find? (fun t => t.req.line == line && !t.active)
  match (s.slice n).rdy.find? (fun l => (headOf l).any (fun t => s.slotAllows n s.fcyc t.req.part)) with
  | some line =>
    match headOf line with
    | none => s
    | some t =>
      let s := s.modSlice n (fun sl =>
        { sl with rdy := sl.rdy.erase line, trk := (sl.trk.erase t) ++ [{ t with active := true }] })
      (s.pev 0 2 n t.req.part 1).admitLookup n line e
  | none =>
    match s.pickArrival n with
    | none => s
    | some m =>
      let busy := ((s.slice n).busy m.line).isSome || (s.slice n).rdy.contains m.line
      let t : Trk := { req := m, active := !busy, reel := decide (m.pkg ≠ s.pkg), noReq := decide (m.core = 255) }
      let s := s.modSlice n (fun sl =>
        { sl with arr := sl.arr.erase m, trk := sl.trk ++ [t], ptr := (s.srcOf m + 1) % 23, lastAdmit := some s.fcyc })
      let s := (s.countTrk n).pev 0 2 n m.part 1
      if busy then s else s.admitLookup n m.line e

/-- R105: the admission of one F-cycle. -/
def execHomeAdmission (slice : Nat) (e : HomeErr) (s : State) : Out :=
  let s := (s.tidy slice).finishRemovals
  if (s.slice slice).lastAdmit = some s.fcyc then .next s else .next (s.admitOne slice e)

/-- A message that the reel ports have delivered for a slice. -/
def State.reelFor (s : State) (n : Nat) (p : ReelOp → Bool) : Option RMsg :=
  (s.reel.rx.find? (fun m => decide (m.at_ ≤ s.fcyc) && p m.msg.op && m.msg.m.slice == n)).map (fun m => m.msg)

/-- R210: a message leaves the receive buffer: the credits of its cells are owed. -/
def State.takeReel (s : State) (m : RMsg) : State :=
  match s.reel.rx.find? (fun x => x.msg == m) with
  | none => s
  | some x =>
    let s := { s with reel := { s.reel with rx := s.reel.rx.erase x } }
    s.modRport x.port (fun p => { p with owed := Tab.put 0 p.owed (rmsgShape m).1 (Tab.get 0 p.owed (rmsgShape m).1 + (rmsgShape m).2) })

/-- R128: the request a reel message forwards. -/
def reqKindOf : ReelOp → Option MsgKind
  | .rdS => some .rdS
  | .rdM => some .rdM
  | .upg => some .upg
  | .amoH => some .amoH
  | _ => none

/-- R128, R210: a forwarded request reaches its home. -/
def execReelRequest (slice : Nat) (s : State) : Out :=
  match s.reelFor slice (fun o => (reqKindOf o).isSome) with
  | none => .next s
  | some r =>
    let m := { r.m with kind := (reqKindOf r.op).getD .rdS, pkg := r.src, at_ := s.fcyc }
    .next ((s.takeReel r).modSlice slice (fun sl => { sl with arr := sl.arr ++ [m] }))

/-- R128, R129: a remote snoop at a slice: its holders are snooped, and it answers when all of them have; a line that has left is answered from the
forwarded WB's data. -/
def State.takeRsnp (s : State) (n : Nat) (r : RMsg) (inv : Bool) : State :=
  let line := r.m.line
  let hs := (s.holders line).filter (fun d => if inv then !(r.excl && d.core == r.m.core) else d.m)
  let t : Trk := { req := r.m, active := true, reel := false, rhome := r.src, snp := hs.map (fun d => d.core), timer := s.fcyc }
  if hs.isEmpty then
    let d := ((s.slice n).fwd.find? (fun m => m.line == line && m.kind == .wb)).map (fun m => (m.data, m.poison))
    s.remoteAnswer n { t with data := d.map (fun x => x.1), fail := if d.any (fun x => x.2) then rPoisoned else 0 }
  else
    hs.foldl (fun s d => s.snoop n line d.core inv (s.fcyc + 1)) (s.modSlice n (fun sl => { sl with trk := sl.trk ++ [t] }))

/-- R128: a remote SNP_SHD at the owning package's slice. -/
def execRsnpShd (slice : Nat) (s : State) : Out :=
  match s.reelFor slice (· == .rsnpShd) with
  | none => .next s
  | some r => .next ((s.takeReel r).takeRsnp slice r false)

/-- R128: a remote SNP_INV. -/
def execRsnpInv (slice : Nat) (s : State) : Out :=
  match s.reelFor slice (· == .rsnpInv) with
  | none => .next s
  | some r => .next ((s.takeReel r).takeRsnp slice r true)

/-- R125, R128: a package's answer reaches the home tracker: FINAL gives the bit that package keeps. -/
def State.rsnpAnswered (s : State) (n : Nat) (r : RMsg) (data : Option LineData) : State :=
  let line := r.m.line
  let wasOwner := s.owned line && bit (s.vecOf line) r.src
  let v := s.vecOf line
  let v := if wasOwner then setBit v s.pkg false else v
  let s := s.setVec line (setBit v r.src r.m.flag)
  let good := match data with
    | some d => if wasOwner || ((s.slice n).busy line).any (fun t => t.redo) then some d else none
    | none => none
  let s := match good with
    | some d => s.mscWrite line d r.m.poison
    | none => s
  let s := s.modTrk n line (fun t => { t with rsnp := t.rsnp.filter (· != r.src), timer := s.fcyc
                                              data := good.or t.data, fail := if good.isSome && r.m.poison then rPoisoned else t.fail })
  let waitsData := ((s.slice n).busy line).any (fun t => t.needsData && t.data.isNone && !t.dram && t.rsnp.isEmpty && t.snp.isEmpty && !t.granted && !t.redo)
  if waitsData then
    match (s.slice n).busy line with
    | some t => s.lookup n t
    | none => s
  else (s.settle n line).redoLookup n line

/-- R128: a remote holder's answer without data. -/
def execRsnpAck (slice : Nat) (s : State) : Out :=
  match s.reelFor slice (· == .rsnpAck) with
  | none => .next s
  | some r => .next ((s.takeReel r).rsnpAnswered slice r none)

/-- R128: a remote holder's answer with the line. -/
def execRsnpData (slice : Nat) (s : State) : Out :=
  match s.reelFor slice (· == .rsnpData) with
  | none => .next s
  | some r => .next ((s.takeReel r).rsnpAnswered slice r (some r.m.data))

/-- R128, R140: a response of a remote home, with the kind its fill takes. -/
def respKindOf : ReelOp → Option MsgKind
  | .dataS => some .dataS
  | .dataM => some .dataM
  | .amoRet => some .amoRet
  | .ackUpg => some .ackUpg
  | _ => none

/-- R128, R140: a grant from a remote home: the duplicate entry is set and the fill launched in the next F-cycle. -/
def execRelayedResponse (slice : Nat) (s : State) : Out :=
  match s.reelFor slice (fun o => (respKindOf o).isSome) with
  | none => .next s
  | some r =>
    let s := s.takeReel r
    let line := r.m.line
    match (s.slice slice).busy line with
    | none => .next s
    | some t =>
      if !t.remote then .next s
      else
        let k := (respKindOf r.op).getD .dataS
        let l := s.fcyc + 1
        let s := s.modTrk slice line (fun t => { t with remote := false, granted := true })
        let s := if r.m.status = 0 && k ≠ .amoRet then s.grantTo t.req (k ≠ .dataS) else s
        .next ((s.respond t.req k r.op l (if r.m.hasData then some r.m.data else none) r.m.status r.m.val).closeAt slice line l)

/-- R112, R129: a release forwarded from another package reaches the home: its bits are cleared and its data is written. -/
def State.takeForwarded (s : State) (n : Nat) (r : RMsg) : State :=
  let line := r.m.line
  let m := { r.m with pkg := r.src, kind := if r.op = .wb then .wb else .evc }
  let own := s.owned line && bit (s.vecOf line) r.src
  if r.op = .wb then
    if own then
      let s := s.setVec line (if r.m.flag then setBit (s.vecOf line) s.pkg false else 0)
      let s := s.modTrk n line (fun t =>
        if t.rsnp.contains r.src then { t with data := some m.data, fail := if m.poison then rPoisoned else t.fail } else t)
      (s.storeReleased n m).settle n line
    else s.reelSend r.src { op := .wbAck, m := m }
  else
    let s := if own then s else s.setVec line (setBit (s.vecOf line) r.src false)
    (s.reelSend r.src { op := .evcAck, m := m }).settle n line

/-- R129: a forwarded WB or EVC reaches the home. -/
def execForwardedRelease (slice : Nat) (s : State) : Out :=
  match s.reelFor slice (fun o => o == .wb || o == .evc) with
  | none => .next s
  | some r => .next (((s.takeReel r).pev 0 13 slice r.m.part 1).takeForwarded slice r)

/-- R129, R208: the home has acknowledged a forwarded release: the core's own acknowledgement follows. -/
def execRemoteReleaseAck (slice : Nat) (s : State) : Out :=
  match s.reelFor slice (fun o => o == .wbAck || o == .evcAck) with
  | none => .next s
  | some r =>
    let s := s.takeReel r
    match (s.slice slice).fwd.find? (fun m => m.line == r.m.line) with
    | none => .next s
    | some m => .next ((s.modSlice slice (fun sl => { sl with fwd := sl.fwd.erase m })).ackRelease slice m)

/-- R148: HS_TMO.LIMIT as it is taken. -/
def State.tmoLimit (s : State) (n : Nat) : Nat := max 0x1000 (s.fget .hsTmoLimit n)

/-- R148: an expiry counted and logged. -/
def State.tmoCount (s : State) (n line kind : Nat) : State :=
  ((((s.fbump .hsTmoExpired n 0).fput .hsTmoLastkind n 0 kind).pev 0 15 n 64 1)).logEvent
    { cls := 2, event := 0x32, kind := 3, idx := n, part := s.linePart line, addr := line * 64, detail := kind }

/-- R148: a tracker's timer expires, by what it awaits. -/
def execTrackerTimeout (slice line : Nat) (s : State) : Out :=
  match (s.slice slice).trk.find? (fun t => t.req.line == line && t.active && decide (t.timer + s.tmoLimit slice ≤ s.fcyc) &&
    (!t.snp.isEmpty || !t.rsnp.isEmpty || t.remote || t.dram)) with
  | none => .next s
  | some t =>
    if !t.snp.isEmpty then
      let ds := (t.snp.map dieOf).eraseDups
      .next (ds.foldl (fun s d => s.fenceDie d 2) (s.tmoCount slice line 1))
    else if !t.rsnp.isEmpty then .next (t.rsnp.foldl (fun s q => s.bundleTimeout q) (s.tmoCount slice line 2))
    else if t.remote then .next ((s.tmoCount slice line 2).bundleTimeout (pkgOf (line * 64)))
    else
      let s := s.tmoCount slice line 3
      let s := { s with mem := { s.mem with reads := s.mem.reads.filter (fun d => !(d.slice == slice && d.line == line && d.nc.isNone)) } }
      .next ((s.modTrk slice line (fun t => { t with dram := false })).refuse slice { t with dram := false } s.fcyc rDeviceError)

end Sys2Proof.Machine
end

