-- ==== Sys2Proof/Machine/HomeMem.lean ====
section
/-! DEFINITION. Range-clean, non-coherent accesses at the home, DRAM reads, refresh, channel errors, patrol, the ECC test window and the memory
commands of the kiln (R119, R120, R171, R178, R184 to R197, R216, R251, R344). -/

namespace Sys2Proof.Machine

/-- R119: what the engine does about a duplicate entry of the range: a snoop, by OP and state. -/
def rcNeeds (flush : Bool) (d : Dup) : Bool := flush || d.m

/-- R119: one pipeline slot of a range-clean engine: matching entries of its set are snooped, at most 8 outstanding, and the next set follows. -/
def execRangeCleanScan (slice : Nat) (s : State) : Out :=
  let sl := s.slice slice
  match s.home.range, sl.rcSet with
  | some r, some i =>
    if 64 ≤ i then .next s
    else if (s.slotOwner slice s.fcyc).isSome then .next s
    else if sl.lastAdmit = some s.fcyc ∧ s.fcyc < sl.rcLast + 4 then .next s
    else
      let es := sl.dup.filter (fun d => decide (d.line / 16 % 64 = i) && decide (r.lo ≤ d.line) && decide (d.line < r.hi) && rcNeeds r.flush d &&
        !sl.rcOut.contains (d.line, d.core))
      let now := es.take (8 - sl.rcOut.length)
      let s := now.foldl (fun s d =>
        (s.snoop slice d.line d.core r.flush (s.fcyc + 1)).modSlice slice (fun sl => { sl with rcOut := sl.rcOut ++ [(d.line, d.core)] })) s
      .next (s.modSlice slice (fun sl => { sl with rcLast := s.fcyc, rcSet := some (if es.length ≤ now.length then i + 1 else i) }))
  | _, _ => .next s

/-- R119: every engine of this package has finished: the command replies. -/
def execRangeCleanDone (s : State) : Out :=
  match s.home.range with
  | none => .next s
  | some r =>
    if (List.range 16).all (fun n => decide ((s.slice n).rcSet = some 64) && (s.slice n).rcOut.isEmpty) then
      let s := (List.range 16).foldl (fun s n => s.modSlice n (fun sl => { sl with rcSet := none })) s
      .next ({ s with home := { s.home with range := none } }.kreply r.cmd 0)
    else .next s

/-- R120, R216: a non-coherent access completes at an F-cycle: its agent gets it, or the other package's. DESIGN CHOICE (log 15): a write of another
package's agent is answered by an NCCPL too. -/
def State.ncEnd (s : State) (r : NcReq) (status : Nat) (data : LineData) (at_ : Nat) : State :=
  let s := { s with home := { s.home with ncq := s.home.ncq.filter (fun q => q.id != r.id) } }
  match r.agent with
  | .peer p =>
    let m : Msg := { kind := .dataS, line := r.pa / 64, tag := p / 8, data := data, hasData := !r.write, status := status }
    s.reelSend (p % 8) { op := .nccpl, m := m, len := if r.write || decide (status ≠ 0) then 0 else r.len }
  | .kiln => s
  | _ => { s with home := { s.home with ncDone := s.home.ncDone ++
      [{ r with val := if r.write then r.val else data, status := status, at_ := at_, dram := false }] } }

/-- R187, R188, R348: a non-coherent write is discarded, and logged. -/
def State.ncDiscard (s : State) (r : NcReq) (reason at_ : Nat) : State :=
  let i := match r.agent with | .port n => n | .dma c => c | _ => 0
  let k := match r.agent with | .port _ => 6 | .dma _ => 5 | _ => 3
  let s := s.logEvent { cls := 1, event := 0x61, kind := k, idx := i, reason := reason, addr := r.pa, part := s.linePart (r.pa / 64), detail := i }
  s.ncEnd r reason 0 at_

/-- R178: the bytes of a non-coherent write merged into a line. -/
def NcReq.merge (r : NcReq) (d : LineData) : LineData :=
  let m := BitVec.ofNat 512 ((2 ^ (8 * r.len) - 1) * 2 ^ (8 * (r.pa % 64)))
  (d &&& ~~~ m) ||| ((r.val <<< (8 * (r.pa % 64))) &&& m)

/-- R178, R186, R187: a non-coherent write at the MSC, over the line's data where the MSC or DRAM gave it. -/
def State.ncStore (s : State) (r : NcReq) (old : LineData) (at_ : Nat) : State :=
  let line := r.pa / 64
  if r.poison then (s.mscWrite line 0 true).ncEnd r 0 0 at_ else (s.mscWrite line (r.merge old) false).ncEnd r 0 0 at_

/-- R120, R178: a DRAM read for a non-coherent access. -/
def State.ncDram (s : State) (n : Nat) (r : NcReq) : State :=
  let line := r.pa / 64
  let rd : DramRd := { slice := n, line := line, nc := some r.id, ready := s.fcyc + s.dramTime line }
  let s := (s.dramEvents line false).openRow line
  { s with mem := { s.mem with reads := s.mem.reads ++ [rd] }
           home := { s.home with ncq := s.home.ncq.map (fun (q : NcReq) => if q.id = r.id then { q with dram := true } else q) } }

/-- R120: the oldest non-coherent access of a kind that has reached a slice and may use its slot. -/
def State.ncFront (s : State) (n : Nat) (write : Bool) : Option NcReq :=
  if (s.slotOwner n s.fcyc).isSome then none
  else s.home.ncq.find? (fun r => r.write == write && !r.dram && decide (r.at_ ≤ s.fcyc) && sliceOf (r.pa / 64) == n)

/-- R120, R178, R188: a non-coherent read at the home. -/
def execNcRead (slice : Nat) (s : State) : Out :=
  match s.ncFront slice false with
  | none => .next s
  | some r =>
    let line := r.pa / 64
    let p := (s.linePart line).getD 64
    let s := s.pev 0 14 slice p 1
    match s.homeReason line with
    | some e => .next (s.ncEnd r e 0 (s.fcyc + 2))
    | none =>
      match s.msc line with
      | some m => .next ((s.pev 0 6 slice p 1).ncEnd r (if m.p then rPoisoned else 0) (if m.p then 0 else m.data) (s.fcyc + 4))
      | none => .next ((s.pev 0 7 slice p 1).ncDram slice r)

/-- R120, R178, R187, R188: a non-coherent write at the home. -/
def execNcWrite (slice : Nat) (s : State) : Out :=
  match s.ncFront slice true with
  | none => .next s
  | some r =>
    let line := r.pa / 64
    let p := (s.linePart line).getD 64
    let s := s.pev 0 14 slice p 1
    match s.homeReason line with
    | some e => .next (s.ncDiscard r e (s.fcyc + 2))
    | none =>
      if r.len = 64 then .next (s.ncStore r 0 (s.fcyc + 4))
      else
        match s.msc line with
        | some m =>
          let s := s.pev 0 6 slice p 1
          .next (if m.p then (if r.poison then s.ncEnd r 0 0 (s.fcyc + 4) else s.ncDiscard r rPoisoned (s.fcyc + 4)) else s.ncStore r m.data (s.fcyc + 4))
        | none => .next ((s.pev 0 7 slice p 1).ncDram slice r)

/-- R216: a non-coherent read from another package reaches this home. -/
def execNcrd (slice : Nat) (s : State) : Out :=
  match s.reelFor slice (· == .ncrd) with
  | none => .next s
  | some m =>
    let (id, s) := (s.takeReel m).newId
    let r : NcReq := { id := id, agent := .peer (m.src + 8 * m.m.tag), write := false, pa := m.m.line * 64 + m.m.arg % 64, len := m.len, at_ := s.fcyc }
    .next { s with home := { s.home with ncq := s.home.ncq ++ [r] } }

/-- R216: a non-coherent write from another package reaches this home. -/
def execNcwr (slice : Nat) (s : State) : Out :=
  match s.reelFor slice (· == .ncwr) with
  | none => .next s
  | some m =>
    let (id, s) := (s.takeReel m).newId
    let r : NcReq := { id := id, agent := .peer (m.src + 8 * m.m.tag), write := true, pa := m.m.line * 64 + m.m.arg % 64, len := m.len, val := m.m.data
                       poison := m.m.poison, at_ := s.fcyc }
    .next { s with home := { s.home with ncq := s.home.ncq ++ [r] } }

/-- R216: the completion of a non-coherent access at another package's home returns to its agent. -/
def execNccpl (s : State) : Out :=
  match (s.reel.rx.find? (fun m => decide (m.at_ ≤ s.fcyc) && m.msg.op == .nccpl)).map (fun m => m.msg) with
  | none => .next s
  | some m =>
    let s := s.takeReel m
    .next { s with home := { s.home with ncDone := s.home.ncDone.map (fun (r : NcReq) =>
      if r.id = m.m.tag ∧ r.dram then { r with dram := false, status := m.m.status, val := if r.write then r.val else m.m.data, at_ := s.fcyc } else r) } }

/-- R184, R187: a non-coherent access goes on with what DRAM returned. -/
def State.ncReturned (s : State) (r : NcReq) (d : Decoded) : State :=
  let line := r.pa / 64
  let at_ := s.fcyc + 1 + s.decodeDelay line d
  match s.msc line with
  | some m =>
    if m.p then (if r.write && !r.poison then s.ncDiscard r rPoisoned at_ else if r.write then s.ncEnd r 0 0 at_ else s.ncEnd r rPoisoned 0 at_)
    else if r.write then s.ncStore r m.data at_
    else s.ncEnd r 0 m.data at_
  | none =>
    match d.out with
    | .clean => if r.write then s.ncStore r d.data at_ else (s.mscInstall line d.data false false).ncEnd r 0 d.data at_
    | .corrected => if r.write then s.ncStore r d.data at_ else (s.mscInstall line d.data true false).ncEnd r 0 d.data at_
    | .poisoned => if r.write && !r.poison then s.ncDiscard r rPoisoned at_ else if r.write then s.ncStore r 0 at_ else s.ncEnd r rPoisoned 0 at_
    | .uncorrectable =>
      if r.write && !r.poison then s.ncDiscard r rEccUncorrectable at_ else if r.write then s.ncStore r 0 at_ else s.ncEnd r rEccUncorrectable 0 at_

/-- R107, R127, R178, R184: a line's tracker goes on with what DRAM returned: the line in the MSC, its vector in the directory cache. -/
def State.lineReturned (s : State) (rd : DramRd) (d : Decoded) : State :=
  let n := rd.slice
  let line := rd.line
  let at_ := rd.ready + s.decodeDelay line d
  let hadDir := s.vecKnown line
  let s := { s with home := { s.home with dirc := if s.vecOf line ≠ 0 && !s.home.dirc.contains line then s.home.dirc ++ [line] else s.home.dirc } }
  let r : State × Option LineData × Nat :=
    match s.msc line with
    | some m => (s, some m.data, if m.p then rPoisoned else 0)
    | none =>
      match d.out with
      | .clean => (s.mscInstall line d.data false false, some d.data, 0)
      | .corrected => (s.mscInstall line d.data true false, some d.data, 0)
      | .poisoned => (s, none, rPoisoned)
      | .uncorrectable => (s, none, rEccUncorrectable)
  let s := r.1.modTrk n line (fun t => { t with dram := false, ready := at_, timer := s.fcyc
                                                data := if t.data.isSome then t.data else r.2.1
                                                fail := if t.data.isSome then t.fail else if t.needsData then r.2.2 else 0 })
  let s := if hadDir then s else s.snoopRemote n line
  (s.tryGrant n line at_).closeAt n line (max at_ s.fcyc)

/-- R139, R184, R188: DRAM read data of a controller returns and is decoded; while its channel retrains nothing returns (R344). -/
def execDramReadComplete (mc : Nat) (errs : List SymErr) (s : State) : Out :=
  if (Tab.find s.mem.retrain mc).isSome then .next s
  else
    match s.mem.reads.find? (fun d => mcOf (d.line * 64) == mc && decide (d.ready ≤ s.fcyc)) with
    | none => .next s
    | some rd =>
      let s := { s with mem := { s.mem with reads := s.mem.reads.erase rd, caRetry := s.mem.caRetry.filter (· != mc) } }
      let d := s.decodeLine rd.line errs
      let s := s.readOutcome rd.line d false
      match rd.nc with
      | none => .next (s.lineReturned rd d)
      | some id =>
        match s.home.ncq.find? (fun (r : NcReq) => r.id == id) with
        | none => .next s
        | some r => .next (s.ncReturned r d)

/-- R171: a same-bank refresh at tREFI of 3.9 µs, or half of it while hot: the refreshed bank's rows in every bank group are closed. -/
def execRefresh (mc : Nat) (s : State) : Out :=
  if s.fget .mcCfgUp mc = 0 ∨ s.now < Tab.get 0 s.mem.refNext mc ∨ 0 < s.fget .pwrStatusState ∧ 2 ≤ s.fget .pwrStatusState then .next s
  else
    let b := Tab.get 0 s.mem.refBank mc
    let hit := fun (key : Nat) => decide (key / 2048 = mc) && decide (key % 4 = b)
    let m := { s.mem with
      rows := s.mem.rows.filter (fun e => !hit e.1)
      refBank := Tab.put 0 s.mem.refBank mc ((b + 1) % 4)
      refNext := Tab.put 0 s.mem.refNext mc (s.now + if s.mem.hot then 6240 else 12480) }
    .next ({ s with mem := m }.pev 1 8 mc 64 1)

/-- R171, R280: the doubled refresh rate and the halved activate rate follow the sensors and MEMHOT_N. -/
def State.memThermal (s : State) : State :=
  let hot := !s.mem.dimmHot.isEmpty || decide (s.fget .pwrThermMemhot = 1)
  { s with mem := { s.mem with hot := hot, actHalf := s.hwMode 7 && (hot || s.pwr.ioHot) } }

/-- R280: a thermal notice: source, die or channel, temperature and direction. -/
def State.thermNotice (s : State) (src idx temp : Nat) (up : Bool) : State :=
  s.notify none { tag := 0, status := 0, result := BitVec.ofNat 64 (src + idx * 16 + temp % 256 * 256 + b2n up * 65536), kind := 7 }

/-- R171, R280: the kiln reads the thermal sensors of the DIMMs: (DIMM: channel × 2 + slot, temperature). -/
def execSpdSensorPoll (temps : List (Nat × Nat)) (s : State) : Out :=
  let s := temps.foldl (fun s t =>
    let was := s.mem.dimmHot.contains t.1
    let is := decide (85 < t.2)
    if was = is then s
    else
      let s := { s with mem := { s.mem with dimmHot := if is then s.mem.dimmHot ++ [t.1] else s.mem.dimmHot.filter (· != t.1) } }
      if s.hwMode 7 then s else s.thermNotice 5 (t.1 / 2) t.2 is) s
  .next s.memThermal

/-- R171, R344: a CA parity error: retried once; a second one makes the channel retrain. -/
def execAlertN (mc : Nat) (s : State) : Out :=
  if s.fget .mcCfgUp mc = 0 ∨ (Tab.find s.mem.retrain mc).isSome then .next s
  else if s.mem.caRetry.contains mc then
    .next { s with mem := { s.mem with caRetry := s.mem.caRetry.filter (· != mc), retrain := Tab.ins s.mem.retrain mc (s.now + 1000 * usTicks) } }
  else .next { s with mem := { s.mem with caRetry := s.mem.caRetry ++ [mc] } }

/-- R344: a channel leaves service: its requests complete with DEVICE_ERROR and its dirty MSC lines are poisoned. -/
def State.channelLost (s : State) (mc : Nat) : State :=
  let rds := s.mem.reads.filter (fun d => mcOf (d.line * 64) == mc)
  let s := { s with mem := { s.mem with reads := s.mem.reads.filter (fun d => mcOf (d.line * 64) != mc), dead := s.mem.dead ++ [mc] }
                    home := { s.home with msc := s.home.msc.map (fun (e : Nat × Msc) => (e.1, if e.2.d && mcOf (e.1 * 64) == mc then { e.2 with p := true } else e.2)) } }
  let s := s.fput .mcCfgUp mc 0 0
  let s := rds.foldl (fun s rd =>
    match rd.nc with
    | none =>
      let s := s.modTrk rd.slice rd.line (fun t => { t with dram := false, fail := rDeviceError, data := none })
      s.tryGrant rd.slice rd.line s.fcyc
    | some id =>
      match s.home.ncq.find? (fun (r : NcReq) => r.id == id) with
      | none => s
      | some r => if r.write then s.ncDiscard r rDeviceError s.fcyc else s.ncEnd r rDeviceError 0 s.fcyc) s
  s.logEvent { cls := 2, event := 0x15, kind := 4, idx := mc, reason := rDeviceError }

/-- R344: a channel's retrain ends. -/
def execChannelRetrainDone (mc : Nat) (ok : Bool) (s : State) : Out :=
  if (Tab.find s.mem.retrain mc).isNone then .next s
  else
    let s := { s with mem := { s.mem with retrain := Tab.del s.mem.retrain mc } }
    .next (if ok then s else s.channelLost mc)

/-- R174: the line of a controller's channel-local number. -/
def State.lineAt (s : State) (mc l : Nat) : Nat := s.pkg * 2 ^ 38 + l * 16 + (mc ^^^ (l % 16))

/-- R189: lines that patrol and range scrub skip. -/
def State.scrubSkips (s : State) (line : Nat) : Bool :=
  !s.fired (lineIn line / 2 ^ 24) || s.suspect line || s.retiredPage line || s.canary (line * 64)

/-- R189: a line read by patrol or range scrub: counted, and a corrected codeword written back. -/
def State.scrubLine (s : State) (line : Nat) (errs : List SymErr) : State :=
  let d := s.decodeLine line errs
  let s := s.readOutcome line d true
  match d.out with
  | .corrected => s.dramStore line d.data []
  | .clean => s
  | .poisoned => s
  | .uncorrectable => s

/-- R189: one patrol read of a controller, spaced so that a pass takes its period. -/
def execPatrolRead (mc : Nat) (errs : List SymErr) (s : State) : Out :=
  let top := s.dramBytes / 1024
  let per := s.fget .mcPatrolPeriod mc
  if per = 0 ∨ !s.hwMode 0 ∨ s.fget .mcCfgUp mc = 0 ∨ top = 0 ∨ s.now < Tab.get 0 s.mem.patNext mc then .next s
  else
    let l := s.fget .mcPatrolNext mc
    let line := s.lineAt mc l
    let s := if s.scrubSkips line then s else (s.pev 1 9 mc ((s.linePart line).getD 64) 1).scrubLine line errs
    let s := if top ≤ l + 1 then (s.fput .mcPatrolNext mc 0 0).fput .mcPatrolPasses mc 0 (s.fget .mcPatrolPasses mc + 1)
             else s.fput .mcPatrolNext mc 0 (l + 1)
    .next { s with mem := { s.mem with patNext := Tab.put 0 s.mem.patNext mc (s.now + per * 3600 * 1000000 * usTicks / top) } }

/-- R185, GLB_MEMRAS: the counting window of 2^WINDOW F-cycles ends, and the next begins. -/
def execMemrasWindow (s : State) : Out :=
  let w := min 48 (max 30 (s.fget .glbMemrasWindow))
  if s.fcyc < s.mem.winStart + 2 ^ w then .next s
  else .next { s with mem := { s.mem with devEv := [], pageCe := [], winStart := s.fcyc } }

/-- R191: why an ECC test operation is refused. -/
def State.ectReason (s : State) (line : Nat) : Option Nat :=
  let pa := line * 64
  if (s.linePart line).any (fun p => decide (2 ≤ s.partState p)) then some rNotPermitted
  else if pkgOf pa ≠ s.pkg ∨ !s.populated pa ∨ s.canary pa ∨ s.inCarve pa then some rMemRangeInvalid
  else if !s.fired (lineIn line / 2 ^ 24) then some rNotFired
  else if s.fget .ectStatusBusy = 1 then some rBusyDraining
  else none

/-- R191: an ECC test operation starts with the removal of its line from every L2, or is refused. -/
def State.ectStart (s : State) (op : Nat) : State :=
  let line := s.fget .ectAddrLine
  match s.ectReason line with
  | some r => s.fput .ectStatusReason 0 0 r
  | none =>
    let s := (s.fput .ectStatusBusy 0 0 1).fput .ectStatusDone 0 0 0
    { s.startRemoval line 1 with mem := { s.mem with ect := some (op, line, s.fcyc + 400) } }

/-- R191: a write of ECT_CMD with OP 1, WRITE_RAW. -/
def execEctWriteRaw (q : Req) (s : State) : Out := s.regWrite q .ectCmd 0 0 1 (fun s => s.ectStart 1)

/-- R191: a write of ECT_CMD with OP 2, WRITE_ENC. -/
def execEctWriteEnc (q : Req) (s : State) : Out := s.regWrite q .ectCmd 0 0 2 (fun s => s.ectStart 2)

/-- R191: a write of ECT_CMD with OP 3, READ_RAW. -/
def execEctReadRaw (q : Req) (s : State) : Out := s.regWrite q .ectCmd 0 0 3 (fun s => s.ectStart 3)

/-- R191: a write of ECT_CMD with OP 4, READ_DEC. -/
def execEctReadDec (q : Req) (s : State) : Out := s.regWrite q .ectCmd 0 0 4 (fun s => s.ectStart 4)

/-- ECT_DATA0 to ECT_DATA7 as a line. -/
def State.ectLine (s : State) : LineData :=
  BitVec.ofNat 512 ((List.range 8).foldr (fun w v => (s.rget .ectData w).toNat + 2 ^ 64 * v) 0)

/-- ECT_CHECK0 and ECT_CHECK1 as check symbols. -/
def State.ectChecks (s : State) : List Nat := (List.range 16).map (fun j => bits (s.rget .ectCheck (j / 8)) (8 * (j % 8)) 8)

/-- A line put into ECT_DATA. -/
def State.putEctLine (s : State) (d : LineData) : State :=
  (List.range 8).foldl (fun s w => s.rput .ectData w 0 (BitVec.ofNat 64 (bits d (64 * w) 64))) s

/-- Check symbols put into ECT_CHECK. -/
def State.putEctChecks (s : State) (cs : List Nat) : State :=
  (List.range 2).foldl (fun s w => s.rput .ectCheck w 0 (BitVec.ofNat 64 (leNat (((cs.drop (8 * w)).take 8).map (fun v => BitVec.ofNat 8 v))))) s

/-- Symbols XORed. -/
def xorSyms (a b : List Nat) : List Nat := (a.zip b).map (fun x => x.1 ^^^ x.2)

/-- R191: what each operation does to the stored codeword or the window. -/
def State.ectPerform (s : State) (op line : Nat) : State :=
  match op with
  | 1 => s.dramStore line s.ectLine (xorSyms s.ectChecks (rsEncode s.ectLine))
  | 2 => s.dramStore line s.ectLine s.ectChecks
  | 3 => (s.putEctLine (s.dramLine line)).putEctChecks (xorSyms (s.dramDelta line) (rsEncode (s.dramLine line)))
  | _ =>
    let d := s.decodeLine line []
    let ok := match d.out with | .clean => true | .corrected => true | .poisoned => false | .uncorrectable => false
    let s := s.putEctLine (if ok then d.data else 0)
    let s := s.fput .ectStatusOutcome 0 0 (match d.out with | .clean => 0 | .corrected => 1 | .poisoned => 2 | .uncorrectable => 3)
    (s.fput .ectStatusNsym 0 0 d.fixed.length).fput .ectStatusDevmask 0 0 (devMask d.fixed)

/-- R191: an ECC test operation completes, once its line has left every L2 and the MSC. -/
def execEctOpDone (s : State) : Out :=
  match s.mem.ect with
  | none => .next s
  | some (op, line, _) =>
    if s.removing line 1 then .next s
    else
      let s := (s.flushMsc line 1).ectPerform op line
      let s := (s.fput .ectStatusBusy 0 0 0).fput .ectStatusDone 0 0 1
      .next { s with mem := { s.mem with ect := none } }

/-- R192: a unit fired: every line of it is the all-zero codeword. -/
def State.fireUnit (s : State) (u : Nat) : State :=
  let out := fun (w : Nat) (e : Host.Cell) => !(decide (u * 2 ^ 30 / w ≤ e.1) && decide (e.1 < (u + 1) * 2 ^ 30 / w))
  let s := { s with mem := { s.mem with
    dram := s.mem.dram.filter (out 1), chk := s.mem.chk.filter (out 4), refired := if s.mem.refired.contains u then s.mem.refired else s.mem.refired ++ [u] } }
  s.rput .glbFired (u / 64) 0 (setBit (s.rget .glbFired (u / 64)) (u % 64) true)

/-- R193, R194: the granule at the head of the firing engine finishes: its units are fired, and a command whose last unit it holds replies. -/
def execFireGranuleDone (s : State) : Out :=
  match s.mem.fireQ with
  | [] => .next s
  | h :: _ =>
    let now := s.mem.fireQ.takeWhile (fun e => e.1 / 64 == h.1 / 64)
    let s := { s with mem := { s.mem with fireQ := s.mem.fireQ.drop now.length } }
    let s := now.foldl (fun s e => s.fireUnit e.1) s
    .next ((now.flatMap (fun e => e.2)).foldl (fun s id =>
      match s.kfind id with
      | some c => s.kreply id 0 (BitVec.ofNat 64 c.acc)
      | none => s) s)

/-- R194, R230: units marked unfired, every copy of their lines discarded without writeback, and queued for the firing engine. -/
def State.unfire (s : State) (us : List Nat) (cmd : Option Nat) : State :=
  let base := s.pkg * 2 ^ 38
  let hit := fun (line : Nat) => decide (base ≤ line) && us.contains ((line - base) / 2 ^ 24)
  let s := us.foldl (fun s u => s.rput .glbFired (u / 64) 0 (setBit (s.rget .glbFired (u / 64)) (u % 64) false)) s
  let s := { s with
    home := { s.home with
      msc := s.home.msc.filter (fun (e : Nat × Msc) => !hit e.1)
      slices := s.home.slices.map (fun (e : Nat × Slice) => (e.1, { e.2 with dup := e.2.dup.filter (fun d => !hit d.line) })) }
    cores := s.cores.map (fun (e : Nat × Core) => (e.1, { e.2 with
      l2 := e.2.l2.filter (fun (x : Nat × L2Line) => !hit x.1), l1i := e.2.l1i.filter (fun l => !hit l), l1d := e.2.l1d.filter (fun l => !hit l) })) }
  let q := us.zipIdx.map (fun (u, i) => (u, if i + 1 = us.length then cmd.toList else []))
  { s with mem := { s.mem with fireQ := s.mem.fireQ ++ q } }

/-- The 1 GiB units of a byte range of this package. -/
def State.unitsOf (s : State) (base len : Nat) : List Nat := (List.range (len / 2 ^ 30)).map (fun i => (base - s.pkg * 2 ^ 44) / 2 ^ 30 + i)

/-- A byte range lies in this package's populated DRAM. -/
def State.inDram (s : State) (base len : Nat) : Bool := decide (pkgOf base = s.pkg) && decide (base % 2 ^ 44 + len ≤ s.dramBytes)

/-- R194: MEM_FIRE. -/
def execMemFire (id : Nat) (s : State) : Out :=
  s.krun id 0x0300 (fun c s =>
    let base := (c.p 0).toNat
    let len := (c.p 1).toNat
    if base % 2 ^ 30 ≠ 0 ∨ len % 2 ^ 30 ≠ 0 then s.kreply id rMemAlign
    else if !s.inDram base len ∨ s.carveBase < base % 2 ^ 44 + len then s.kreply id rMemRangeInvalid
    else
      let us := s.unitsOf base len
      if us.any (fun u => (List.range 64).any (fun p => decide (2 ≤ s.partState p) && s.inWindows p (s.pkg * 2 ^ 44 + u * 2 ^ 30))) then s.kreply id rNotPermitted
      else if us.isEmpty then s.kreply id 0 0
      else (s.krunning id us.length).unfire us (some id))

/-- The windows of a partition hold every byte of a range. -/
def State.windowsHold (s : State) (p base len : Nat) : Bool :=
  (List.range ((base % 2 ^ 30 + len + 2 ^ 30 - 1) / 2 ^ 30)).all (fun i => s.inWindows p ((base / 2 ^ 30 + i) * 2 ^ 30))

/-- R190, R251: a mailbox without PLATFORM privilege names a range outside its windows. -/
def State.outsideM (s : State) (c : KCmd) (base len : Nat) : Bool :=
  let pr := s.srcPriv c.src
  decide (pr.1 = 2) && !s.windowsHold pr.2 base len

/-- R190: MEM_SCRUB_RANGE. -/
def execMemScrubRange (id : Nat) (s : State) : Out :=
  s.krun id 0x0301 (fun c s =>
    let base := (c.p 0).toNat
    let len := (c.p 1).toNat
    if base % 4096 ≠ 0 ∨ len % 4096 ≠ 0 then s.kreply id rMemAlign
    else if !s.inDram base len then s.kreply id rMemRangeInvalid
    else if s.outsideM c base len then s.kreply id rNotPermitted
    else { s.krunning id 0 with mem := { s.mem with scrub := some (id, base, len) } })

/-- R190: counts of a range scrub: read, corrected, poisoned, uncorrectable, skipped, and the lowest line that was not CLEAN. -/
structure ScrubSum where
  read : Nat := 0
  corr : Nat := 0
  pois : Nat := 0
  unc : Nat := 0
  skip : Nat := 0
  low : Option Nat := none
  deriving DecidableEq, Repr

/-- R190: one line of a range scrub. -/
def State.scrubOne (z : State × ScrubSum) (line : Nat) : State × ScrubSum :=
  let s := z.1
  let k := z.2
  if s.scrubSkips line then (s, { k with skip := k.skip + 1 })
  else
    let d := s.decodeLine line []
    let s := s.scrubLine line []
    let k := { k with read := k.read + 1 }
    let low := k.low.or (some (line * 64))
    match d.out with
    | .clean => (s, k)
    | .corrected => (s, { k with corr := k.corr + 1, low := low })
    | .poisoned => (s, { k with pois := k.pois + 1, low := low })
    | .uncorrectable => (s, { k with unc := k.unc + 1, low := low })

/-- R190, R251: a range scrub finishes: its lines have been read, and the command replies. -/
def execScrubRangeDone (s : State) : Out :=
  match s.mem.scrub with
  | none => .next s
  | some (id, base, len) =>
    let z := (List.range (len / 64)).foldl (fun z i => State.scrubOne z (base / 64 + i)) (s, {})
    let k := z.2
    let s := { z.1 with mem := { z.1.mem with scrub := none } }
    .next (s.kreply id 0 (BitVec.ofNat 64 k.read) [BitVec.ofNat 64 (k.corr % 2 ^ 32 + k.pois % 2 ^ 32 * 2 ^ 32),
      BitVec.ofNat 64 (k.unc % 2 ^ 32 + k.skip % 2 ^ 32 * 2 ^ 32), match k.low with | some a => BitVec.ofNat 64 a | none => 0xFFFFFFFFFFFFFFFF])

/-- R189: MEM_SET_PATROL. -/
def execMemSetPatrol (id : Nat) (s : State) : Out :=
  s.krun id 0x0302 (fun c s =>
    let per := bits (c.p 0) 0 8
    if 168 < per then s.kreply id rMemRateInvalid
    else
      let old := s.fget .mcPatrolPeriod 0
      ((List.range 16).foldl (fun s mc => s.fput .mcPatrolPeriod mc 0 per) s).kreply id 0 (BitVec.ofNat 64 old))

/-- R195: MEM_RETIRE_PAGE. -/
def execMemRetirePage (id : Nat) (s : State) : Out :=
  s.krun id 0x0303 (fun c s =>
    let pa := (c.p 0).toNat
    if pa % 4096 ≠ 0 then s.kreply id rMemAlign
    else if !s.inDram pa 4096 ∨ s.inCarve pa ∨ s.canary pa then s.kreply id rMemRangeInvalid
    else if 1024 ≤ s.home.retired.length ∧ !s.home.retired.contains (pa / 4096) then s.kreply id rMemRetireFull
    else (s.krunning id 0).startRetire (pa / 4096) (id + 1))

/-- R172: a logical rank is populated. -/
def State.rankUp (s : State) (mc rank : Nat) : Bool := decide (0 < s.dramBytes) && decide (rank < s.fget .mcCfgLranks mc)

/-- R185: MEM_MARK_DEVICE. -/
def execMemMarkDevice (id : Nat) (s : State) : Out :=
  s.krun id 0x0304 (fun c s =>
    let mc := bits (c.p 0) 0 4
    let sub := bits (c.p 0) 4 1
    let rank := bits (c.p 0) 8 4
    let dev := bits (c.p 0) 12 4
    if 10 ≤ dev ∧ dev ≤ 14 then s.kreply id rBadParameter
    else if !s.rankUp mc rank then s.kreply id rMemRangeInvalid
    else
      let old := if sub = 0 then (if s.fget .mcMarkAv mc rank = 1 then s.fget .mcMarkAdev mc rank else 15)
        else (if s.fget .mcMarkBv mc rank = 1 then s.fget .mcMarkBdev mc rank else 15)
      (s.setMark mc sub rank dev).kreply id 0 (BitVec.ofNat 64 old))

/-- R197: MEM_BANK_ACCEPT. -/
def execMemBankAccept (id : Nat) (s : State) : Out :=
  s.krun id 0x0305 (fun c s =>
    let mc := bits (c.p 0) 0 4
    let sub := bits (c.p 0) 4 1
    let rank := bits (c.p 0) 8 4
    let mask := bits (c.p 0) 32 32
    if !s.rankUp mc rank then s.kreply id rMemRangeInvalid
    else
      let old := bits (s.rget .mcSuspect mc rank) (32 * sub) 32
      let n := ((List.range 32).filter (fun b => bit (BitVec.ofNat 32 (old &&& mask)) b)).length
      (s.rput .mcSuspect mc rank (setBits (s.rget .mcSuspect mc rank) (32 * sub) 32 (old - (old &&& mask)))).kreply id 0 (BitVec.ofNat 64 n))

/-- R119: MEM_CLEAN_RANGE: the engines of every slice start, here and in every package the requesting partition spans. -/
def execMemCleanRange (id : Nat) (s : State) : Out :=
  s.krun id 0x0306 (fun c s =>
    let base := (c.p 0).toNat
    let len := (c.p 1).toNat
    let pr := s.srcPriv c.src
    if base % 64 ≠ 0 ∨ len % 64 ≠ 0 then s.kreply id rMemAlign
    else if !s.member (pkgOf base) ∨ s.dramOf (pkgOf base) < base % 2 ^ 44 + len then s.kreply id rMemRangeInvalid
    else if s.outsideM c base len then s.kreply id rNotPermitted
    else
      let far := match c.src with
        | .mbx p _ _ => (List.range 8).filter (fun q => q ≠ s.pkg && s.member q && bit (BitVec.ofNat 8 (s.fget .prtCtlSpan p)) q && !(s.kilnTargets c).contains q)
        | .ring _ => []
        | .peer _ _ _ _ _ => []
      let s := far.foldl (fun s q => s.krelayCmd c q c.pkt) (s.krunning id pr.1)
      let s := (List.range 16).foldl (fun s n => s.modSlice n (fun sl => { sl with rcSet := some 0 })) s
      { s with home := { s.home with range := some { lo := base / 64, hi := (base + len) / 64, flush := bit (c.p 2) 0, cmd := id } } })

end Sys2Proof.Machine
end

