-- ==== Sys2Proof/Machine/Slip.lean ====
section
/-! DEFINITION. Slip lane groups: beats and their code, replay, error counts, repair, retirement and handover; polls of the sideband; and the
die and link commands of the kiln (R157 to R169, R252). -/

namespace Sys2Proof.Machine

/-- R157: the number of ones in a byte. -/
def ones8 (v : Nat) : Nat := ((List.range 8).filter (fun j => v / 2 ^ j % 2 = 1)).length

/-- R157: the columns of the 72 beat bits: the weight-3 vectors, eight weight-5 vectors, and the unit vectors. -/
def beatColumns : List Nat :=
  (List.range 256).filter (fun v => ones8 v = 3) ++ [0x1F, 0x2F, 0x37, 0x3B, 0x3D, 0x3E, 0x4F, 0x57] ++ (List.range 8).map (fun j => 2 ^ j)

/-- R157: the syndrome of a beat: the XOR of the columns of its set bits. -/
def beatSyndrome (b : BitVec 72) : Nat := beatColumns.zipIdx.foldl (fun s (c, i) => if bit b i then s ^^^ c else s) 0

/-- R157: what a beat's check gives. -/
inductive BeatOut where
  | clean (d : BitVec 64)
  | fixed (d : BitVec 64) (b : Nat)
  | bad
  deriving DecidableEq, Repr

/-- R157: a beat checked: clean, one bit flipped, or uncorrectable. -/
def beatCheck (b : BitVec 72) : BeatOut :=
  let s := beatSyndrome b
  if s = 0 then .clean (b.truncate 64)
  else
    match beatColumns.findIdx? (· == s) with
    | some i => .fixed ((b ^^^ BitVec.ofNat 72 (2 ^ i)).truncate 64) i
    | none => .bad

/-- R161: the wire position of a beat bit under the failed positions `lo` and `hi` (0x7F: none). -/
def wireOf (lo hi b : Nat) : Nat :=
  let n := b + 1
  if lo = 0x7F then n
  else if hi = 0x7F then (if lo ≤ 36 then (if n ≤ lo then n - 1 else n) else if lo ≤ n then n + 1 else n)
  else if n ≤ lo then n - 1
  else if hi ≤ n then n + 1
  else n

/-- A slip group of a die. -/
def State.slipG (s : State) (d g : Nat) : SlipG := Tab.get {} (s.die d).groups g

/-- A slip group changed. -/
def State.modSlipG (s : State) (d g : Nat) (f : SlipG → SlipG) : State :=
  s.modDie d (fun x => { x with groups := Tab.put {} x.groups g (f (Tab.get {} x.groups g)) })

/-- R164: the carrier set of a group. -/
def carrierSet (g : Nat) : List Nat :=
  if g < 2 then [0, 1] else if g < 6 then [2, 3, 4, 5] else if g < 8 then [6, 7]
  else if g < 12 then [8, 9, 10, 11] else if g < 14 then [12, 13] else [14, 15]

/-- R164: working groups that a carrier set needs. -/
def carrierNeeds (set : List Nat) : Nat := if set.length = 4 then 2 else 1

/-- R164: a die's groups carry every stream. -/
def State.carried (s : State) (d : Nat) : Bool :=
  [0, 2, 6, 8, 12, 14].all (fun g => decide (carrierNeeds (carrierSet g) ≤ ((carrierSet g).filter (fun h => !s.slipOut d h)).length))

/-- R163, R164: a group is retired; its stream moves, or the die is fenced when none is left to carry it. -/
def State.retireGroup (s : State) (d g : Nat) : State :=
  if s.fget .slpGstatState d g = 2 then s
  else
    let s := (s.fput .slpGstatState d g 2).fput .slpDstatRetired d 0 (s.fget .slpDstatRetired d ||| 2 ^ g)
    let s := s.modSlipG d g (fun x => { x with handEnd := s.fcyc + 8, discard := false, replayReq := none })
    let s := s.logEvent { cls := 1, event := 0x21, kind := 2, idx := d, detail := g }
    if s.carried d then s else s.fenceDie d 1

/-- R162: a due wire's record: repaired or due. -/
def State.wireLog (s : State) (d g w : Nat) : State := s.logEvent { cls := 1, event := 0x20, kind := 2, idx := d, detail := g + w * 16 }

/-- R162: the repair of a due wire starts, or is deferred where R164 cannot cover it. -/
def State.startRepair (s : State) (d g : Nat) : State :=
  let others := (carrierSet g).filter (· != g)
  let ok := decide (carrierNeeds (carrierSet g) ≤ (others.filter (fun h => !s.slipOut d h)).length) &&
    others.all (fun h => decide (s.fget .slpGstatState d h ≠ 1))
  if ok then
    (s.fput .slpGstatState d g 1).modSlipG d g (fun x => { x with repairEnd := s.fcyc + 98304, handEnd := s.fcyc + 8 })
  else s.fput .slpGstatDeferred d g 1

/-- R160, R162, R163: a wire is due: repaired, reported, or the group is retired for want of a spare. -/
def State.wireDue (s : State) (d g w : Nat) : State :=
  if s.fget .slpGstatSpares d g = 2 then s.retireGroup d g
  else
    let s := (s.fput .slpGstatDue d g w).wireLog d g w
    if s.hwMode 1 then s.startRepair d g
    else (s.fput .slpGstatPending d g 1).notify none
      { tag := 0, status := 0, result := BitVec.ofNat 64 (d + g * 256 + w * 65536), kind := 4 }

/-- R160: a corrected beat counted against its wire. -/
def State.beatFixed (s : State) (d g b : Nat) : State :=
  let w := wireOf (s.fget .slpGstatFailLo d g) (s.fget .slpGstatFailHi d g) b
  let n := Tab.get 0 (s.slipG d g).corr w + 1
  let s := (s.fbump .slpGerrCorr d g).fput .slpGerrLastwire d g w
  let s := s.modSlipG d g (fun x => { x with corr := Tab.put 0 x.corr w n })
  if n = max 1 (s.fget .slpCfgCorrLimit) ∧ s.fget .slpGstatDue d g = 0x7F then s.wireDue d g w
  else if n = max 1 (s.fget .slpCfgCorrLimit) ∧ s.fget .slpGstatDue d g ≠ w ∧ 1 ≤ s.fget .slpGstatSpares d g then s.retireGroup d g
  else s

/-- R159, R160: an uncorrectable beat: the frame and those after it are discarded, and a replay is asked for. -/
def State.beatBad (s : State) (d g : Nat) : State :=
  let x := s.slipG d g
  let n := if x.lastReplay.1 = x.rxFrame then x.lastReplay.2 + 1 else 1
  let s := (s.fbump .slpGerrReplay d g).modSlipG d g (fun x =>
    { x with discard := true, replayReq := some x.rxFrame, replays := x.replays + 1, lastReplay := (x.rxFrame, n) })
  if 4 ≤ n ∨ max 1 (s.fget .slpCfgRplyLimit) ≤ x.replays + 1 then s.retireGroup d g else s

/-- R157, R159: a slip frame is received: delivered, corrected, or discarded. -/
def execSlipFrameReceive (die g : Nat) (beats : List (BitVec 72)) (s : State) : Out :=
  if !s.dieUp die ∨ s.slipOut die g ∨ (s.slipG die g).discard ∨ beats.isEmpty ∨ 2 < beats.length then .next s
  else
    let cs := beats.map beatCheck
    if cs.any (fun c => c == .bad) then .next (s.beatBad die g)
    else
      let data := cs.map (fun c => match c with | .clean d => d | .fixed d _ => d | .bad => 0)
      let s := s.modSlipG die g (fun x => { x with payload := data, rxFrame := x.rxFrame + 1 })
      let s := s.bytes 4 die 64 (decide (g < 8)) (8 * beats.length)
      .next (cs.foldl (fun s c => match c with | .fixed _ b => s.beatFixed die g b | .clean _ => s | .bad => s) s)

/-- R159: the replay request reaches the transmitter, which launches the named frame and every later one again. -/
def execSlipReplayRequest (die g frame : Nat) (s : State) : Out :=
  if (s.slipG die g).replayReq = some frame then
    .next (s.modSlipG die g (fun x => { x with discard := false, replayReq := none, rxFrame := frame }))
  else .next s

/-- R160: the counting window of a group ends, and the next begins. -/
def execSlipErrorWindow (die g : Nat) (s : State) : Out :=
  let w := min 40 (max 20 (s.fget .slpCfgWindow))
  if s.fcyc < (s.slipG die g).winStart + 2 ^ w then .next s
  else .next (s.modSlipG die g (fun x => { x with corr := [], replays := 0, winStart := s.fcyc }))

/-- R161, R162: a wire position added to the map of a group. -/
def State.addFailed (s : State) (d g w : Nat) : State :=
  let lo := s.fget .slpGstatFailLo d g
  let s := s.fput .slpGstatSpares d g (s.fget .slpGstatSpares d g + 1)
  if lo = 0x7F then s.fput .slpGstatFailLo d g w
  else (s.fput .slpGstatFailLo d g (min lo w)).fput .slpGstatFailHi d g (max lo w)

/-- R162: a LINK_REPAIR that waits for a group's repair replies. -/
def State.repairReply (s : State) (d g : Nat) : State :=
  match s.kiln.cmds.find? (fun c => c.running && pktOp c.pkt == 0x0401 && c.acc == d * 16 + g) with
  | some c => s.kreply c.id 0 (BitVec.ofNat 64 (s.fget .slpGstatSpares d g))
  | none => s

/-- R162, R163: a repair window ends: the group returns with its new map, or is retired. -/
def execSlipRepairDone (die g : Nat) (pass : Bool) (s : State) : Out :=
  if s.fget .slpGstatState die g ≠ 1 ∨ s.fcyc < (s.slipG die g).repairEnd then .next s
  else if pass then
    let w := s.fget .slpGstatDue die g
    let s := ((s.addFailed die g w).fput .slpGstatDue die g 0x7F).fput .slpGstatPending die g 0
    let s := (s.fput .slpGstatState die g 0).modSlipG die g (fun x => { x with repairEnd := 0, handEnd := s.fcyc + 8 })
    .next ((s.wireLog die g w).repairReply die g)
  else .next ((s.retireGroup die g).repairReply die g)

/-- R165: eight F-cycles after its move began, a stream continues on its new group. -/
def execStreamHandoverEnd (die g : Nat) (s : State) : Out :=
  let x := s.slipG die g
  if x.handEnd = 0 ∨ s.fcyc < x.handEnd then .next s
  else .next ((s.fput .slpGstatMoved die g (b2n (s.slipOut die g))).modSlipG die g (fun x => { x with handEnd := 0 }))

/-- R163: the forwarded clock of a group fails. -/
def execForwardedClockFailure (die g : Nat) (s : State) : Out := .next (if s.dieUp die then s.retireGroup die g else s)

/-- R166: the poll of a die's sideband; the third miss in a row fences it. -/
def execSidebandPoll (die : Nat) (answered : Bool) (s : State) : Out :=
  if !s.dieUp die then .next s
  else if answered then .next (s.modDie die (fun x => { x with polls := 0 }))
  else
    let n := (s.die die).polls + 1
    let s := s.modDie die (fun x => { x with polls := n })
    .next (if 3 ≤ n then s.fenceDie die 4 else s)

/-- R152: the wire positions that a die's fuses name as repaired in a group. -/
def State.fusedFails (s : State) (d g : Nat) : List Nat :=
  (List.range 2).filterMap (fun j =>
    let b := bits ((s.die d).fuses.getD (2 + (2 * g + j) / 8) 0) (8 * ((2 * g + j) % 8)) 8
    if 128 ≤ b then some (b % 128) else none)

/-- R161, R163, R169, R170: a group trained from its fused map and the wires the test found bad. -/
def State.trainGroup (s : State) (d g : Nat) (bad : List Nat) (dead : Bool) : State :=
  let fs := (s.fusedFails d g ++ bad).eraseDups
  let s := s.rput .slpGstat d g (RegKind.slpGstat.resetVal d g)
  if 2 < fs.length || dead then (s.fput .slpGstatState d g 2).fput .slpDstatRetired d 0 (s.fget .slpDstatRetired d ||| 2 ^ g)
  else fs.foldl (fun s w => s.addFailed d g w) s

/-- R167, R169, R170: a die is reset, its groups trained, and its cores come out of reset unless a stream is left uncarried (`false`). -/
def State.trainDie (s : State) (d : Nat) (badWires : List (Nat × Nat)) (badClocks recheckBad : List Nat) : State × Bool :=
  let s := s.fput .slpDstatRetired d 0 0
  let s := s.modDie d (fun x => { fuses := x.fuses, rstHeld := true })
  let s := (List.range 16).foldl (fun s g =>
    s.trainGroup d g ((badWires.filter (fun b => b.1 == g)).map (fun b => b.2)) (badClocks.contains g || recheckBad.contains g)) s
  if s.carried d then
    let s := s.fput .slpDstatState d 0 1
    let s := s.modDie d (fun x => { x with rstHeld := false })
    ((coresOf d).foldl (fun s c => s.setCore c { cycBase := s.cyc c, cycRef := s.now }) s, true)
  else (s, false)

/-- R252: DIE_OFFLINE. -/
def execDieOffline (id : Nat) (s : State) : Out :=
  s.krun id 0x0600 (fun c s =>
    let d := bits (c.p 0) 0 4
    if 12 ≤ d then s.kreply id rBadParameter
    else if (coresOf d).any (fun c => (s.corePart c).isSome) then s.kreply id rNotPermitted
    else
      let s := (coresOf d).foldl (fun s c => s.setCore c { cycBase := s.cyc c, cycRef := s.now, clockOn := false, rst := true }) s
      ((s.fput .slpDstatState d 0 3).modDie d (fun x => { fuses := x.fuses, rstHeld := true })).kreply id 0)

/-- R167: DIE_ONLINE, with what its interconnect test found. DEDUCED (log 18): of an active die it replies at once; without a passed set check it
is refused. -/
def execDieOnline (id : Nat) (badWires : List (Nat × Nat)) (recheckBad : List Nat) (s : State) : Out :=
  s.krun id 0x0601 (fun c s =>
    let d := bits (c.p 0) 0 4
    if 12 ≤ d then s.kreply id rBadParameter
    else if s.dieUp d then s.kreply id 0
    else if s.fget .glbSetchkPass = 0 then s.kreply id rNotPermitted
    else
      let r := s.trainDie d badWires [] recheckBad
      if r.2 then r.1.kreply id 0
      else if s.fget .slpDstatState d = 3 then (r.1.fenceDie d 3).kreply id rLinkNoSpare
      else r.1.kreply id rLinkNoSpare)

/-- R162: LINK_REPAIR. -/
def execLinkRepair (id : Nat) (s : State) : Out :=
  s.krun id 0x0401 (fun c s =>
    let d := bits (c.p 0) 0 4
    let g := bits (c.p 0) 8 4
    if 12 ≤ d then s.kreply id rBadParameter
    else if s.fget .slpGstatSpares d g = 2 ∨ s.fget .slpGstatDue d g = 0x7F then s.kreply id rLinkNoSpare
    else
      let s := if s.fget .slpGstatState d g = 1 then s else s.startRepair d g
      if s.fget .slpGstatState d g = 1 then s.krunning id (d * 16 + g)
      else s.kreply id 0 (BitVec.ofNat 64 (s.fget .slpGstatSpares d g)))

/-- R252: the corrected counts of a group's wires, eight to a unit. -/
def State.wireCounts (s : State) (d g : Nat) : List W64 :=
  (List.range 10).map (fun u => BitVec.ofNat 64 (leNat ((List.range 8).map (fun j =>
    if u * 8 + j < 74 then BitVec.ofNat 8 (min 255 (Tab.get 0 (s.slipG d g).corr (u * 8 + j))) else 0))))

/-- R252: LINK_QUERY. -/
def execLinkQuery (id : Nat) (s : State) : Out :=
  s.krun id 0x0400 (fun c s =>
    let i := bits (c.p 0) 0 6
    let g := bits (c.p 0) 8 4
    match bits (c.p 0) 6 2 with
    | 0 => if 12 ≤ i then s.kreply id rBadParameter else s.kreply id 0 0 ([s.rget .slpGstat i g, s.rget .slpGerr i g] ++ s.wireCounts i g)
    | 1 => if 10 ≤ i then s.kreply id rBadParameter else s.kreply id 0 0 [s.rget .reelStat i, s.rget .reelErr i]
    | _ => s.kreply id rBadParameter)

/-- R167, R252: LINK_TEST, with what the test found. -/
def execLinkTest (id : Nat) (passed : BitVec 16) (x16 g64 : Bool) (s : State) : Out :=
  s.krun id 0x0402 (fun c s =>
    let i := bits (c.p 0) 0 6
    match bits (c.p 0) 6 2 with
    | 0 =>
      if 12 ≤ i then s.kreply id rBadParameter
      else if !s.dieOut i then s.kreply id rNotPermitted
      else s.kreply id 0 (passed.zeroExtend 64)
    | 1 =>
      if 10 ≤ i then s.kreply id rBadParameter
      else if s.fget .reelStatState i = 2 ∨ s.fget .reelStatState i = 3 then s.kreply id rNotPermitted
      else s.kreply id 0 (BitVec.ofNat 64 (bits passed 0 1 + b2n x16 * 2 + b2n g64 * 4))
    | _ => s.kreply id rBadParameter)

end Sys2Proof.Machine
end

