-- ==== Sys2Proof/Machine/Reel.lean ====
section
/-! DEFINITION. Reel links: flits, credits and the packer (R203 to R210, R219), retraining and failure (R211, R220 to R222), training and
HELLO (R212, R213), and the time base (R217). -/

namespace Sys2Proof.Machine

/-- R210: cells of a class that a receiving port holds. -/
def classBuf (cls : Nat) : Nat :=
  match cls with
  | 1 => 256
  | 2 => 128
  | 3 => 512
  | 4 => 512
  | 5 => 128
  | 6 => 128
  | _ => 256

/-- R219: the partition a cell belongs to; none for control messages of no partition. -/
def cellOwner (c : Cell) : Option Nat :=
  match c.msg.op with
  | .tsync | .hello | .resync | .resyncAck | .krelay | .complete | .shootAck => none
  | _ => some c.msg.m.part

/-- R210: the transmitter holds a credit for the cell's class. -/
def RPort.mayTake (p : RPort) (c : Cell) : Bool := decide (Tab.get 0 p.used c.cls < classBuf c.cls)

/-- R209, R210: a cell leaves the packer for a flit. -/
def RPort.take (p : RPort) (c : Cell) : RPort :=
  { p with txq := p.txq.erase c, used := Tab.put 0 p.used c.cls (Tab.get 0 p.used c.cls + 1) }

/-- Up to n cells that meet a condition, in order, into a flit. -/
def RPort.fill (ok : Cell → Bool) : Nat → RPort × List Cell → RPort × List Cell
  | 0, z => z
  | n + 1, (p, cs) =>
    match p.txq.find? (fun c => ok c && p.mayTake c) with
    | none => (p, cs)
    | some c => RPort.fill ok n (p.take c, cs ++ [c])

/-- R219: the partition after another whose cells wait. -/
def RPort.nextPart (p : RPort) (ok : Nat → Bool) (from_ : Nat) : Option Nat :=
  ((List.range 64).map (fun i => (from_ + 1 + i) % 64)).find? (fun q => ok q && p.txq.any (fun c => decide (cellOwner c = some q) && p.mayTake c))

/-- R219: weighted deficit round robin among ISO-F partitions; a turn adds the partition's weight, in cells. -/
def RPort.roundRobin (ok : Nat → Bool) (weight : Nat → Nat) : Nat → RPort × List Cell → RPort × List Cell
  | 0, z => z
  | n + 1, (p, cs) =>
    if 14 ≤ cs.length then (p, cs)
    else
      match p.txq.find? (fun c => decide (cellOwner c = some p.drr) && ok p.drr && p.mayTake c), decide (Tab.get 0 p.deficit p.drr = 0) with
      | some c, false =>
        RPort.roundRobin ok weight n ({ p.take c with deficit := Tab.put 0 p.deficit p.drr (Tab.get 0 p.deficit p.drr - 1) }, cs ++ [c])
      | some _, true =>
        match p.nextPart ok p.drr with
        | none => (p, cs)
        | some q => RPort.roundRobin ok weight n ({ p with drr := q, deficit := Tab.put 0 p.deficit q (Tab.get 0 p.deficit q + weight q) }, cs)
      | none, _ =>
        match p.nextPart ok p.drr with
        | none => (p, cs)
        | some q =>
          let d := Tab.put 0 p.deficit p.drr 0
          RPort.roundRobin ok weight n ({ p with drr := q, deficit := Tab.put 0 d q (Tab.get 0 d q + weight q) }, cs)

/-- R219: the owner of a flit slot of a port's wheel. -/
def State.flitOwner (s : State) (k slot : Nat) : Option Nat :=
  let v := s.rget .reelWheel k (slot / 8)
  if bit v (8 * (slot % 8) + 6) && decide (slot % 4 ≠ 3) then some (bits v (8 * (slot % 8)) 6) else none

/-- R219: the cells of the next flit: of the slot's owner alone, or of an open slot. -/
def State.packFlit (s : State) (k : Nat) (p : RPort) : RPort × List Cell :=
  match s.flitOwner k (p.flits % 64) with
  | some o => RPort.fill (fun c => decide (cellOwner c = some o)) 14 (p, [])
  | none =>
    RPort.roundRobin (fun q => !s.isot q) (fun q => max 1 (s.part q).weight) 160 (RPort.fill (fun c => decide (c.cls = 6 ∧ cellOwner c = none)) 2 (p, []))

/-- R210: credits returned in a flit, the classes taken in rotation: class, cells, and the port after. -/
def RPort.returnCredits (p : RPort) : Nat × Nat × RPort :=
  match ((List.range 7).map (fun i => (p.crRot + i) % 7 + 1)).find? (fun c => decide (Tab.get 0 p.owed c ≠ 0)) with
  | none => (0, 0, p)
  | some c =>
    let n := min 511 (Tab.get 0 p.owed c)
    (c, n, { p with owed := Tab.put 0 p.owed c (Tab.get 0 p.owed c - n), crRot := c % 7 })

/-- R212: the link is past its training of the lanes, so that flits travel. -/
def State.linkUp (s : State) (k : Nat) : Bool :=
  decide (s.fget .reelStatState k = 2) || (decide (s.fget .reelStatState k = 1) && decide (4 ≤ (s.rport k).stage))

/-- R211: messages whose START cell is in the flit join the record; delivered ones leave it once nothing of them is unacknowledged. -/
def RPort.noteStarts (p : RPort) (fseq : Nat) (cs : List Cell) : RPort :=
  { p with sentStart := p.sentStart.filter (fun x => p.retry.any (fun f => f.cells.any (fun c => c.msg == x.2.2)) || p.txq.any (fun c => c.msg == x.2.2))
      ++ (cs.filter (fun c => c.start)).map (fun c => (c.cls, fseq, c.msg)) }

/-- R205, R209, R210, R219: one flit time of a transmitter. -/
def execReelFlitTransmit (k : Nat) (s : State) : Out :=
  let p := s.rport k
  if !s.linkUp k ∨ s.fcyc < p.nextTx then .next s
  else
    let s := s.pev 2 1 k 64 1
    let (cls, cnt, p) := p.returnCredits
    let cmd := if p.nakOwed then 1 else if p.stopOwed then 2 else 0
    let s := if p.nakOwed then (s.fbump .reelErrNak k 0).pev 2 5 k 64 1 else s
    let ack := (p.rxSeq + 1023) % 1024
    let p := { p with nakOwed := false, stopOwed := p.stopOwed && p.nakOwed, nextTx := s.fcyc + s.flitTime k }
    let own := s.flitOwner k (p.flits % 64)
    match p.resend with
    | f :: rest =>
      let f := { f with ackSeq := ack, cmd := cmd, crCls := cls, crCnt := cnt }
      .next ((s.pev 2 2 k 64 1).modRport k (fun _ => { p with resend := rest, flits := p.flits + 1, out := some f }))
    | [] =>
      let (p, cs) := if p.retry.length < 128 then s.packFlit k p else (p, [])
      let f : Flit := { fseq := p.txSeq, ackSeq := ack, cmd := cmd, null := cs.isEmpty, crCls := cls, crCnt := cnt, cells := cs }
      if cs.isEmpty then
        let s := match own with
          | some o => s.pev 2 8 k o 1
          | none => s
        .next (s.modRport k (fun _ => { p with flits := p.flits + 1, out := some { f with fseq := 0 } }))
      else
        let s := cs.foldl (fun s c => (s.pev 2 3 k ((cellOwner c).getD 64) 1).bytes 2 k ((cellOwner c).getD 64) false 16) (s.pev 2 2 k 64 1)
        let p := p.noteStarts p.txSeq cs
        .next (s.modRport k (fun _ => { p with flits := p.flits + 1, txSeq := (p.txSeq + 1) % 1024, retry := p.retry ++ [f], out := some f }))

/-- R220: a link retrains on its stored presets. -/
def State.startRetrain (s : State) (k : Nat) : State :=
  (s.fput .reelStatState k 0 3).modRport k (fun p => { p with retrainEnd := s.now + 256 * usTicks, resends := 0 })

/-- R48, R72, R94, R208: a control message of a core or the router, delivered by the port from a peer, goes on inside the package. -/
def State.ctlArrives (s : State) (q : Nat) (m : RMsg) (at_ : Nat) : State :=
  let w := { m.m with pkg := q }
  match m.op, hartParts m.m.tag with
  | .wake, some (_, c, i) => s.send { w with core := c, tag := i } at_
  | .spawn, _ => s.send w at_
  | .spawnRsp, some (_, c, i) => s.send { w with core := c, tag := i } at_
  | .deliver, _ => s.send w at_
  | .complete, _ => s.send w at_
  | .post, some (_, c, i) => s.postHere c i m.m.arg m.m.part
  | .shoot, _ => s.shootLocal m.m.part m.m.tag q m.m.val []
  | .shootAck, _ => s.send { w with core := 240 + q, pkg := s.pkg } at_
  | _, _ => s

/-- R208: the messages that the slices and the control logic take from the port themselves. -/
def opQueued (o : ReelOp) : Bool :=
  match o with
  | .wake | .spawn | .spawnRsp | .deliver | .complete | .post | .shoot | .shootAck | .other _ => false
  | _ => true

/-- R208, R209: a whole message is delivered; one of an unknown opcode is a protocol error. -/
def State.reelDeliver (s : State) (k : Nat) (m : RMsg) (at_ : Nat) : State :=
  match m.op with
  | .other _ => s.linkFail k rLinkPeerLost
  | op =>
    if opQueued op then
      let last := (s.reel.rx.filter (fun (x : RRx) => x.port == k && (rmsgShape x.msg).1 == (rmsgShape m).1)).foldl (fun a x => max a x.at_) 0
      { s with reel := { s.reel with rx := s.reel.rx ++ [{ port := k, at_ := max at_ last, msg := m }] } }
    else
      let n := (rmsgShape m).2
      (s.modRport k (fun p => { p with owed := Tab.put 0 p.owed (rmsgShape m).1 (Tab.get 0 p.owed (rmsgShape m).1 + n) })).ctlArrives (s.fget .reelStatPeer k) m at_

/-- R204, R207, R209: a cell received. -/
def State.cellArrives (s : State) (k fseq : Nat) (hold : Bool) (c : Cell) : State :=
  let s := (s.pev 2 4 k ((cellOwner c).getD 64) 1).bytes 2 k ((cellOwner c).getD 64) true 16
  if c.idx + 1 < (rmsgShape c.msg).2 then s.modRport k (fun p => { p with rxpart := p.rxpart ++ [(fseq, c)] })
  else
    let s := s.modRport k (fun p => { p with rxpart := p.rxpart.filter (fun x => x.2.msg != c.msg) })
    s.reelDeliver k c.msg (s.fcyc + (if hold then (3 - c.phase) * (s.flitTime k / 4) else 0))

/-- R205, R210: what an intact flit says to the transmitter: flits acknowledged, credits, NAK. -/
def RPort.heard (p : RPort) (f : Flit) : RPort :=
  let keep := p.retry.filter (fun x => decide (512 ≤ (f.ackSeq + 1024 - x.fseq) % 1024))
  let p := { p with resends := if keep.length = p.retry.length then p.resends else 0, retry := keep
                    resend := p.resend.filter (fun x => decide (512 ≤ (f.ackSeq + 1024 - x.fseq) % 1024))
                    used := if f.crCls = 0 then p.used else Tab.put 0 p.used f.crCls (Tab.get 0 p.used f.crCls - f.crCnt) }
  if f.cmd = 1 then { p with resend := keep, resends := p.resends + 1 } else p

/-- R215: the peer takes a link out of service: nothing more is launched on its bundle until it has drained. -/
def State.stopHeard (s : State) (k : Nat) : State :=
  if (s.rport k).draining then s
  else
    let q := s.fget .reelStatPeer k
    let s := s.modRport k (fun p => { p with draining := true })
    { s with reel := { s.reel with quiesce := if s.reel.quiesce.contains q then s.reel.quiesce else s.reel.quiesce ++ [q] } }

/-- R205, R206, R210, R220: a flit arrives. -/
def execReelFlitReceive (k : Nat) (rx : FlitRx) (f : Flit) (s : State) : Out :=
  let p := s.rport k
  let bad := fun (s : State) => s.modRport k (fun p => if p.nakWait then p else { p with nakWait := true, nakOwed := true })
  if !s.linkUp k then .next s
  else if rx = .crcFail then .next (bad s)
  else
    let s := if rx = .corrected then (s.fbump .reelErrFeccorr k 0).pev 2 6 k 64 1 else s
    let s := s.modRport k (fun p => { p with lastGood := s.fcyc })
    if !f.null ∧ f.fseq ≠ p.rxSeq then .next (bad s)
    else
      let s := s.modRport k (fun p => p.heard f)
      let s := if f.null then s else s.modRport k (fun p => { p with rxSeq := (p.rxSeq + 1) % 1024, nakWait := false })
      let s := if f.cmd = 2 then s.stopHeard k else s
      let s := f.cells.foldl (fun s c => s.cellArrives k f.fseq (!p.nakWait) c) s
      .next (if 4 ≤ (s.rport k).resends then s.startRetrain k else s)

/-- R205, R220: no intact flit for 1,024 F-cycles. -/
def execReelSilenceTimeout (k : Nat) (s : State) : Out :=
  .next (if s.fget .reelStatState k = 2 ∧ (s.rport k).lastGood + 1024 ≤ s.fcyc then s.startRetrain k else s)

/-- R203, R206, R220: a retrain reaches L0; what has not been acknowledged is sent again. -/
def execReelRetrainDone (k : Nat) (x16 g64 : Bool) (s : State) : Out :=
  if s.fget .reelStatState k = 3 ∧ s.now < (s.rport k).retrainEnd then
    let s := ((s.fput .reelStatState k 0 2).fput .reelStatX16 k 0 (b2n x16)).fput .reelStatG64 k 0 (b2n g64)
    .next ((s.fbump .reelErrRetrain k 0).modRport k (fun p => { p with lastGood := s.fcyc, nextTx := s.fcyc, resend := p.retry }))
  else .next s

/-- R220: a retrain has not reached L0 within 256 µs. -/
def execReelRetrainTimeout (k : Nat) (s : State) : Out :=
  .next (if s.fget .reelStatState k = 3 ∧ (s.rport k).retrainEnd ≤ s.now then s.linkFail k rLinkTrainFailed else s)

/-- A control message that a port has delivered. -/
def State.reelCtl (s : State) (ok : RRx → Bool) : Option RRx := s.reel.rx.find? (fun x => decide (x.at_ ≤ s.fcyc) && ok x)

/-- R211: RFSEQ of a class on a failed link: the START of the first message not delivered, or one past the last flit taken. -/
def RPort.rfseq (p : RPort) (cls : Nat) : Nat := ((p.rxpart.find? (fun x => x.2.start && x.2.cls == cls)).map (fun x => x.1)).getD p.rxSeq

/-- R211: bytes 4 to 15 of RESYNC_ACK. -/
def resyncAckCtl (slot : Nat) (fs : List Nat) : BitVec 96 :=
  BitVec.ofNat 96 (slot + (fs.zipIdx.foldl (fun a x => a + x.1 % 1024 * 2 ^ (10 * x.2)) 0) * 2 ^ 16)

/-- R211: a RESYNC names a link of the peer's slot that has failed. DEDUCED (log 21): this end declares it failed too. -/
def execResync (src slot : Nat) (s : State) : Out :=
  match s.reelCtl (fun x => x.msg.op == .resync && x.msg.src == src && decide (bits x.msg.ctl 0 4 = slot)) with
  | none => .next s
  | some x =>
    let s := s.takeReel x.msg
    match (List.range 10).find? (fun k => decide (s.fget .reelStatPeerv k = 1) && decide (s.fget .reelStatPeer k = src) && decide (s.fget .reelStatPslot k = slot)) with
    | none => .next s
    | some k =>
      let p := s.rport k
      let s := s.linkFail k rLinkPeerLost
      .next (s.reelSend src { op := .resyncAck, ctl := resyncAckCtl slot ((List.range 7).map (fun c => p.rfseq (c + 1))) })

/-- R211: a bundle launches again: what was to be sent goes first, then what waited, on the new mapping. -/
def State.resume (s : State) (q : Nat) (first : List RMsg) : State :=
  let waits := (s.reel.held.filter (fun m => m.1 == q)).map (fun m => m.2)
  let s := { s with reel := { s.reel with quiesce := s.reel.quiesce.filter (· != q), held := s.reel.held.filter (fun m => m.1 != q) } }
  (first ++ waits).foldl (fun s m => s.reelSend q m) s

/-- R211: the RESYNC_ACK of a failed link: per class, messages from RFSEQc on are sent again, and those that never started. -/
def execResyncAck (src slot : Nat) (rfseq : List Nat) (s : State) : Out :=
  match s.reelCtl (fun x => x.msg.op == .resyncAck && x.msg.src == src && x.msg.ctl == resyncAckCtl slot rfseq) with
  | none => .next s
  | some x =>
    let s := s.takeReel x.msg
    let p := s.rport slot
    if !p.resyncWait then .next s
    else
      let again := (p.sentStart.filter (fun e => decide ((e.2.1 + 1024 - rfseq.getD (e.1 - 1) 0) % 1024 < 512))).map (fun e => e.2.2)
      let fresh := (p.txq.filter (fun c => c.start)).map (fun c => c.msg)
      let s := s.modRport slot (fun p => { p with resyncWait := false, txq := [], retry := [], resend := [], sentStart := [] })
      .next (if (List.range 10).any (fun k => (s.rport k).resyncWait && decide (s.fget .reelStatPeer k = src)) then
          { s with reel := { s.reel with held := (again ++ fresh).map (fun m => (src, m)) ++ s.reel.held } }
        else s.resume src (again ++ fresh))

/-- R215: a port's command replies. -/
def State.portReply (s : State) (k status : Nat) : State :=
  match (s.rport k).cmd with
  | none => s
  | some id => (s.modRport k (fun p => { p with cmd := none })).kreply id status (if status = 0 ∧ s.fget .reelStatState k = 2 then s.rget .reelStat k else 0)

/-- R211, R215: a link is added to a bundle or removed from it, once every sequenced flit of the bundle has been acknowledged. -/
def execBundleQuiesced (peer : Nat) (s : State) : Out :=
  let ports := (List.range 10).filter (fun k => decide (s.fget .reelStatPeerv k = 1) && decide (s.fget .reelStatPeer k = peer))
  if !s.reel.quiesce.contains peer || ports.any (fun k => (s.rport k).resyncWait ||
      (decide (s.fget .reelStatState k = 2 ∨ s.fget .reelStatState k = 3) && !((s.rport k).retry.isEmpty && (s.rport k).txq.isEmpty))) then .next s
  else
    let s := (ports.filter (fun k => (s.rport k).joining)).foldl (fun s k =>
      ((s.fput .reelStatState k 0 2).modRport k (fun p => { p with joining := false })).portReply k 0) s
    let s := (ports.filter (fun k => (s.rport k).draining)).foldl (fun s k =>
      let s := (s.fput .reelStatState k 0 5).portReply k 0
      s.modRport k (fun _ => {})) s
    .next (s.resume peer [])

/-- R214: reel links to each package as a report gives them: eight counts of 3 bits. -/
def State.linkCounts (s : State) : Nat := (List.range 8).foldl (fun a q => a + min 7 (s.bundle q).length * 8 ^ q) 0

/-- R214: no reel slot is still training. -/
def State.linksSettled (s : State) : Bool := (List.range 10).all (fun k => decide (s.fget .reelStatState k ≠ 1))

/-- R214: the one lead that this package finds among itself and its peers. -/
def State.oneLead (s : State) : Option Nat :=
  let own := if s.fget .glbStrapsBootPkg = 1 then [s.pkg] else []
  let far := ((List.range 10).filter (fun k => decide (s.fget .reelStatState k = 2) && (s.rport k).peerBoot)).map (fun k => s.fget .reelStatPeer k)
  match (own ++ far).eraseDups with
  | [l] => some l
  | _ => none

/-- R214: the package has not formed a system yet, and its boot is at that stage. -/
def State.forming (s : State) : Bool := decide (s.fget .glbBootstatStage = 7) && decide (s.fget .reelSysFormed = 0)

/-- R214: links to packages that are no members are disabled. -/
def State.dropOutsiders (s : State) (members reason : Nat) : State :=
  ((List.range 10).filter (fun k => decide (s.fget .reelStatState k ≠ 0) && !(decide (s.fget .reelStatPeerv k = 1) && bit (BitVec.ofNat 8 members) (s.fget .reelStatPeer k)))).foldl
    (fun s k => ((s.fput .reelStatState k 0 5).fput .reelStatReason k 0 reason).modRport k (fun _ => {})) s

/-- R214: REEL_SYS as formation sets it; R141: the reel pool of every slice; R343: logged as INFO, which has no event code (DESIGN CHOICE: 0, log 6). -/
def State.formSys (s : State) (members lead reason : Nat) : State :=
  let s := (((s.fput .reelSysMembers 0 0 members).fput .reelSysLead 0 0 lead).fput .reelSysFormed 0 0 1).fput .reelSysReason 0 0 reason
  let s := { s with reel := { s.reel with tsyncNext := s.fcyc } }
  let pool := if s.npkg ≤ 1 then 0 else 1024
  let s := (List.range 16).foldl (fun s n => s.fput .hsTrkcfgReel n 0 pool) s
  s.logEvent { cls := 0, event := 0, kind := 0, reason := reason, detail := members }

/-- R214: the package runs alone, with the reason. -/
def State.runAlone (s : State) (reason : Nat) : State := (s.dropOutsiders 0 reason).formSys (2 ^ s.pkg) s.pkg reason

/-- R200: every pair of members is joined by 1 to 3 links, and no member has more than 7, as the reports say. -/
def topologyOk (rep : List (Nat × Nat)) : Bool :=
  rep.all (fun a =>
    rep.all (fun b => decide (a.1 = b.1) || (decide (1 ≤ a.2 / 8 ^ b.1 % 8) && decide (a.2 / 8 ^ b.1 % 8 ≤ 3))) &&
      decide ((List.range 8).foldl (fun n q => n + a.2 / 8 ^ q % 8) 0 ≤ 7))

/-- R214 step 3: the highest-numbered member other than the lead is removed until R200 holds. -/
def cutMembers (lead : Nat) : Nat → List (Nat × Nat) → List (Nat × Nat)
  | 0, rep => rep
  | n + 1, rep =>
    if topologyOk rep then rep
    else
      let top := (rep.filter (fun r => r.1 != lead)).foldl (fun m r => max m r.1) 0
      cutMembers lead n (rep.filter (fun r => r.1 == lead || r.1 != top))

/-- R65, R217: the time base in F-cycles. -/
def State.fTime (s : State) : Nat := s.time * 20 + s.tbPhase

/-- R214 steps 3 and 4 at the lead. -/
def State.formSystem (s : State) : State :=
  let rep := cutMembers s.pkg 8 ((s.pkg, s.linkCounts) :: s.reel.reports.filter (fun r => r.1 != s.pkg))
  let members := rep.foldl (fun m r => m ||| 2 ^ r.1) 0
  let s := (s.reel.reports.filter (fun r => r.1 != s.pkg)).foldl (fun s r => s.krelaySend r.1 (.formed members s.pkg s.fTime)) s
  (s.dropOutsiders members rLinkTopology).formSys members s.pkg 0

/-- R214: formation goes on: a member reports to the lead it has found; the lead forms the system once every package it is joined to has
reported. -/
def State.tryForm (s : State) : State :=
  if !s.forming || !s.linksSettled then s
  else if decide (s.kiln.cfg.reelMask = 0) then s.runAlone 0
  else
    match s.oneLead with
    | none => s
    | some l =>
      if l = s.pkg then
        (if (List.range 8).all (fun q => (s.bundle q).isEmpty || s.reel.reports.any (fun r => r.1 == q)) then s.formSystem else s)
      else if s.reel.reported then s
      else { s with reel := { s.reel with reported := true } }.krelaySend l (.report s.pkg s.linkCounts)

/-- R214: 2 s after package reset: the lead takes the packages that have reported; a package without one lead, or that no lead has taken, runs
alone. -/
def execFormationTimeout (s : State) : Out :=
  if !s.forming ∨ s.now < s.reel.formBy then .next s
  else .next (if s.oneLead = some s.pkg then s.formSystem else s.runAlone rLinkTopology)

/-- R212, R213, R215: training or a HELLO fails: the link is down with its reason. -/
def State.trainFail (s : State) (k reason : Nat) : State :=
  let s := ((s.fput .reelStatState k 0 4).fput .reelStatReason k 0 reason).fput .reelStatPeerv k 0 0
  let s := s.portReply k reason
  (s.modRport k (fun _ => {})).tryForm

/-- R212: bytes 4 to 15 of this package's HELLO on a slot. -/
def State.helloCtl (s : State) (k : Nat) : BitVec 96 :=
  BitVec.ofNat 96 (s.pkg + 8 * s.fget .glbStrapsBootPkg + 16 * k + 2 ^ 8 * bits (s.ioFuses.getD 0 0) 8 16 + 2 ^ 24)

/-- R212: training of a reel slot begins. -/
def State.startTraining (s : State) (k : Nat) (cmd : Option Nat) : State :=
  let s := s.rput .reelStat k 0 1
  s.modRport k (fun _ => { stage := 1, cmd := cmd })

/-- R203, R212: a training stage ends. -/
def execReelTrainingStage (k stage : Nat) (r : TrainRes) (x16 g64 : Bool) (flight : Nat) (s : State) : Out :=
  if s.fget .reelStatState k ≠ 1 ∨ (s.rport k).stage ≠ stage then .next s
  else
    let ok := r = .ok
    match stage with
    | 1 => .next (if ok then (s.fput .reelStatX16 k 0 (b2n x16)).modRport k (fun p => { p with stage := 2 }) else s.trainFail k rLinkPeerAbsent)
    | 2 => .next (if ok then (s.fput .reelStatG64 k 0 (b2n g64)).modRport k (fun p => { p with stage := 3 }) else s.trainFail k rLinkTrainFailed)
    | 3 =>
      if ok ∧ flight ≤ 16 then
        let s := (s.fput .reelStatXdly k 0 (flight - 4)).modRport k (fun p => { p with stage := 4, lastGood := s.fcyc, nextTx := s.fcyc })
        .next (s.queueOn k { op := .hello, src := s.pkg, ctl := s.helloCtl k })
      else .next (s.trainFail k rLinkTooLong)
    | _ => .next (if ok then s else s.trainFail k rLinkPeerAbsent)

/-- R200, R213, R215: why a HELLO is refused. -/
def State.helloReason (s : State) (k : Nat) (ctl : BitVec 96) : Option Nat :=
  let q := bits ctl 0 3
  if bits ctl 8 16 ≠ bits (s.ioFuses.getD 0 0) 8 16 ∨ bits ctl 24 8 ≠ 1 then some rLinkSetMismatch
  else if q = s.pkg then some rLinkIdConflict
  else if (List.range 10).any (fun j => j ≠ k && decide (s.fget .reelStatPeerv j = 1) && decide (s.fget .reelStatPeer j = q) &&
      decide (s.fget .reelStatPslot j = bits ctl 4 4) && decide (s.fget .reelStatState j = 2 ∨ s.fget .reelStatState j = 3)) then some rLinkTopology
  else if s.fget .reelSysFormed = 1 then
    if s.lost q then some rLinkPeerLost
    else if !s.member q ∨ 3 ≤ (s.bundle q).length ∨ 7 ≤ ((List.range 8).foldl (fun n q => n + (s.bundle q).length) 0) then some rLinkTopology
    else none
  else none

/-- R213, R215: a peer's HELLO. -/
def execHello (k : Nat) (ctl : BitVec 96) (s : State) : Out :=
  match s.reelCtl (fun x => x.msg.op == .hello && x.port == k && x.msg.ctl == ctl) with
  | none => .next s
  | some x =>
    let s := s.takeReel x.msg
    if s.fget .reelStatState k ≠ 1 ∨ (s.rport k).stage ≠ 4 then .next s
    else
      match s.helloReason k ctl with
      | some r => .next (s.trainFail k r)
      | none =>
        let q := bits ctl 0 3
        let s := ((s.fput .reelStatPeerv k 0 1).fput .reelStatPeer k 0 q).fput .reelStatPslot k 0 (bits ctl 4 4)
        let s := s.modRport k (fun p => { p with peerBoot := bit ctl 3, stage := 5, flits := 0 })
        if s.fget .reelSysFormed = 1 then
          let s := s.modRport k (fun p => { p with joining := true })
          .next { s with reel := { s.reel with quiesce := if s.reel.quiesce.contains q then s.reel.quiesce else s.reel.quiesce ++ [q] } }
        else .next ((s.fput .reelStatState k 0 2).tryForm)

/-- R203: the fixed crossing of a link. -/
def State.crossing (s : State) (k : Nat) : Nat := 40 + 2 * s.flitTime k + s.fget .reelStatXdly k

/-- R217: the lead sends TSYNC to each member every 4,096 F-cycles. -/
def execTsyncSend (s : State) : Out :=
  if s.fget .reelSysFormed = 0 ∨ s.fget .reelSysLead ≠ s.pkg ∨ s.fcyc < s.reel.tsyncNext then .next s
  else
    let s := ((List.range 8).filter (fun q => q ≠ s.pkg && s.member q)).foldl (fun s q =>
      s.reelSend q { op := .tsync, ctl := BitVec.ofNat 96 s.fTime }) s
    .next { s with reel := { s.reel with tsyncNext := s.reel.tsyncNext + 4096 } }

/-- R217: a TSYNC at a member: its offset, and the correction that follows. -/
def execTsync (k fTime : Nat) (s : State) : Out :=
  match s.reelCtl (fun x => x.msg.op == .tsync && x.port == k && decide (x.msg.ctl.toNat = fTime)) with
  | none => .next s
  | some x =>
    let s := s.takeReel x.msg
    if x.msg.src ≠ s.fget .reelSysLead then .next s
    else
      let off : Int := (s.fTime : Int) - s.crossing k - fTime
      let cut := max (-127) (min 127 off)
      let s := (s.fput .reelSysTboff 0 0 (BitVec.ofInt 8 cut).toNat).fput .reelSysSynced 0 0 (b2n (decide (off.natAbs ≤ 4)))
      let s := { s with reel := { s.reel with adj := -off } }
      .next (if 8 < off.natAbs then s.logEvent { cls := 1, event := 0x41, kind := 7, idx := k, detail := (BitVec.ofInt 8 cut).toNat } else s)

/-- R221: a loss report at the lead or the deputy. -/
def execLoss (p q : Nat) (s : State) : Out :=
  if !s.reel.told.contains (.loss p q) then .next s
  else
    let s := { s with reel := { s.reel with told := s.reel.told.erase (.loss p q) } }
    let lead := s.fget .reelSysLead
    if s.lost p ∨ s.lost q then .next s
    else if lead = s.pkg then .next (s.decideExpel (if q = lead then p else max p q))
    else if q = lead ∧ s.deputy = some s.pkg ∧ !(s.bundle lead).isEmpty then .next (s.krelaySend lead (.loss p q))
    else .next s

/-- R222: an expulsion reaches this package. -/
def execExpel (x : Nat) (s : State) : Out :=
  if s.reel.told.contains (.expel x) then .next ({ s with reel := { s.reel with told := s.reel.told.erase (.expel x) } }.expelled x) else .next s

/-- R221: the deputy has waited 200 µs: it becomes the lead and expels the old one. -/
def execDeputyWaitExpiry (s : State) : Out :=
  match s.reel.deputyWait with
  | none => .next s
  | some t =>
    if s.now < t then .next s
    else
      let old := s.fget .reelSysLead
      let s := { s with reel := { s.reel with deputyWait := none } }
      .next ((s.fput .reelSysLead 0 0 s.pkg).decideExpel old)

/-- R221: no expulsion within 1 ms of this package's LOSS: it expels itself. -/
def execLossTimeout (s : State) : Out :=
  match s.reel.lossSent with
  | none => .next s
  | some (_, t) => .next (if t + 1000 * usTicks ≤ s.now then s.expelSelf else s)

/-- R215: REEL_ENABLE. DEDUCED (log 22): a slot that is no reel slot is BAD_PARAMETER, an active one replies at once, and before formation the
command is NOT_PERMITTED. -/
def execReelEnable (id : Nat) (s : State) : Out :=
  s.krun id 0x0403 (fun c s =>
    let k := bits (c.p 0) 0 4
    if 10 ≤ k ∨ !bit s.kiln.cfg.reelMask k then s.kreply id rBadParameter
    else if s.fget .reelSysFormed = 0 then s.kreply id rNotPermitted
    else if (s.rport k).draining then s.kreply id rBusyDraining
    else if s.fget .reelStatState k = 2 ∨ s.fget .reelStatState k = 3 then s.kreply id 0 (s.rget .reelStat k)
    else if s.fget .reelStatPeerv k = 1 ∧ s.lost (s.fget .reelStatPeer k) then s.kreply id rLinkPeerLost
    else (s.startTraining k (some id)).krunning id 0)

/-- R215: REEL_DISABLE. -/
def execReelDisable (id : Nat) (s : State) : Out :=
  s.krun id 0x0404 (fun c s =>
    let k := bits (c.p 0) 0 4
    if 10 ≤ k ∨ !bit s.kiln.cfg.reelMask k then s.kreply id rBadParameter
    else if s.fget .reelSysFormed = 0 then s.kreply id rNotPermitted
    else if s.fget .reelStatState k ≠ 2 ∧ s.fget .reelStatState k ≠ 3 then (s.fput .reelStatState k 0 5).kreply id 0
    else
      let q := s.fget .reelStatPeer k
      if (s.bundle q).length ≤ 1 then s.kreply id rNotPermitted
      else
        let s := s.modRport k (fun p => { p with draining := true, stopOwed := true, cmd := some id })
        let s := { s with reel := { s.reel with quiesce := if s.reel.quiesce.contains q then s.reel.quiesce else s.reel.quiesce ++ [q] } }
        s.krunning id 0)

end Sys2Proof.Machine
end

