-- ==== Sys2Proof/Machine/Sleep.lean ====
section
/-! DEFINITION. Power states of cores and dies: the choice of a state, entry, exit, and the spill area (R258, R259, R262 to R264, R272, R273);
and the reset of a core (R339). -/

namespace Sys2Proof.Machine

/-- R258: the number of a core state. -/
def CState.num : CState → Nat
  | .cs0 => 0
  | .cs1 => 1
  | .cs2 => 2
  | .cs3 => 3

/-- R258: the core state of a number. -/
def CState.ofNum (n : Nat) : CState :=
  match n with
  | 0 => .cs0
  | 1 => .cs1
  | 2 => .cs2
  | _ => .cs3

/-- R258: CS1's condition on contexts: none ACTIVE, none READY and unheld. -/
def Core.quiet (k : Core) : Bool :=
  k.ctxs.all (fun e => decide (e.2.st ≠ .active) && (decide (e.2.st ≠ .ready) || e.2.hold)) && k.slots.all (fun o => o.isNone)

/-- R258: the conditions of a core state, as far as they concern the core. -/
def State.coreMay (s : State) (c n : Nat) : Bool :=
  let k := s.core c
  let cs1 := k.quiet && (!k.clockOn || (decide (k.chg + 16 ≤ s.cyc c) && decide (k.wrEnd + 16 ≤ s.cyc c)))
  let cs2 := cs1 && k.ctxs.all (fun e => decide (e.2.st ≠ .miss)) && k.sb.isEmpty && k.evb.isEmpty && k.miss.isEmpty
  match n with
  | 0 => true
  | 1 => cs1
  | 2 => cs2
  | _ => cs2 && k.spill.isNone && (k.sbuf.isEmpty || k.spillFull || decide (s.fget .cdSmpringEn (dieOf c) (c % 20) = 0)) && (k.ctxs.all (fun e => decide (e.2.st = .empty)) || decide (s.fget .pwrSpillEn c = 1)) &&
      (k.ctxs.all (fun e => decide (e.2.st ≠ .wait)) || k.ctxs.all (fun e => e.2.st == .empty || e.2.hold))

/-- R264: the time to a core's next known event, in ticks of the time base; none when it is unbounded. -/
def State.coreT (s : State) (c : Nat) : Option Nat :=
  let k := s.core c
  let timer := if bit k.mtmrctl 16 && bit (k.ctx (bits k.mtmrctl 0 10)).mie 7 then [k.mtmrcmp.toNat] else []
  let vs := k.heap.map (fun h => h.val) ++ timer
  (vs.foldl (fun m v => match m with
    | none => some v
    | some w => some (min v w)) (none : Option Nat)).map (fun v => v - s.time)

/-- R264: T of a core, a die or the package meets a threshold. -/
def tMeets (t : Option Nat) (n : Nat) : Bool :=
  match t with
  | none => true
  | some v => decide (n ≤ v)

/-- The lesser of two times to an event. -/
def tMin (a b : Option Nat) : Option Nat :=
  match a, b with
  | none, b => b
  | a, none => a
  | some x, some y => some (min x y)

/-- R264: T of a die. -/
def State.dieT (s : State) (d : Nat) : Option Nat := (coresOf d).foldl (fun t c => tMin t (s.coreT c)) none

/-- R264: thresholds of core states: 0, 20 µs, 2 ms. -/
def coreThreshold (n : Nat) : Nat := if n = 2 then 2000 else if n = 3 then 200000 else 0

/-- R264: thresholds of die states: 10 µs, 5 ms. -/
def dieThreshold (n : Nat) : Nat := if n = 1 then 1000 else if n = 2 then 500000 else 0

/-- R264: the deepest state a core may choose; package entry (R267, E2) takes every core as deep as it goes whatever T is. -/
def State.coreChoice (s : State) (c : Nat) : Nat :=
  let free := !s.hwMode 2 || decide (s.pwr.step = 2)
  ([3, 2, 1].find? (fun n => decide (n ≤ s.fget .pwrCorectlDeepest c) && s.coreMay c n && (free || tMeets (s.coreT c) (coreThreshold n)))).getD 0

/-- R258: a core's clock stops, and its state is shown in PWR_CORECTLc. -/
def State.stopCore (s : State) (c n : Nat) : State :=
  (s.modCore c (fun k => { k with cycBase := s.cyc c, cycRef := s.now, clockOn := false, cst := CState.ofNum n, exitDue := none })).fput .pwrCorectlState c 0 n

/-- R100, R262, R339: lines leave an L2 by WB and EVC, as far as the eviction buffer has room. -/
def State.flushL2 (s : State) (c : Nat) : State :=
  let k := s.core c
  ((k.l2.filter (fun e => e.2.stable)).take (8 - k.evb.length)).foldl (fun s e => s.evictL2 c e.1 e.2) s

/-- R258, R262, R264: a core enters the deepest state it may: CS3 first empties the L2, and its record store is written out; what is lost goes. -/
def execCoreStateEntry (core : Nat) (s : State) : Out :=
  let k := s.core core
  let n := s.coreChoice core
  if !s.dieUp (dieOf core) ∨ k.rst ∨ k.exitDue.isSome ∨ n ≤ k.cst.num then .next s
  else if n = 1 then .next (s.stopCore core 1)
  else
    let lost := fun (s : State) => s.modCore core (fun k => { k with l1i := [], l1d := [], itlb := [], dtlb := [], stlb := [] })
    if n = 2 then .next (lost (s.stopCore core 2))
    else if !k.l2.isEmpty then .next (s.flushL2 core)
    else .next (lost ((s.stopCore core 3).modCore core (fun k => { k with watch := [], resv := [], fills := [] })))

/-- R272: a sleeping core starts its exit to a state. -/
def State.startExit (s : State) (c dest : Nat) : State :=
  let k := s.core c
  if k.cst.num ≤ dest ∨ k.exitDue.isSome then s
  else s.setCore c { k with exitDue := some (CState.ofNum dest, s.now + if k.cst = .cs1 then (640 + s.freq c - 1) / s.freq c else 0) }

/-- R262: READY contexts re-enter the ready queue in slot order. -/
def Core.requeue (k : Core) : Core :=
  { k with readyQ := (k.ctxs.filter (fun e => decide (e.2.st = .ready) && !e.2.hold)).map (fun e => e.1) }

/-- R258, R266, R272: a core has exited: its clock runs again in CS0; the package's hold is taken by a core that leaves CS2 or CS3. -/
def State.exitCore (s : State) (c : Nat) (dest : CState) : State :=
  let k := s.core c
  let deep := decide (2 ≤ k.cst.num)
  let k := if k.cst = .cs3 then k.requeue else k
  let k := { k with cst := dest, exitDue := none, cycRef := s.now, clockOn := decide (dest = .cs0) }
  let mine := (s.pwr.held.filter (fun h => h % 2 ^ 18 / 1024 == c)).map (fun h => h % 1024)
  let k := if deep && decide (s.fget .pwrStatusHosthold = 1) then mine.foldl (fun (k : Core) i => k.setHold i true) k else k
  (s.setCore c k).fput .pwrCorectlState c 0 dest.num

/-- R272: the last restore stage of a core is done. -/
def execCoreExitDone (core : Nat) (s : State) : Out :=
  match (s.core core).exitDue with
  | none => .next s
  | some (dest, due) => .next (if due ≤ s.now ∧ (s.die (dieOf core)).dst = 0 then s.exitCore core dest else s)

/-- R259, R264: the conditions of a die state. -/
def State.dieMay (s : State) (d n : Nat) : Bool :=
  (coresOf d).all (fun c => decide ((if n = 2 then 3 else 1) ≤ (s.core c).cst.num) && (s.core c).exitDue.isNone)

/-- R259, R264: a die enters the deepest state it may. -/
def execDieStateEntry (die : Nat) (s : State) : Out :=
  let free := !s.hwMode 2 || decide (s.pwr.step = 2)
  let n := ([2, 1].find? (fun n => decide (n ≤ s.fget .pwrDiectlDeepest die) && s.dieMay die n &&
    (free || tMeets (s.dieT die) (dieThreshold n)))).getD 0
  let x := s.die die
  if !s.dieUp die ∨ x.exitDue.isSome ∨ n ≤ x.dst then .next s
  else .next ((s.modDie die (fun x => { x with dst := n })).fput .pwrDiectlState die 0 n)

/-- R272: a sleeping die starts its exit; in a package exit dies leave DS2 8 µs apart. -/
def State.startDieExit (s : State) (d wait : Nat) : State :=
  let x := s.die d
  if x.dst = 0 ∨ x.exitDue.isSome then s
  else s.modDie d (fun x => { x with exitDue := some (0, s.now + wait + if x.dst = 1 then usTicks else 195 * usTicks) })

/-- R259, R272: a die's exit is done: DS0. -/
def execDieExitDone (die : Nat) (s : State) : Out :=
  match (s.die die).exitDue with
  | none => .next s
  | some (dest, due) =>
    .next (if due ≤ s.now then (s.modDie die (fun x => { x with dst := dest, exitDue := none })).fput .pwrDiectlState die 0 dest else s)

/-- R262, R264: a core deeper than DEEPEST permits exits to the deepest state that it does. -/
def State.limitCore (s : State) (c n : Nat) : State :=
  let s := s.fput .pwrCorectlDeepest c 0 n
  if n < (s.core c).cst.num then s.startExit c n else s

/-- R262, R264: a write of PWR_CORECTLc. -/
def execPwrCorectlWrite (q : Req) (c : Nat) (v : W64) (s : State) : Out := s.regWrite q .pwrCorectl c 0 v (fun s => s.limitCore c (bits v 0 2))

/-- R264: a die deeper than DEEPEST permits exits. -/
def State.limitDie (s : State) (d n : Nat) : State :=
  let s := s.fput .pwrDiectlDeepest d 0 n
  if n < (s.die d).dst then s.startDieExit d 0 else s

/-- R264: a write of PWR_DIECTLd. -/
def execPwrDiectlWrite (q : Req) (d : Nat) (v : W64) (s : State) : Out := s.regWrite q .pwrDiectl d 0 v (fun s => s.limitDie d (bits v 0 2))

/-- R262: why a spill area is refused. -/
def State.spillReason (s : State) (c base : Nat) : Option Nat :=
  match s.corePart c with
  | none => some rNotPermitted
  | some p =>
    if !s.windowsHold p base (2 ^ 20) then some rNotPermitted
    else if !s.fired (base % 2 ^ 44 / 2 ^ 30) then some rPartMemNotFired
    else if s.inSpill base then some rMemRangeInvalid
    else none

/-- R262: a write of PWR_SPILLc: ignored in CS3; setting EN runs the check, and the area's lines are removed from every L2. -/
def State.spillPut (s : State) (c : Nat) (v : W64) : State :=
  if (s.core c).cst = .cs3 then s
  else if s.fget .pwrSpillEn c = 1 then s.fput .pwrSpillEn c 0 (bits v 0 1)
  else
    let s := s.fput .pwrSpillBase c 0 (bits v 20 32)
    if !bit v 0 then s
    else
      let base := bits v 20 32 * 2 ^ 20
      match s.spillReason c base with
      | some r => (s.fput .pwrReasonReason 0 0 r).fput .pwrReasonIndex 0 0 c
      | none => (s.fput .pwrSpillEn c 0 1).startRemoval (base / 64) (2 ^ 14)

/-- R262: a write of PWR_SPILLc. -/
def execPwrSpillWrite (q : Req) (c : Nat) (v : W64) (s : State) : Out := s.regWrite q .pwrSpill c 0 v (fun s => s.spillPut c v)

/-- R339 steps 1 and 2: a core reset begins: every context becomes EMPTY, nothing issues, and what is in the store buffer goes on draining. A core in
CS2 or CS3 first exits. `ex` is the partition the core leaves. -/
def State.startCoreReset (s : State) (c : Nat) (ex : Option Nat) : State :=
  let s := (s.core c).ctxs.foldl (fun s e => s.emptyCtx c e.1) s
  let s := s.modCore c (fun k => { k with rst := true, rstEnd := none, exPart := ex.orElse (fun _ => k.exPart), readyQ := [], walks := [], walkQ := []
                                          miss := k.miss.filter (fun m => m.sent), heap := [], watch := [], resv := [] })
  s.startExit c 0

/-- R141: HS_TRKCFG.GRANTED: the sum of the grants of all pairs, the same in every slice. -/
def State.showGrants (s : State) : State :=
  let sum := (s.regsOf .cdCrgrant).foldl (fun a e => a + bits e.2.2 0 13) 0
  (List.range 16).foldl (fun s n => s.fput .hsTrkcfgGranted n 0 sum) s

/-- R142: a (die, partition) pair ends once the partition holds no core on the die and the last of them has been reset. -/
def State.endPair (s : State) (d p : Nat) : State :=
  if (coresOf d).any (fun c => s.partHasCore p c || ((s.core c).rst && (s.core c).exPart == some p)) then s else (s.rput .cdCrgrant d p 0).showGrants

/-- R339 step 5: a core as its reset leaves it; the PWR_ registers and the clock go on. -/
def State.resetCore (s : State) (c : Nat) : State :=
  let ex := (s.core c).exPart
  let s := s.setCore c { cycBase := s.cyc c, cycRef := s.now, spill := (s.core c).spill, smpPi := (s.core c).smpPi }
  match ex with
  | some p => s.endPair (dieOf c) p
  | none => s

/-- R339: the reset of a core goes on: every response is awaited, the L2 is written back and emptied, every release acknowledged, and the context
store zeroed in 12,288 core cycles; then it is done. -/
def execCoreResetDone (core : Nat) (s : State) : Out :=
  let k := s.core core
  let out := !k.sb.isEmpty || !k.miss.isEmpty || s.fab.egress.any (fun m => m.core == core) ||
    s.fab.devs.any (fun d => match d.who with | .ctx c _ => c == core | .host => false | .kiln => false) ||
    s.home.ncDone.any (fun r => match r.agent with | .core c _ => c == core | _ => false) ||
    s.home.ncq.any (fun r => match r.agent with | .core c _ => c == core | _ => false)
  if !k.rst ∨ !k.clockOn ∨ out then .next s
  else if !k.l2.isEmpty then .next (s.flushL2 core)
  else if !k.evb.isEmpty then .next s
  else
    match k.rstEnd with
    | none => .next (s.setCore core { k with rstEnd := some (s.cyc core + 12288) })
    | some e => .next (if e ≤ s.cyc core then s.resetCore core else s)

end Sys2Proof.Machine
end

