-- ==== Sys2Proof/Machine/Package.lean ====
section
/-! DEFINITION. The package's power states: entry, wakes, exit and what waits for them (R260, R261, R265 to R275). -/

namespace Sys2Proof.Machine

/-- R267: the last entry step of a package state. -/
def lastStep (n : Nat) : Nat := if n = 0 then 0 else if n = 1 then 2 else if n = 2 then 5 else 6

/-- R267: the package state that a completed step leaves. -/
def stateOfStep (n : Nat) : Nat := if n ≤ 1 then 0 else if n ≤ 4 then 1 else if n = 5 then 2 else 3

/-- R267, R269: the package is in PS0 with no step done or in progress. -/
def State.inPs0 (s : State) : Bool :=
  decide (s.fget .pwrStatusState = 0) && decide (s.fget .pwrStatusStep = 0) && decide (s.pwr.step = 0)

/-- A PWR_SET_PACKAGE that waits replies. -/
def State.pkgReply (s : State) (status : Nat) (result : W64) : State :=
  match s.pwr.cmd with
  | none => s
  | some id => ({ s with pwr := { s.pwr with cmd := none } }).kreply id status result

/-- R266: HOLD set on every context not already held; a core in CS2 or CS3 takes it when it exits. -/
def State.holdAll (s : State) : State :=
  let cs := (s.cores.flatMap (fun e => (e.2.ctxs.filter (fun x => !x.2.hold && decide (x.2.st ≠ .empty))).map (fun x => e.1 * 1024 + x.1)))
  let s := { s with pwr := { s.pwr with held := cs } }
  let s := s.fput .pwrStatusHosthold 0 0 1
  cs.foldl (fun s h => if 2 ≤ (s.core (h / 1024)).cst.num then s else s.modCore (h / 1024) (fun k => k.setHold (h % 1024) true)) s

/-- R266: HOLD cleared on exactly the contexts the kiln held. -/
def State.unholdAll (s : State) : State :=
  let s' := s.pwr.held.foldl (fun s h => s.modCore (h / 1024) (fun k => k.setHold (h % 1024) false)) s
  ({ s' with pwr := { s'.pwr with held := [] } }).fput .pwrStatusHosthold 0 0 0

/-- R270, R275: PS0 is reached: holds go, and the routes of wake inputs fire once. -/
def State.reachPs0 (s : State) : State :=
  let s := s.unholdAll
  let rs := s.pwr.routeOnPs0
  let s := { s with pwr := { s.pwr with routeOnPs0 := [], woken := false, portsHeld := false, pattern := false } }
  rs.foldl (fun s r => s.fireRoute r) s

/-- R267, R271: what follows a step: the next one, an undoing step, or the state that was asked for. -/
def State.pkgNext (s : State) : State :=
  let have_ := s.fget .pwrStatusStep
  let want := if s.pwr.woken then 0 else lastStep s.pwr.target
  let s := s.fput .pwrStatusState 0 0 (stateOfStep have_)
  if have_ < want then
    let n := if have_ = 0 && s.fget .pwrStatusReq = 15 then 2 else have_ + 1
    let s := { s with pwr := { s.pwr with step := n, undo := false, portsHeld := s.pwr.portsHeld || decide (n = 3) } }
    let s := s.fput .pwrStatusExiting 0 0 0
    if n = 1 then s.holdAll else s
  else if want < have_ then
    let s := ({ s with pwr := { s.pwr with step := have_, undo := true } }).fput .pwrStatusExiting 0 0 1
    if have_ = 2 then (List.range 12).foldl (fun s d => if s.dieUp d then s.startDieExit d (8 * d * usTicks) else s) s else s
  else
    let s := ({ s with pwr := { s.pwr with step := 0, undo := false } }).fput .pwrStatusExiting 0 0 0
    let s := if want = 0 then s.reachPs0 else s
    s.pkgReply 0 (BitVec.ofNat 64 (stateOfStep have_))

/-- R270: a wake: its PEND bit, PS0 asked for, and the way back begins after the step in progress; E1 and E4 may be abandoned. -/
def State.wakePkg (s : State) (src port : Nat) : State :=
  let s := s.fput .pwrWakesrcPend 0 0 (s.fget .pwrWakesrcPend ||| 2 ^ src)
  let s := if src = 3 ∨ src = 4 then s.fput .pwrWakesrcPort 0 0 port else s
  let first := !s.pwr.woken
  let s := if s.fget .pwrStatusReq = 15 then s else s.fput .pwrStatusReq 0 0 0
  let s := { s with pwr := { s.pwr with woken := true, target := if s.fget .pwrStatusReq = 15 then s.pwr.target else 0 } }
  let s := s.pkgReply rPwrStateUnreachable 0
  let s := if first && decide (src ≠ 6) then
      { ((List.range 8).filter (fun q => q ≠ s.pkg && s.member q)).foldl (fun s q => s.krelaySend q (.wakeup s.pkg)) s with
        pwr := { s.pwr with pattern := decide (src ≠ 3) && decide (2 ≤ s.fget .pwrStatusState) } }
    else s
  if s.pwr.undo then s
  else if s.pwr.step = 1 ∨ s.pwr.step = 4 then ({ s with pwr := { s.pwr with step := 0 } }).pkgNext
  else if s.pwr.step = 0 then s.pkgNext
  else s

/-- R269: the package states in which a source acts; in PS0 none wakes the package, unless it is on its way into a state. -/
def State.wakeActs (s : State) (src : Nat) : Bool :=
  let n := if s.pwr.step = 0 then s.fget .pwrStatusState else max 1 (s.fget .pwrStatusState)
  let deep := decide (2 ≤ n) || decide (3 ≤ s.pwr.step)
  !s.inPs0 && bit (BitVec.ofNat 8 (s.fget .pwrWakecfgEn ||| 128)) src &&
    (if src = 3 then deep else if src = 4 then deep && decide (n ≤ 2) else decide (1 ≤ n))

/-- R275: the key of a source that may chatter: 0 a WAKE_IN, 1 a reel slot, 2 a root port. -/
def chatKey (kind idx : Nat) : Nat := kind * 32 + idx

/-- R275: whether a source is masked. -/
def State.masked (s : State) (kind idx : Nat) : Bool :=
  match kind with
  | 0 => bit (BitVec.ofNat 2 (s.fget .pwrWakesrcMasked)) idx
  | 1 => bit (BitVec.ofNat 10 (s.fget .pwrWakesrcRmask)) idx
  | _ => bit (BitVec.ofNat 20 (s.fget .pwrWakesrcPmask)) idx

/-- R275: a source masked or unmasked, and logged. -/
def State.setMasked (s : State) (kind idx : Nat) (on : Bool) : State :=
  let s := match kind with
    | 0 => s.fput .pwrWakesrcMasked 0 0 (setBit (BitVec.ofNat 2 (s.fget .pwrWakesrcMasked)) idx on).toNat
    | 1 => s.fput .pwrWakesrcRmask 0 0 (setBit (BitVec.ofNat 10 (s.fget .pwrWakesrcRmask)) idx on).toNat
    | _ => s.fput .pwrWakesrcPmask 0 0 (setBit (BitVec.ofNat 20 (s.fget .pwrWakesrcPmask)) idx on).toNat
  s.logEvent { cls := 1, event := 0x70, kind := 9, idx := idx, detail := if kind = 0 then 1 + idx else kind + 2 }

/-- R275: a wake event counted; more than CHAT_LIMIT in a second mask the source. -/
def State.chatEvent (s : State) (kind idx : Nat) : State :=
  let k := chatKey kind idx
  let (n, st, _) := Tab.get (0, 0, 0) s.pwr.chat k
  let fresh := decide (st + 1000000 * usTicks ≤ s.now) || decide (n = 0)
  let n' := if fresh then 1 else n + 1
  let s := { s with pwr := { s.pwr with chat := Tab.put (0, 0, 0) s.pwr.chat k (n', if fresh then s.now else st, s.now) } }
  if max 1 (s.fget .pwrWakecfgChatLimit) < n' ∧ !s.masked kind idx then s.setMasked kind idx true else s

/-- R269, R275: a wake event of a source: it wakes the package unless it is masked or does not act. -/
def State.wakeEvent (s : State) (src kind idx : Nat) : State :=
  let s := s.chatEvent kind idx
  if s.wakeActs src && !s.masked kind idx then s.wakePkg src idx else s

/-- R269, R270: a wake of the sources that have no row of their own: HOST, DEADLINE, PEER and a root port. -/
def execPackageWake (src port : Nat) (s : State) : Out :=
  if !s.wakeActs src then .next s
  else if src = 4 then .next (s.wakeEvent 4 2 port)
  else .next (s.wakePkg src port)

/-- R266 step 3: no context is in MISS and every store buffer has drained: E1 ends. -/
def execPkgQuiesceDone (s : State) : Out :=
  if s.pwr.step ≠ 1 ∨ s.pwr.undo then .next s
  else if s.cores.all (fun e => e.2.sb.isEmpty && e.2.ctxs.all (fun x => decide (x.2.st ≠ .miss) && (decide (x.2.st ≠ .active)))) then
    .next ((({ s with pwr := { s.pwr with step := 0 } }).fput .pwrStatusStep 0 0 1).pkgNext)
  else .next s

/-- R196: every rank enters self-refresh, its canaries written with the seed. -/
def State.selfRefresh (s : State) : State :=
  (List.range 16).foldl (fun s mc => (List.range (s.fget .mcCfgLranks mc)).foldl (fun s r =>
    { s with mem := { s.mem with ranks := Tab.ins s.mem.ranks (mc * 16 + r) { inSr := true, srClean := true, seed := s.tb } } }) s) s

/-- R197: a suspect bank, logged and reported. -/
def State.suspectBank (s : State) (mc sub rank bank : Nat) : State :=
  let s := s.rput .mcSuspect mc rank (setBit (s.rget .mcSuspect mc rank) (sub * 32 + bank) true)
  let s := s.logEvent { cls := 2, event := 0x14, kind := 4, idx := mc, detail := sub * 32 + bank + rank * 64 }
  s.notify none { tag := 0, status := rRetentionLost, result := BitVec.ofNat 64 (mc + sub * 16 + rank * 256 + bank * 65536), kind := 5 }

/-- R197: every bank of a rank is suspect. -/
def State.suspectRank (s : State) (mc rank : Nat) : State :=
  (List.range 64).foldl (fun s b => s.suspectBank mc (b / 32) rank (b % 32)) s

/-- R197: the check of the ranks that leave self-refresh. DESIGN CHOICE (log 24): with SR_CLEAN set the canaries decode as they were written; no
command tells of a canary that has decayed. -/
def State.wakeCheck (s : State) : State :=
  let bad := s.mem.ranks.filter (fun e => e.2.inSr && !e.2.srClean)
  let s := { s with mem := { s.mem with ranks := [], refired := [] } }
  bad.foldl (fun s e => s.suspectRank (e.1 / 16) (e.1 % 16)) s

/-- R267, E3: dirty MSC lines are written to DRAM and stay. -/
def State.cleanMsc (s : State) : State :=
  (s.home.msc.filter (fun e => e.2.d)).foldl (fun s e => (s.dramWrite e.1 e.2.data e.2.p).setMsc e.1 { e.2 with d := false }) s

/-- R267, E5: what the saggar tile and the home slices held is off; reel links are taken down, their presets kept. -/
def State.saggarOff (s : State) : State :=
  let s := { s with home := { s.home with msc := [], dirc := [] } }
  ((List.range 10).filter (fun k => decide (s.fget .reelStatState k = 2))).foldl (fun s k => s.fput .reelStatState k 0 5) s

/-- R272, PS2 exit: reel links retrain on their stored presets. -/
def State.saggarOn (s : State) : State :=
  ((List.range 10).filter (fun k => decide (s.fget .reelStatState k = 5) && decide (s.fget .reelStatPeerv k = 1) && decide (s.fget .reelStatReason k = 0) &&
      s.member (s.fget .reelStatPeer k))).foldl (fun s k =>
    (s.fput .reelStatState k 0 2).modRport k (fun p => { p with lastGood := s.fcyc, nextTx := s.fcyc })) s

/-- R267: the work of an entry step, or none where its condition does not hold yet. -/
def State.entryStep (s : State) : Option State :=
  match s.pwr.step with
  | 2 => if (List.range 12).all (fun d => !s.dieUp d || decide ((s.die d).dst = 2)) then some s else none
  | 3 => some s.cleanMsc
  | 4 => some s.selfRefresh
  | 5 => some s.saggarOff
  | 6 => some ((List.range 20).foldl (fun s n => if [2, 3, 4].contains (s.fget .rptStatState n) then s.fput .rptStatState n 0 5 else s) s)
  | _ => none

/-- R267: an entry step ends. -/
def execPkgEntryStepDone (s : State) : Out :=
  if s.pwr.undo ∨ s.pwr.step < 2 then .next s
  else
    match s.entryStep with
    | none => .next s
    | some s' => .next ((({ s' with pwr := { s'.pwr with step := 0 } }).fput .pwrStatusStep 0 0 s.pwr.step).pkgNext)

/-- R267, R272: the work of an undoing step, or none where its condition does not hold yet. -/
def State.exitStep (s : State) : Option State :=
  match s.pwr.step with
  | 2 => if (List.range 12).all (fun d => !s.dieUp d || decide ((s.die d).dst = 0)) then some s else none
  | 3 => some { s with pwr := { s.pwr with portsHeld := false } }
  | 4 => some s.wakeCheck
  | 5 => some s.saggarOn
  | 6 => some ((List.range 20).foldl (fun s n =>
      if s.fget .rptStatState n = 5 ∧ s.fget .rptCtlEn n = 1 then s.fput .rptStatState n 0 2 else s) s)
  | _ => some s

/-- R272: a stage of the package's exit completes. -/
def execPkgExitStepDone (s : State) : Out :=
  if !s.pwr.undo then .next s
  else
    match s.exitStep with
    | none => .next s
    | some s' =>
      let n := s.pwr.step
      let below := if n = 2 ∧ s.fget .pwrStatusHosthold = 0 then 0 else n - 1
      .next ((({ s' with pwr := { s'.pwr with step := 0, undo := false } }).fput .pwrStatusStep 0 0 below).pkgNext)

/-- R266: why PWR_SET_PACKAGE to a state deeper than PS0 is refused. -/
def State.pkgUnreachable (s : State) (c : KCmd) (n : Nat) : Bool :=
  (List.range 240).any (fun x => s.dieUp (dieOf x) && (decide (s.fget .pwrCorectlDeepest x < 3) ||
      ((s.core x).ctxs.any (fun e => decide (e.2.st ≠ .empty)) && decide (s.fget .pwrSpillEn x = 0)))) ||
    (List.range 12).any (fun d => s.dieUp d && decide (s.fget .pwrDiectlDeepest d < 2)) ||
    (List.range 2).any (fun i => bit s.pwr.wakeHigh i && bit (BitVec.ofNat 8 (s.fget .pwrWakecfgEn)) (1 + i) &&
      !bit (BitVec.ofNat 2 (s.fget .pwrWakesrcStuck)) i) ||
    (decide (2 ≤ n) && decide (2 ≤ s.npkg) && decide (pktTarget c.pkt ≠ 0xFF))

/-- R265, R266, R270, R271: PWR_SET_PACKAGE. DEDUCED (log 25): AUTO replies once PS0 is reached, from where it chooses. -/
def execPwrSetPackage (id : Nat) (s : State) : Out :=
  s.krun id 0x0200 (fun c s =>
    let a := bits (c.p 0) 0 4
    let n := if a = 15 then 0 else a
    if 4 ≤ a ∧ a ≠ 15 then s.kreply id rBadParameter
    else if 1 ≤ n ∧ s.pkgUnreachable c n then s.kreply id rPwrStateUnreachable
    else
      let s := s.pkgReply rSuperseded 0
      let s := s.fput .pwrStatusReq 0 0 (if a = 15 ∧ !s.hwMode 2 then 0 else a)
      let s := { s with pwr := { s.pwr with cmd := some id, target := n } }
      let s := s.krunning id 0
      if n = 0 ∧ !s.inPs0 then
        let s := s.fput .pwrWakesrcPend 0 0 (s.fget .pwrWakesrcPend ||| 1)
        if s.pwr.step = 0 ∨ (!s.pwr.undo ∧ s.pwr.step = 1) then ({ s with pwr := { s.pwr with step := 0 } }).pkgNext else s
      else if s.pwr.step = 0 then s.pkgNext
      else s)

/-- R264: T of the package. -/
def State.pkgT (s : State) : Option Nat := (List.range 12).foldl (fun t d => if s.dieUp d then tMin t (s.dieT d) else t) none

/-- R265: the state the package would choose. -/
def State.autoChoice (s : State) : Nat :=
  let isot := (List.range 64).any (fun p => s.isot p && decide (s.partState p = 2))
  let high := (List.range 2).any (fun i => bit s.pwr.wakeHigh i && bit (BitVec.ofNat 8 (s.fget .pwrWakecfgEn)) (1 + i) &&
      !bit (BitVec.ofNat 2 (s.fget .pwrWakesrcStuck)) i)
  let p1 := !isot && !high && (List.range 12).all (fun d => !s.dieUp d || decide ((s.die d).dst = 2))
  let p2 := p1 && (s.regsOf .dmaChstat).all (fun e => decide (bits e.2.2 32 3 ≤ 1)) &&
    (List.range 20).all (fun n => [0, 1, 4, 5].contains (s.fget .rptStatState n))
  let p3 := p2 && (List.range 20).all (fun n => [0, 1, 5].contains (s.fget .rptStatState n))
  let t := s.pkgT
  if p3 && tMeets t 100000000 then 3 else if p2 && tMeets t 10000000 then 2 else if p1 && tMeets t 1000000 then 1 else 0

/-- R265, R267: entry of a state under AUTO begins. -/
def State.autoEnter (s : State) (n : Nat) : State :=
  if n = 0 ∨ !s.inPs0 ∨ s.fget .pwrStatusReq ≠ 15 ∨ !s.hwMode 2 then s else ({ s with pwr := { s.pwr with target := n } }).pkgNext

/-- R268: the lead has a choice of every member: each is told the shallowest. -/
def State.gatherChoices (s : State) : State :=
  let ms := (List.range 8).filter (fun q => s.member q)
  if ms.all (fun q => s.pwr.choices.any (fun (c : Nat × Nat) => c.1 == q)) then
    let n := s.pwr.choices.foldl (fun m (c : Nat × Nat) => min m c.2) 3
    let s := { s with pwr := { s.pwr with choices := [] } }
    let s := (ms.filter (· != s.pkg)).foldl (fun s q => s.krelaySend q (.powerTo n)) s
    s.autoEnter n
  else s

/-- R268: a member's choice at the lead. -/
def State.takeChoice (s : State) (q n : Nat) : State :=
  ({ s with pwr := { s.pwr with choices := s.pwr.choices.filter (fun (c : Nat × Nat) => c.1 != q) ++ [(q, n)] } }).gatherChoices

/-- R265, R268: under AUTO in HW mode the package makes its choice; PS2 and PS3 of a system are entered together. -/
def execPkgAutoEntry (s : State) : Out :=
  let s := s.fput .pwrStatusIsothold 0 0
    (b2n (decide (s.fget .pwrStatusReq = 15) && (List.range 64).any (fun p => s.isot p && decide (s.partState p = 2))))
  if s.fget .pwrStatusReq ≠ 15 ∨ !s.hwMode 2 ∨ !s.inPs0 ∨ s.pwr.woken then .next s
  else
    let n := s.autoChoice
    if s.npkg ≤ 1 ∨ n ≤ 1 then .next (s.autoEnter n)
    else if s.fget .reelSysLead = s.pkg then .next (s.takeChoice s.pkg n)
    else .next (s.krelaySend (s.fget .reelSysLead) (.choice s.pkg n))

/-- R264: exit latencies of a core, a die or the package, in ticks of the time base. -/
def State.exitLatency (s : State) (level idx : Nat) : Nat :=
  match level with
  | 0 => if (s.core idx).cst = .cs1 then 3 else if (s.core idx).cst = .cs2 then 200 else 4000
  | 1 => if (s.die idx).dst = 1 then 100 else 20000
  | _ => if s.fget .pwrStatusState = 1 then 30000 else if s.fget .pwrStatusState = 2 then 500000 else 5000000

/-- R264, R269: a core, die or package that sleeps starts its exit at the deadline less its exit latency. -/
def execDeadlinePrewake (level idx : Nat) (s : State) : Out :=
  let t := match level with | 0 => s.coreT idx | 1 => s.dieT idx | _ => s.pkgT
  match t with
  | none => .next s
  | some v =>
    if s.exitLatency level idx < v then .next s
    else
      match level with
      | 0 => .next (s.startExit idx 0)
      | 1 => .next (s.startDieExit idx 0)
      | _ => .next (if s.wakeActs 5 then s.wakePkg 5 0 else s)

/-- R274: the reel wake pattern: 8 bursts of a period of 2 µs ± 0.25 µs. -/
def execReelWakePattern (k bursts periodNs : Nat) (s : State) : Out :=
  .next (if 8 ≤ bursts ∧ 1750 ≤ periodNs ∧ periodNs ≤ 2250 ∧ bit s.kiln.cfg.reelMask k then s.wakeEvent 3 1 k else s)

/-- R269, R270, R275: a wake input has changed, after filtering. -/
def execWakeInChange (i : Nat) (high : Bool) (s : State) : Out :=
  if bit s.pwr.wakeHigh i = high then .next s
  else
    let s := { s with pwr := { s.pwr with wakeHigh := setBit s.pwr.wakeHigh i high, wakeSince := Tab.put 0 s.pwr.wakeSince i s.now } }
    if !high then .next s
    else if s.inPs0 then .next ((s.chatEvent 0 i).fireRoute (426 + i))
    else
      let s := { s with pwr := { s.pwr with routeOnPs0 := if s.pwr.routeOnPs0.contains (426 + i) then s.pwr.routeOnPs0 else s.pwr.routeOnPs0 ++ [426 + i] } }
      .next (if bit (BitVec.ofNat 2 (s.fget .pwrWakesrcStuck)) i then s.chatEvent 0 i else s.wakeEvent (1 + i) 0 i)

/-- R275: STUCK set or cleared, and logged. -/
def State.setStuck (s : State) (i : Nat) (on : Bool) : State :=
  (s.fput .pwrWakesrcStuck 0 0 (setBit (BitVec.ofNat 2 (s.fget .pwrWakesrcStuck)) i on).toNat).logEvent
    { cls := 1, event := 0x70, kind := 9, idx := i, detail := 1 + i }

/-- R275: an input asserted for 1 s is STUCK. -/
def execWakeInStuck (i : Nat) (s : State) : Out :=
  .next (if bit s.pwr.wakeHigh i && !bit (BitVec.ofNat 2 (s.fget .pwrWakesrcStuck)) i && decide (Tab.get 0 s.pwr.wakeSince i + 1000000 * usTicks ≤ s.now)
    then s.setStuck i true else s)

/-- R275: a STUCK input deasserted for 10 ms is STUCK no longer. -/
def execWakeInUnstuck (i : Nat) (s : State) : Out :=
  .next (if !bit s.pwr.wakeHigh i && bit (BitVec.ofNat 2 (s.fget .pwrWakesrcStuck)) i && decide (Tab.get 0 s.pwr.wakeSince i + 10000 * usTicks ≤ s.now)
    then s.setStuck i false else s)

/-- R275: a masked source has had no event for a full second. -/
def execWakeMaskExpiry (kind idx : Nat) (s : State) : Out :=
  .next (if s.masked kind idx && decide ((Tab.get (0, 0, 0) s.pwr.chat (chatKey kind idx)).2.2 + 1000000 * usTicks ≤ s.now)
    then s.setMasked kind idx false else s)

/-- R273: a ready signal that does not come in time: 0 PG of a die's rail, 1 LOCK or MRDY of a die or any stage of a core, 2 slip training of a die,
3 a stage of the I/O die or saggar tile, 4 a rank of a channel (channel × 16 + rank), 5 training of a reel slot. -/
def execRestoreReadyTimeout (what idx : Nat) (s : State) : Out :=
  let leaving := fun (d : Nat) => (s.die d).exitDue.isSome || (coresOf d).any (fun c => (s.core c).exitDue.isSome)
  match what with
  | 0 => .next (if s.dieUp idx && leaving idx then s.fenceDie idx 5 else s)
  | 1 => .next (if s.dieUp idx && leaving idx then s.fenceDie idx 6 else s)
  | 2 => .next (if s.dieUp idx && leaving idx then s.fenceDie idx 3 else s)
  | 3 =>
    if !s.pwr.undo then .next s
    else
      let s := { s with pwr := { s.pwr with step := 0, undo := false } }
      .next (((s.fput .pwrStatusExiting 0 0 0).pkgReply rTimeout 0).fatal 7 9 idx)
  | 4 => .next (if (Tab.find s.mem.ranks idx).isSome then
      ({ s with mem := { s.mem with ranks := Tab.del s.mem.ranks idx } }).suspectRank (idx / 16) (idx % 16) else s)
  | _ => .next (if s.pwr.undo && decide (s.fget .reelStatState idx = 5) then
      let q := s.fget .reelStatPeer idx
      let s := (s.fput .reelStatState idx 0 4).fput .reelStatReason idx 0 rLinkTrainFailed
      if (s.bundle q).isEmpty then s.bundleFailed q else s
    else s)

end Sys2Proof.Machine
end

