-- ==== Sys2Proof/Machine/Endpoint.lean ====
section
/-! DEFINITION. The control endpoint: configuration space, interrupts, rings, reads and their errors, replies and notices, resets and link power
(R237, R238, R240, R242, R243, R282 to R301). -/

namespace Sys2Proof.Machine

/-- R283: a doubleword of configuration space as reset leaves it, where the value is fixed. PRESUMED (log 29): Device Control, Link Control 2 and the AER
masks and severities, as the PCIe specification has them. -/
def cfgReset (off : Nat) : Nat :=
  match off with
  | 0x00 => 0x2416AE5C
  | 0x04 => 0x00100000
  | 0x10 => 0x4
  | 0x18 => 0x4
  | 0x34 => 0x40
  | 0x3C => 0x100
  | 0x40 => 0xC0035001
  | 0x44 => 0x8
  | 0x50 => 0x0002A010
  | 0x54 => 0x10008922
  | 0x58 => 0x2000
  | 0x5C => 0x00413C45
  | 0x74 => 0x0001001F
  | 0x7C => 0x3E
  | 0x80 => 0x5
  | 0xA0 => 0x003F0011
  | 0xA4 => 0x2000
  | 0xA8 => 0x3000
  | 0x100 => 0x14820001
  | 0x10C => 0x00462030
  | 0x114 => 0x2000
  | 0x148 => 0x15810003
  | 0x158 => 0x0000000B
  | 0x15C => 0x01810001
  | _ => 0

/-- R283: the bits of a doubleword that a write sets. -/
def cfgRw (off : Nat) : Nat :=
  match off with
  | 0x04 => 0x0546
  | 0x0C => 0xFF
  | 0x10 => 0xFFF00000
  | 0x14 => 0xFFFFFFFF
  | 0x18 => 0xFF000000
  | 0x1C => 0xFFFFFFFF
  | 0x3C => 0xFF
  | 0x44 => 0x0100
  | 0x58 => 0x70FF
  | 0x60 => 0x00CB
  | 0x78 => 0x1F
  | 0x80 => 0xF
  | 0xA0 => 0xC0000000
  | 0x108 => 0x007FF030
  | 0x10C => 0x007FF030
  | 0x114 => 0x0000F1C1
  | _ => 0

/-- R283: the bits of a doubleword that a write of 1 clears. -/
def cfgW1c (off : Nat) : Nat :=
  match off with
  | 0x04 => 0xF9000000
  | 0x44 => 0x8000
  | 0x58 => 0x000F0000
  | 0x104 => 0x007FF030
  | 0x110 => 0x0000F1C1
  | _ => 0

/-- A doubleword of configuration space as stored. -/
def State.cfgW (s : State) (off : Nat) : BitVec 32 := Tab.get (BitVec.ofNat 32 (cfgReset off)) s.ep.cfg (off / 4)

/-- A doubleword of configuration space stored. -/
def State.setCfg (s : State) (off : Nat) (v : BitVec 32) : State :=
  { s with ep := { s.ep with cfg := Tab.put (BitVec.ofNat 32 (cfgReset off)) s.ep.cfg (off / 4) v } }

/-- R283: Bus Master Enable. -/
def State.bme (s : State) : Bool := bit (s.cfgW 0x04) 2

/-- R284: PowerState is D3hot. -/
def State.d3 (s : State) : Bool := bits (s.cfgW 0x44) 0 2 == 3

/-- R284, R285, R298: BAR accesses reach the endpoint: Memory Space Enable, D0, a link, and no FLR in progress. -/
def State.barOn (s : State) : Bool :=
  bit (s.cfgW 0x04) 1 && !s.d3 && !s.ep.perst && decide (s.ep.link ≠ 0) && decide (s.ep.link ≠ 4) && s.ep.cfgHeld.isNone

/-- R297, R284, R299: the endpoint may send requests to the host. -/
def State.hostOn (s : State) : Bool := s.bme && !s.d3 && !s.ep.perst && decide (s.ep.link ≠ 0) && decide (s.ep.link ≠ 4)

/-- R300: traffic brings the link back to L0 and restarts its idle time. -/
def State.epUse (s : State) : State :=
  { s with ep := { s.ep with link := if s.ep.link = 2 ∨ s.ep.link = 3 then 1 else s.ep.link, idleSince := s.now } }

/-- R301: WAKE# is asserted in L2 or under PERST# while PME_En and PME_Status are 1, and released as the rule says. -/
def State.showWake (s : State) : State :=
  let pm := s.cfgW 0x44
  let drive := (decide (s.ep.link = 4) || s.ep.perst) && bit pm 8 && bit pm 15
  let free := !bit pm 15 || (!s.ep.perst && decide (s.ep.link = 1))
  { s with pins := { s.pins with wakeN := !free && (s.pins.wakeN || drive) } }

/-- R295: an AER uncorrectable error's status bit. -/
def State.aer (s : State) (b : Nat) : State := s.setCfg 0x104 (setBit (s.cfgW 0x104) b true)

/-- EP_ISTAT and EP_IEN: the events that stand and are enabled. -/
def State.epPending (s : State) : Nat := (s.rget .epIstat).toNat &&& (s.fget .epIenEn &&& 0x30F0F)

/-- R293: the interrupt mode is INTx emulation, and its level follows. -/
def State.showIntx (s : State) : State :=
  let on := decide (s.epPending ≠ 0)
  let s := s.setCfg 0x04 (setBit (s.cfgW 0x04) 19 on)
  let mode := !bit (s.cfgW 0xA0) 31 && !bit (s.cfgW 0x04) 10
  if s.d3 then s else { s with ep := { s.ep with intx := on && mode } }

/-- R285: a doubleword of the MSI-X table. PRESUMED (log 29): every vector's Mask bit resets to 1, as the PCIe specification has it. -/
def State.msixW (s : State) (i : Nat) : BitVec 32 := Tab.get (if i % 4 = 3 then 1 else 0) s.ep.msix i

/-- A doubleword of the MSI-X table written. -/
def State.setMsixW (s : State) (i : Nat) (v : BitVec 32) : State :=
  { s with ep := { s.ep with msix := Tab.put (if i % 4 = 3 then 1 else 0) s.ep.msix i v } }

/-- R293: a pending MSI-X vector is sent unless something holds it. -/
def State.sendVec (s : State) (v : Nat) : State :=
  let e := fun i => s.msixW (v * 4 + i)
  if !bit s.ep.pba v ∨ !bit (s.cfgW 0xA0) 31 ∨ bit (s.cfgW 0xA0) 30 ∨ bit (e 3) 0 ∨ !s.hostOn then s
  else
    let a : W64 := (e 0).zeroExtend 64 + (e 1).zeroExtend 64 * 2 ^ 32
    ({ s with ep := { s.ep with pba := setBit s.ep.pba v false, sent := s.ep.sent ++ [(a, e 2)] } }).epUse

/-- R293, R297: every pending vector that nothing holds any more is sent. -/
def State.sendVecs (s : State) : State :=
  if s.ep.pba = 0 then s else (List.range 64).foldl (fun s v => s.sendVec v) s

/-- R293: the vector of an event bit. -/
def State.vecOfBit (s : State) (b : Nat) : Nat :=
  if b < 4 then s.fget .epRingctlRvec b else if 8 ≤ b ∧ b < 12 then s.fget .epRingctlFvec (b - 8) else s.fget .epIenEvec

/-- R284: an event that would raise an interrupt in D3hot sets PME_Status; with PME_En, PM_PME is sent or WAKE# asserted. -/
def State.pmeEvent (s : State) : State :=
  let pm := s.cfgW 0x44
  let s := s.setCfg 0x44 (setBit pm 15 true)
  if bit pm 8 ∧ !s.ep.perst ∧ s.ep.link ≠ 4 ∧ s.ep.link ≠ 0 then { s with ep := { s.ep with pmeSent := true } } else s.showWake

/-- R293: an event sets its bit of EP_ISTAT and, enabled and new, interrupts by the mode. -/
def State.epEvent (s : State) (b : Nat) : State :=
  let old := s.rget .epIstat
  let fresh := !bit old b && bit (BitVec.ofNat 18 (s.fget .epIenEn)) b
  let s := s.rput .epIstat 0 0 (setBit old b true)
  let s := if s.d3 ∧ fresh then s.pmeEvent else s
  let s := if fresh && bit (s.cfgW 0xA0) 31 then
      let v := s.vecOfBit b
      ({ s with ep := { s.ep with pba := setBit s.ep.pba v true } }).sendVec v
    else s
  s.showIntx.epUse

/-- R293: MSI-X Enable set makes the vectors of set and enabled events pending; cleared, it clears the PBA. -/
def State.msixMode (s : State) (on : Bool) : State :=
  let s := s.setCfg 0xA0 (setBit (s.cfgW 0xA0) 31 on)
  let s := if !on then { s with ep := { s.ep with pba := 0 } }
    else
      let vs := ((List.range 18).filter (fun b => s.epPending / 2 ^ b % 2 == 1)).map (fun b => s.vecOfBit b)
      { s with ep := { s.ep with pba := vs.foldl (fun w v => setBit w v true) s.ep.pba } }
  s.sendVecs.showIntx

/-- R293: a write of MSI-X Enable that changes it. -/
def execMsixEnableChange (on : Bool) (s : State) : Out :=
  .next (if bit (s.cfgW 0xA0) 31 = on ∨ s.ep.perst then s else s.msixMode on)

/-- R293: the Function Mask (none) or a vector's Mask is cleared, and what was held is sent. -/
def execMsixUnmask (vec : Option Nat) (s : State) : Out :=
  match vec with
  | none => .next (s.setCfg 0xA0 (setBit (s.cfgW 0xA0) 30 false)).sendVecs
  | some v =>
    if v < 64 ∧ s.barOn then
      .next (s.setMsixW (v * 4 + 3) (setBit (s.msixW (v * 4 + 3)) 0 false)).sendVecs
    else .next s

/-- An endpoint ring. -/
def State.ring (s : State) (r : Nat) : EpRing := Tab.get {} s.ep.rings r

/-- A ring changed. -/
def State.modRing (s : State) (r : Nat) (f : EpRing → EpRing) : State :=
  { s with ep := { s.ep with rings := Tab.put {} s.ep.rings r (f (s.ring r)) } }

/-- EP_RINGSTATr.STATE: 0 DISABLED, 1 RUNNING, 2 FAULT, 3 DRAINING. -/
def State.ringState (s : State) (r : Nat) : Nat := s.fget .epRingstatState r

/-- R294: reads outstanding of a ring, and the registers' counts. -/
def State.ringReads (s : State) (r : Nat) : Nat := (s.ep.reads.filter (fun x => x.ring == r && !x.quar)).length

/-- EP_STATUS, TAGS and Transactions Pending follow the reads; a ring that drains is DISABLED once it has none (R296). -/
def State.showReads (s : State) : State :=
  let s := (s.fput .epStatusBusy 0 0 (s.ep.reads.filter (fun x => !x.quar)).length).fput .epStatusQuar 0 0 (s.ep.reads.filter (fun x => x.quar)).length
  let s := s.setCfg 0x58 (setBit (s.cfgW 0x58) 21 (s.ep.reads.any (fun x => !x.quar)))
  (List.range 4).foldl (fun s r =>
    let s := s.fput .epRingstatTags r 0 (s.ringReads r)
    if s.ringState r = 3 ∧ s.ringReads r = 0 then s.fput .epRingstatState r 0 0 else s) s

/-- R238: units of the reply ring that are free; one unit stays unused, so that a full ring differs from an empty one (DEDUCED, log 30). -/
def State.replyRoom (s : State) (r : Nat) : Nat :=
  let n := 2 ^ s.fget .epRingctlRk r
  n - 1 - (s.fget .epRrpiIndex r + n - s.fget .epRrciIndex r % n) % n

/-- R238: a reply of a ring waits for room, so nothing further is fetched from it. -/
def State.ringHeld (s : State) (r : Nat) : Bool :=
  match s.kiln.replies.find? (fun p => decide (p.src = .ring r)) with
  | some p => decide (s.replyRoom r < p.pkt.length)
  | none => false

/-- R290: units of a ring that may be requested now by one read: up to S bytes, not across a multiple of S or the ring's end. -/
def State.readLen (s : State) (r : Nat) : Nat :=
  let k := 2 ^ s.fget .epRingctlCk r
  let u := (s.ring r).reqd % k
  let avail := (s.fget .epCrpiIndex r + k - u) % k
  let mrrs := min 512 (128 * 2 ^ bits (s.cfgW 0x58) 12 3) / 8
  min avail (min (mrrs - u % mrrs) (k - u))

/-- R290, R295, R297: a ring may read. -/
def State.mayRead (s : State) (r : Nat) : Bool :=
  decide (s.ringState r = 1) && s.hostOn && !s.ringHeld r && decide (s.ringReads r < 8) && decide (0 < s.readLen r)

/-- R290: one read is issued: the next ring in rotation that has one to make takes the lowest free tag. -/
def State.issueRead (s : State) : State :=
  let tag := (List.range 32).find? (fun t => !s.ep.reads.any (fun x => x.tag == t))
  let r := ((List.range 4).map (fun i => (s.ep.turn + i) % 4)).find? (fun r => s.mayRead r)
  match tag, r with
  | some t, some r =>
    let n := s.readLen r
    let x : EpRead := { tag := t, ring := r, unit := (s.ring r).reqd, n := n, issued := s.now }
    let s := s.modRing r (fun g => { g with reqd := g.reqd + n })
    { s with ep := { s.ep with reads := s.ep.reads ++ [x], turn := (r + 1) % 4 } }
  | _, _ => s

/-- R290: every read that may be issued is issued. -/
def State.fetchRings (s : State) : State :=
  if (List.range 4).any (fun r => s.mayRead r) then ((List.range 32).foldl (fun s _ => s.issueRead) s).showReads.epUse else s

/-- R294, R295: a ring faults: it fetches nothing more. -/
def State.ringFault (s : State) (r reason unit : Nat) : State :=
  if s.ringState r ≠ 1 then s
  else
    let s := (s.fput .epRingstatState r 0 2).fput .epRingstatReason r 0 reason
    (s.modRing r (fun g => { g with gap := some unit, got := g.got.filter (fun e => decide (e.1 < unit)) })).epEvent (8 + r)

/-- R261, R269: a command that the package's state does not serve wakes it (HOST). -/
def State.hostWake (s : State) (op : Nat) : State :=
  if decide (2 ≤ s.fget .pwrStatusState) && !servedAsleep op && s.wakeActs 0 then s.wakePkg 0 0 else s

/-- R244, R261: a packet received by the kiln from a source. -/
def State.kreceive (s : State) (src : KSrc) (pkt : List W64) : State := (s.hostWake (pktOp pkt)).kaccept src pkt

/-- R254, R340, R342: the kiln takes packets now: no firmware switch is in progress. -/
def State.kilnOpen (s : State) : Bool := s.kiln.fwSwitch.isNone && !s.kiln.aonHeld && decide (3 ≤ s.fget .glbBootstatStage)

/-- R290: the next packet of a ring, once every unit of it is there; a bad LENGTH faults the ring. -/
def State.passOne (s : State) (r : Nat) : State :=
  let g := s.ring r
  match Tab.find g.got g.ci with
  | none => s
  | some h =>
    let n := bits h 32 16
    if !s.kilnOpen then s
    else if n < 2 ∨ 64 < n ∨ 2 ^ s.fget .epRingctlCk r < n then s.ringFault r rBadLength g.ci
    else
      let us := (List.range n).map (fun i => Tab.find g.got (g.ci + i))
      if us.any (fun u => u.isNone) then s
      else
        let s := s.modRing r (fun g => { g with ci := g.ci + n, got := g.got.filter (fun e => decide (g.ci + n ≤ e.1)) })
        (s.fput .epCrciIndex r 0 ((g.ci + n) % 2 ^ s.fget .epRingctlCk r)).kreceive (.ring r) (us.map (fun u => u.getD 0))

/-- R290: packets pass to the kiln in order. -/
def State.passPackets (s : State) (r : Nat) : State :=
  if (s.ringState r = 1 ∨ s.ringState r = 2) then (List.range ((s.ring r).got.length / 2 + 1)).foldl (fun s _ => s.passOne r) s else s

/-- R294: the ring reason and the AER bit of a completion that is not OK. -/
def cplFault (st : CplStat) : Nat × Option Nat :=
  match st with
  | .ok => (0, none)
  | .ep => (rPoisoned, some 12)
  | .ur => (rDeviceError, none)
  | .ca => (rDeviceError, none)
  | .crs => (rDeviceError, none)

/-- R294: a UR or CA received shows in Status: Received Master Abort, Received Target Abort. -/
def State.cplStatus (s : State) (st : CplStat) : State :=
  match st with
  | .ur => s.setCfg 0x04 (setBit (s.cfgW 0x04) 29 true)
  | .ca => s.setCfg 0x04 (setBit (s.cfgW 0x04) 28 true)
  | .ok => s
  | .ep => s
  | .crs => s

/-- R290, R294 to R296: a read completion: its units fill the ring and whole packets pass; any other outcome faults the ring; one for a quarantined or free
tag is discarded. -/
def execRingReadCompletion (tag : Nat) (st : CplStat) (units : List W64) (s : State) : Out :=
  if s.ep.perst ∨ s.ep.link = 0 then .next s
  else
    match s.ep.reads.find? (fun x => x.tag == tag) with
    | none => .next (s.aer 16)
    | some x =>
      let s := { s with ep := { s.ep with reads := s.ep.reads.erase x } }
      if x.quar then
        let s := s.fbump .epStatusLate 0 0
        .next (if x.silent then s else s.aer 16).showReads.fetchRings
      else
        let g := s.ring x.ring
        let keep := (s.ringState x.ring == 1 || s.ringState x.ring == 2) && (match g.gap with | some u => decide (x.unit < u) | none => true)
        if st = .ok ∧ units.length = x.n then
          let s := if keep then s.modRing x.ring (fun g => { g with got := (List.range x.n).foldl (fun t i => Tab.ins t (x.unit + i) (units.getD i 0)) g.got })
            else s
          .next (s.showReads.passPackets x.ring).fetchRings
        else
          let (reason, a) := cplFault st
          let s := s.cplStatus st
          let s := match a with
            | some b => s.aer b
            | none => s
          .next ((s.ringFault x.ring (if reason = 0 then rDeviceError else reason) x.unit).showReads).fetchRings

/-- R294: the completion timeout in ticks; none while it is disabled. -/
def State.cplTimeout (s : State) : Option Nat :=
  let v := s.cfgW 0x78
  if bit v 4 then none
  else
    let us := match bits v 0 4 with
      | 1 => 100
      | 2 => 10000
      | 5 => 55000
      | 6 => 210000
      | 9 => 900000
      | 10 => 3500000
      | 13 => 13000000
      | 14 => 64000000
      | _ => 50000
    some (us * usTicks)

/-- R294: a read times out: its tag is quarantined and its ring faults. -/
def execRingReadTimeout (tag : Nat) (s : State) : Out :=
  match s.ep.reads.find? (fun x => x.tag == tag && !x.quar), s.cplTimeout with
  | some x, some t =>
    if s.now < x.issued + t then .next s
    else
      let s := { s with ep := { s.ep with reads := s.ep.reads.map (fun y => if y = x then { y with quar := true } else y) } }
      .next (((s.aer 14).ringFault x.ring rTimeout x.unit).epEvent 17).showReads
  | _, _ => .next s

/-- R289: the rings of an enabled or enabling pair: base and bytes. -/
def State.ringAreas (s : State) (r : Nat) : List (Nat × Nat) :=
  [(s.fget .epCrbaseBase r * 4096, 8 * 2 ^ s.fget .epRingctlCk r), (s.fget .epRrbaseBase r * 4096, 8 * 2 ^ s.fget .epRingctlRk r)]

/-- R289: why a ring pair's enable is refused. -/
def State.ringReason (s : State) (r : Nat) : Option Nat :=
  let ck := s.fget .epRingctlCk r
  let rk := s.fget .epRingctlRk r
  let mine := s.ringAreas r
  let others := ((List.range 4).filter (fun q => q != r && s.fget .epRingctlEn q == 1)).flatMap (fun q => s.ringAreas q)
  let hit := fun (a b : Nat × Nat) => decide (a.1 < b.1 + b.2) && decide (b.1 < a.1 + a.2)
  if s.ringState r = 3 then some rBusyDraining
  else if ck < 9 ∨ 17 < ck ∨ rk < 9 ∨ 17 < rk then some rEpRingSize
  else if mine.any (fun a => a.1 % a.2 != 0 || decide (2 ^ 64 < a.1 + a.2) || others.any (hit a)) || hit (mine.getD 0 (0, 0)) (mine.getD 1 (0, 0)) then
    some rEpRingBaseInvalid
  else if !s.bme then some rEpBmeClear
  else none

/-- R237, R296: the replies of a closed ring's commands are discarded, those held and those to come (of ring 4, which is none). -/
def State.dropReplies (s : State) (r : Nat) : State :=
  { s with kiln := { s.kiln with
      replies := s.kiln.replies.filter (fun p => p.src != .ring r)
      cmds := s.kiln.cmds.map (fun c => if c.src = .ring r then { c with src := .ring 4 } else c) } }

/-- R296: a ring pair's EN cleared. -/
def State.ringOff (s : State) (r : Nat) : State :=
  let s := (s.fput .epRingctlEn r 0 0).modRing r (fun _ => {})
  ((s.fput .epRingstatState r 0 3).dropReplies r).showReads

/-- R289, R296: EP_RINGCTLr written: its fields while EN reads 0, then the enable with its check; or the disable. -/
def State.ringPut (s : State) (r : Nat) (v : W64) : State :=
  if s.fget .epRingctlEn r = 1 then if bit v 0 then s else s.ringOff r
  else
    let s := s.rwrite .epRingctl r 0 (setBit v 0 false)
    if !bit v 0 then s
    else
      match s.ringReason r with
      | some e => (s.fput .epReasonReason 0 0 e).fput .epReasonRing 0 0 r
      | none =>
        let s := (((s.rput .epCrpi r 0 0).rput .epCrci r 0 0).rput .epRrpi r 0 0).rput .epRrci r 0 0
        ((s.fput .epRingctlEn r 0 1).fput .epRingstatState r 0 1).modRing r (fun _ => {})

/-- R289: a host write of EP_RINGCTLr that sets EN. -/
def execRingEnable (r : Nat) (v : W64) (s : State) : Out := .next (if r < 4 ∧ s.barOn then (s.epUse).ringPut r v else s)

/-- R296: a host write of EP_RINGCTLr that clears EN. -/
def execRingDisable (r : Nat) (v : W64) (s : State) : Out := .next (if r < 4 ∧ s.barOn then (s.epUse).ringPut r v else s)

/-- EP_CRPIr and EP_RRCIr: an index written; bits at and above the ring's k are ignored. -/
def State.crpiPut (s : State) (r : Nat) (v : W64) : State :=
  (s.fput .epCrpiIndex r 0 (bits v 0 17 % 2 ^ s.fget .epRingctlCk r)).fetchRings

/-- R290: a host write of EP_CRPIr: reads are issued for the new units. -/
def execCrpiWrite (r : Nat) (v : W64) (s : State) : Out := .next (if r < 4 ∧ s.barOn then (s.epUse).crpiPut r v else s)

/-- R291: a write to host memory, in pieces of at most `n` units. -/
def splitWrite (n : Nat) : Nat → Nat → List W64 → List (Nat × List W64)
  | 0, _, _ => []
  | f + 1, a, us => if us.isEmpty then [] else (a, us.take n) :: splitWrite n f (a + 8 * n) (us.drop n)

/-- R291: MPS in units. -/
def State.mpsUnits (s : State) : Nat := min 512 (128 * 2 ^ bits (s.cfgW 0x58) 5 3) / 8

/-- R291: units written to host memory at most min(MPS, `cap`) at a time. -/
def State.hostWrite (s : State) (a : Nat) (us : List W64) (cap : Nat) : State :=
  ({ s with ep := { s.ep with host := s.ep.host ++ splitWrite (min s.mpsUnits cap) us.length a us } }).epUse

/-- R238, R291: a packet written to a reply ring, wrapping from its last unit to unit 0; the index advances and REPLY[r] is set. -/
def State.ringWrite (s : State) (r : Nat) (pkt : List W64) : State :=
  let k := 2 ^ s.fget .epRingctlRk r
  let u := s.fget .epRrpiIndex r
  let base := s.fget .epRrbaseBase r * 4096
  let s := s.hostWrite (base + 8 * u) (pkt.take (k - u)) 32
  let s := if k - u < pkt.length then s.hostWrite base (pkt.drop (k - u)) 32 else s
  (s.fput .epRrpiIndex r 0 ((u + pkt.length) % k)).epEvent r

/-- R238, R284, R297: a packet may be written to a reply ring now. -/
def State.ringTakes (s : State) (r n : Nat) : Bool :=
  decide (s.fget .epRingctlEn r = 1) && s.hostOn && decide (n ≤ s.replyRoom r)

/-- R239: a page's or the staging area's words in the mailbox block's memory. -/
def State.mbxPut (s : State) (a : Nat) (us : List W64) : State :=
  { s with kiln := { s.kiln with mbx := us.zipIdx.foldl (fun m (w, i) => Memory.putN m (a + 8 * i) 8 w.toNat) s.kiln.mbx } }

/-- R240: a reply to a mailbox slot: written, REPLY set and BUSY cleared in one step; its route fires if NOTIFY was set. -/
def State.mbxReply (s : State) (p n : Nat) (r : KReply) : State :=
  let s := s.mbxPut (0x1000 * p + 0x900 + 0x100 * n) r.pkt
  let busy := s.fget .mbxStatusBusy p
  let s := (s.fput .mbxStatusBusy p 0 (busy - busy / 2 ^ n % 2 * 2 ^ n)).fput .mbxStatusReply p 0 (s.fget .mbxStatusReply p ||| 2 ^ n)
  if r.notify then s.fireRoute (356 + p) else s

/-- R237, R238, R240: a reply may be written: to its mailbox slot, to its ring with room, or discarded for a closed ring. -/
def State.replyReady (s : State) (r : KReply) : Bool :=
  match r.src with
  | .ring q => decide (4 ≤ q) || (s.ringTakes q r.pkt.length && (s.kiln.replies.find? (fun o => o.src == r.src)) == some r)
  | .mbx _ _ _ => true
  | .peer _ _ _ _ _ => true

/-- R238, R240, R291: the first held reply that can be written is written. -/
def execReplyWrite (s : State) : Out :=
  match s.kiln.replies.find? (fun r => s.replyReady r) with
  | none => .next s
  | some r =>
    let s := { s with kiln := { s.kiln with replies := s.kiln.replies.erase r } }
    match r.src with
    | .ring q => .next (if q < 4 then (s.ringWrite q r.pkt).fetchRings else s)
    | .mbx p n _ => .next (s.mbxReply p n r)
    | .peer _ _ _ _ _ => .next s

/-- R243: a notice's units. -/
def Notice.pkt (n : Notice) : List W64 :=
  [BitVec.ofNat 64 (0xFFFF + n.tag * 2 ^ 16 + 3 * 2 ^ 32 + n.status * 2 ^ 48), n.result, BitVec.ofNat 64 n.kind]

/-- R239, R243: a notice written to a partition's page. -/
def State.pageNotice (s : State) (p : Nat) (n : Notice) : State :=
  let i := s.fget .mbxStatusNseq p
  (s.mbxPut (0x1000 * p + 0xD00 + 0x18 * (i % 32)) n.pkt).fput .mbxStatusNseq p 0 ((i + 1) % 256)

/-- R238, R243: a notice is written to its partition's page, and the oldest for the host to reply ring 0 once that has room. -/
def execNoticeWrite (s : State) : Out :=
  let s := match s.kiln.mbxNotices with
    | (p, n) :: rest => { s with kiln := { s.kiln with mbxNotices := rest } }.pageNotice p n
    | [] => s
  match s.kiln.notices with
  | n :: rest => .next (if s.ringTakes 0 3 then { s with kiln := { s.kiln with notices := rest } }.ringWrite 0 n.pkt else s)
  | [] => .next s

/-- R297: Bus Master Enable goes to 0. -/
def execBusMasterEnableClear (s : State) : Out := .next (s.setCfg 0x04 (setBit (s.cfgW 0x04) 2 false))

/-- R297: what Bus Master Enable held goes on. -/
def State.hostResume (s : State) : State := s.sendVecs.fetchRings

/-- R297: Bus Master Enable returns to 1: pending vectors are sent and fetching resumes; held replies are written as REPLY_WRITE finds them. -/
def execBusMasterEnableSet (s : State) : Out :=
  .next (if s.ep.perst then s else (s.setCfg 0x04 (setBit (s.cfgW 0x04) 2 true)).hostResume)

/-- R284: PMCSR written: PowerState D0 or D3hot, PME_En, PME_Status cleared by 1. -/
def State.pmcsrPut (s : State) (v : BitVec 16) : State :=
  let old := s.cfgW 0x44
  let ps := bits v 0 2
  let w := if ps = 0 ∨ ps = 3 then setBits old 0 2 ps else old
  let w := setBit w 8 (bit v 8)
  let w := if bit v 15 then setBit w 15 false else w
  let back := s.d3 && decide (ps = 0)
  let s := (s.setCfg 0x44 w).showWake
  if back then s.showIntx.hostResume else s

/-- R284: a write of PMCSR. -/
def execPmcsrWrite (v : BitVec 16) (s : State) : Out := .next (if s.ep.perst ∨ s.ep.cfgHeld.isSome then s else s.pmcsrPut v)

/-- R298: configuration space after a function reset. PRESUMED (log 29): AER, PME_En, PME_Status, MPS and the link's registers keep their values, as the PCIe
specification has it. -/
def State.flrCfg (s : State) : State :=
  let mps := bits (s.cfgW 0x58) 5 3
  let pme := (s.cfgW 0x44) &&& 0x8100
  let keep := s.ep.cfg.filter (fun e => decide (0x104 / 4 ≤ e.1 ∧ e.1 < 0x148 / 4) || e.1 == 0x60 / 4 || e.1 == 0x80 / 4)
  let s := { s with ep := { s.ep with cfg := keep } }
  (s.setCfg 0x58 (setBits (s.cfgW 0x58) 5 3 mps)).setCfg 0x44 ((s.cfgW 0x44) ||| pme)

/-- R298: an endpoint function reset: rings disabled without draining, reads quarantined, registers and MSI-X state reset, replies discarded. -/
def State.epFuncReset (s : State) : State :=
  let s := (List.range 4).foldl (fun s r => s.dropReplies r) s
  let s := { s with
    cs := resetDomain s.cs .epFunc
    ep := { s.ep with rings := [], msix := [], pba := 0, intx := false, accs := []
                      reads := s.ep.reads.map (fun (x : EpRead) => if x.quar then x else { x with quar := true, silent := true }) } }
  s.flrCfg.showReads

/-- R298: a Function Level Reset, after which configuration requests wait 10 µs. -/
def State.flr (s : State) : State :=
  let s := s.epFuncReset
  { s with ep := { s.ep with cfgHeld := some (s.now + 10 * usTicks) } }

/-- R298: a Function Level Reset. -/
def execFlr (s : State) : Out := .next (if s.ep.perst ∨ s.ep.link = 0 then s else s.flr)

/-- R298: 10 µs after the FLR configuration requests are accepted again. -/
def execFlrComplete (s : State) : Out :=
  match s.ep.cfgHeld with
  | some t => .next (if t ≤ s.now then { s with ep := { s.ep with cfgHeld := none } } else s)
  | none => .next s

/-- R299: an endpoint link reset: what an FLR does, and every quarantined tag is free. -/
def State.epLinkReset (s : State) : State :=
  let s := s.epFuncReset
  ({ s with cs := resetDomain s.cs .epLink
            ep := { s.ep with reads := [], link := 0, cfgHeld := none, pmeSent := false, pmeAck := false } }).showReads

/-- R299, R301: a filtered change of PERST#. -/
def execPerstChange (asserted : Bool) (s : State) : Out :=
  if s.ep.perst = asserted then .next s
  else if asserted then
    let s := ({ s with ep := { s.ep with perst := true } }).showWake.epLinkReset
    let s := { s with ep := { s.ep with cfg := s.ep.cfg.filter (fun e => !decide (0x104 / 4 ≤ e.1 ∧ e.1 < 0x148 / 4)) } }
    .next (s.setCfg 0x44 (setBit (s.cfgW 0x44) 8 false)).showWake
  else .next { s with ep := { s.ep with perst := false } }

/-- R299: a hot reset, or the link goes down. -/
def execEndpointLinkDown (s : State) : Out := .next (if s.ep.link = 0 then s else s.epLinkReset)

/-- R301, R297: the endpoint's link reaches L0: WAKE# is released, and what was held flows. -/
def execEndpointLinkUp (s : State) : Out :=
  .next (if s.ep.perst ∨ s.kiln.aonHeld then s
    else ({ s with ep := { s.ep with link := 1, pmeAck := false, idleSince := s.now } }).showWake.hostResume)

/-- R300: nothing waits to be sent on the endpoint's link. -/
def State.epQuiet (s : State) : Bool :=
  !s.ep.reads.any (fun x => !x.quar) && !s.kiln.replies.any (fun r => match r.src with | .ring q => s.ringTakes q r.pkt.length | _ => false) &&
    !(s.ringTakes 0 3 && !s.kiln.notices.isEmpty) && decide (s.ep.pba = 0)

/-- R300: the endpoint enters L0s after 1 µs with nothing to send. -/
def execAspmL0sEntry (s : State) : Out :=
  .next (if s.ep.link = 1 ∧ bit (s.cfgW 0x60) 0 ∧ s.epQuiet ∧ s.ep.idleSince + usTicks ≤ s.now then { s with ep := { s.ep with link := 2 } } else s)

/-- R300: the endpoint enters L1 after 32 µs idle. -/
def execAspmL1Entry (s : State) : Out :=
  .next (if (s.ep.link = 1 ∨ s.ep.link = 2) ∧ bit (s.cfgW 0x60) 1 ∧ s.epQuiet ∧ s.ep.idleSince + 32 * usTicks ≤ s.now then
    { s with ep := { s.ep with link := 3 } } else s)

/-- R301: PME_Turn_Off is answered, and the link enters L2. -/
def execPmeTurnOff (s : State) : Out :=
  .next (if s.ep.link = 0 ∨ s.ep.perst then s else ({ s with ep := { s.ep with link := 4, pmeAck := true } }).showWake)

end Sys2Proof.Machine
end

