-- ==== Sys2Proof/Machine/Dma.lean ====
section
/-! DEFINITION. The DMA engines: channels, triggers, descriptors, transfers, completion, barriers, errors and disable (R302 to R316). -/

namespace Sys2Proof.Machine

/-- A DMA channel of the package, 32 × engine + channel. -/
def State.chan (s : State) (ch : Nat) : DmaCh := Tab.get {} s.dmaCh ch

/-- A channel changed. -/
def State.modChan (s : State) (ch : Nat) (f : DmaCh → DmaCh) : State := { s with dmaCh := Tab.put {} s.dmaCh ch (f (s.chan ch)) }

/-- A DMA engine. -/
def State.eng (s : State) (e : Nat) : DmaEng := Tab.get {} s.dmaEng e

/-- An engine changed. -/
def State.modEng (s : State) (e : Nat) (f : DmaEng → DmaEng) : State := { s with dmaEng := Tab.put {} s.dmaEng e (f (s.eng e)) }

/-- DMA_CHSTAT.STATE. -/
def State.chState (s : State) (ch : Nat) : Nat := s.fget .dmaChstatState (ch / 32) (ch % 32)

/-- R311: CI. -/
def State.chCi (s : State) (ch : Nat) : Nat := s.fget .dmaChstatCi (ch / 32) (ch % 32)

/-- R311: the PI in effect. -/
def State.chPi (s : State) (ch : Nat) : Nat := s.fget .dmaChpivalPi (ch / 32) (ch % 32)

/-- The partition that owns a channel. -/
def State.chPart (s : State) (ch : Nat) : Option Nat := (List.range 64).find? (fun p => s.partHasDma p ch)

/-- The partition of a channel as its events carry it: 64 for none. -/
def State.chTag (s : State) (ch : Nat) : Nat := (s.chPart ch).getD 64

/-- R302: the engine of an access in flight. -/
def ncEngine (r : NcReq) : Option Nat := match r.agent with | .dma ch => some (ch / 32) | _ => none

/-- R302: the channel of an access in flight. -/
def ncChan (r : NcReq) : Option Nat := match r.agent with | .dma ch => some ch | _ => none

/-- R302: the accesses of an engine that are not yet done with. -/
def State.engOut (s : State) (e : Nat) (write : Bool) : Nat :=
  ((s.home.ncq ++ s.home.ncDone).filter (fun r => decide (ncEngine r = some e) && r.write == write)).length

/-- DMA_ENGCFGe's counts and the descriptor being served. -/
def State.showEng (s : State) (e : Nat) : State :=
  let g := s.eng e
  let s := (s.fput .dmaEngcfgRdout e 0 (s.engOut e false)).fput .dmaEngcfgWrout e 0 (s.engOut e true)
  match g.cur with
  | some x => (s.fput .dmaEngcfgCur e 0 (x.ch % 32)).fput .dmaEngcfgActive e 0 1
  | none => s.fput .dmaEngcfgActive e 0 (b2n (!g.xs.isEmpty))

/-- R311: an index difference modulo 2^32. -/
def idxSub (a b : Nat) : Nat := (a + 2 ^ 32 - b) % 2 ^ 32

/-- DMA_CHSTAT.STATE of an enabled channel that is not halted: RUNNING while an entry is triggered or in progress, else IDLE. -/
def State.showChan (s : State) (ch : Nat) : State :=
  let d := s.chan ch
  if s.fget .dmaChctlEn (ch / 32) (ch % 32) = 0 ∨ 3 ≤ s.chState ch ∨ d.enabling then s
  else s.fput .dmaChstatState (ch / 32) (ch % 32) (if d.fIdx = s.chPi ch ∧ d.ents.isEmpty ∧ d.recs.isEmpty ∧ d.chain.isNone then 1 else 2)

/-- R315: a channel halts. -/
def State.haltChan (s : State) (ch reason : Nat) : State :=
  let s := (s.fput .dmaChstatState (ch / 32) (ch % 32) 3).fput .dmaChstatReason (ch / 32) (ch % 32) reason
  (s.modChan ch (fun d => { d with haltResume := s.fget .dmaChpivalResume (ch / 32) (ch % 32) })).pev 4 5 (ch / 32) (s.chTag ch) 1

/-- R302, R228: an access of a channel to memory. -/
def State.dmaSend (s : State) (ch : Nat) (use : NcUse) (write : Bool) (pa len : Nat) (val : LineData) (poison : Bool) (way : Nat) : Nat × State :=
  let (id, s) := s.ncSend (.dma ch) use write pa len val poison way
  (id, s.bytes 3 (ch / 32) (s.chTag ch) (!write) len)

/-- An access of a channel that has been answered. -/
def State.ncTake (s : State) (id : Nat) : Option (NcReq × State) :=
  match s.home.ncDone.find? (fun r => r.id == id && !r.dram && decide (r.at_ ≤ s.fcyc)) with
  | some r => some (r, { s with home := { s.home with ncDone := s.home.ncDone.filter (fun q => q.id != id) } })
  | none => none

/-- R310: the engine reads a channel's trigger line. -/
def State.readTrigger (s : State) (ch : Nat) : State :=
  let (id, s) := s.dmaSend ch .trigger false (s.fget .dmaChtrigAddr (ch / 32) (ch % 32) * 64) 64 0 false 2
  (s.modChan ch (fun d => { d with trigRd := some id, trigAgain := false })).showEng (ch / 32)

/-- R303: an area lies in the windows of a partition, byte for byte. -/
def State.dmaArea (s : State) (p base len : Nat) : Bool :=
  (List.range ((base + len - 1) / 2 ^ 30 + 1 - base / 2 ^ 30)).all (fun i => s.inWindows p ((base / 2 ^ 30 + i) * 2 ^ 30))

/-- R303: why a channel's enable is refused. -/
def State.chReason (s : State) (ch : Nat) : Option Nat :=
  let g := ch / 32
  let c := ch % 32
  let k := s.fget .dmaChctlK g c
  let ring := s.fget .dmaChringAddr g c * 64
  let trig := s.fget .dmaChtrigAddr g c
  let cpl := s.fget .dmaChcplAddr g c
  if s.chState ch = 4 then some rBusyDraining
  else
    match s.chPart ch with
    | none => some rNotPermitted
    | some p =>
      if k < 4 ∨ 16 < k ∨ ring % 2 ^ (k + 6) ≠ 0 then some rBadParameter
      else if !s.dmaArea p ring (2 ^ (k + 6)) || !s.dmaArea p (trig * 64) 64 || !s.dmaArea p (cpl * 64) 64 then some rDmaWindow
      else if pkgOf (trig * 64) ≠ s.pkg || !(s.trigChans trig).isEmpty then some rDmaWindow
      else if trig = cpl then some rBadParameter
      else none

/-- R316: a channel's enable cleared: it issues nothing more, its entry is abandoned, and it drains. -/
def State.dmaStop (s : State) (ch : Nat) : State :=
  let e := ch / 32
  if s.fget .dmaChctlEn e (ch % 32) = 0 then s
  else
    let s := (s.fput .dmaChctlEn e (ch % 32) 0).fput .dmaChstatState e (ch % 32) 4
    let s := (s.fput .dmaChstatBarwait e (ch % 32) 0).modChan ch (fun _ => {})
    (s.modEng e (fun g => { g with cur := g.cur.filter (fun x => x.ch != ch), xs := g.xs.filter (fun x => x.ch != ch)
                                   held := if g.held = some ch then none else g.held })).showEng e

/-- R303, R316: DMA_CHCTL written: K while EN reads 0, then the enable with its check, or the disable. -/
def State.chctlPut (s : State) (ch : Nat) (v : W64) : State :=
  let g := ch / 32
  let c := ch % 32
  if s.fget .dmaChctlEn g c = 1 then if bit v 0 then s else s.dmaStop ch
  else
    let s := s.rwrite .dmaChctl g c (setBit v 0 false)
    if !bit v 0 then s
    else
      match s.chReason ch with
      | some r => s.fput .dmaChstatReason g c r
      | none => ((s.fput .dmaChctlEn g c 1).modChan ch (fun _ => { enabling := true })).readTrigger ch

/-- R303: a write of DMA_CHCTL that sets EN. -/
def execDmaChannelEnable (q : Req) (ch : Nat) (v : W64) (s : State) : Out :=
  s.regWrite q .dmaChctl (ch / 32) (ch % 32) v (fun s => s.chctlPut ch v)

/-- R316: a write of DMA_CHCTL that clears EN. -/
def execDmaChannelDisable (q : Req) (ch : Nat) (v : W64) (s : State) : Out :=
  s.regWrite q .dmaChctl (ch / 32) (ch % 32) v (fun s => s.chctlPut ch v)

/-- R314: posted writes of the root ports of a channel's partition that have not arrived at their homes. -/
def State.postedOf (s : State) (ch : Nat) : List Nat :=
  let mine := fun (r : NcReq) => r.write && (match r.agent with | .port n => (s.chPart ch).any (fun p => s.partHasPort p n) | _ => false)
  ((s.home.ncq.filter mine) ++ (s.home.ncDone.filter (fun r => mine r && r.dram))).map (fun r => r.id)

/-- R311: a trigger with a PI. -/
def State.applyPi (s : State) (ch p : Nat) : State :=
  let g := ch / 32
  let c := ch % 32
  let ci := s.chCi ch
  let f := (s.chan ch).fIdx
  let d := idxSub p ci
  let neg := decide (2 ^ 31 ≤ d)
  if !neg && decide (2 ^ s.fget .dmaChctlK g c < d) then s.haltChan ch rBadParameter
  else if !neg && decide (idxSub f ci ≤ d) then
    ((s.fput .dmaChpivalPi g c p).modChan ch (fun d => { d with posted := s.postedOf ch })).showChan ch
  else
    let s := s.fput .dmaChpivalPi g c f
    (s.modEng g (fun e => { e with cur := e.cur.filter (fun x => x.begun || x.chained || x.ch != ch) })).showChan ch

/-- R310, R311, R315: a trigger: RESUME is recorded; a HALTED channel leaves that state when it differs from the one recorded at the halt. -/
def State.trigger (s : State) (ch p resume : Nat) : State :=
  let g := ch / 32
  let c := ch % 32
  let s := s.fput .dmaChpivalResume g c resume
  if s.chState ch = 3 then
    if resume = (s.chan ch).haltResume then s else (s.fput .dmaChstatState g c 1).applyPi ch p
  else s.applyPi ch p

/-- R310: a write of DMA_CHPI acts as a trigger with its PI and the RESUME last recorded; ignored while EN reads 0. -/
def execDmaChpiWrite (q : Req) (ch : Nat) (v : W64) (s : State) : Out :=
  s.regWrite q .dmaChpi (ch / 32) (ch % 32) v (fun s =>
    if s.fget .dmaChctlEn (ch / 32) (ch % 32) = 0 then s else s.trigger ch (bits v 0 32) (s.fget .dmaChpivalResume (ch / 32) (ch % 32)))

/-- R310: a notice reaches the engine, which reads the trigger line, or reads it once more after the read in progress. -/
def execDmaTriggerNotice (ch : Nat) (s : State) : Out :=
  let d := s.chan ch
  match d.note with
  | none => .next s
  | some t =>
    if s.fcyc < t then .next s
    else
      let s := s.modChan ch (fun d => { d with note := none })
      .next (if d.trigRd.isSome then s.modChan ch (fun d => { d with trigAgain := true }) else s.readTrigger ch)

/-- R303, R311, R315: the trigger line has been read: an enable takes CI, PI and RESUME from it; a trigger acts on it; a failed read halts. -/
def execTriggerLineReadDone (ch : Nat) (s : State) : Out :=
  let d := s.chan ch
  match d.trigRd.bind (fun id => s.ncTake id) with
  | none => .next s
  | some (r, s) =>
    let s := s.modChan ch (fun d => { d with trigRd := none, enabling := false })
    let pi := bits r.val 0 32
    let resume := bits r.val 64 32
    let s :=
      if r.status ≠ 0 then s.haltChan ch r.status
      else if d.enabling then
        let s := (s.fput .dmaChstatCi (ch / 32) (ch % 32) pi).fput .dmaChpivalPi (ch / 32) (ch % 32) pi
        ((s.fput .dmaChpivalResume (ch / 32) (ch % 32) resume).modChan ch (fun d => { d with fIdx := pi })).fput .dmaChstatState (ch / 32) (ch % 32) 1
      else s.trigger ch pi resume
    .next (if d.trigAgain then s.readTrigger ch else s.showEng (ch / 32))

/-- R305: a shape: address, line length, line count and stride. -/
structure Shape where
  a : Nat
  len : Nat
  cnt : Nat
  stride : Int
  deriving DecidableEq, Repr

/-- R305: bytes of a shape's stream. -/
def Shape.total (h : Shape) : Nat := h.len * h.cnt

/-- R305: the address of a byte of the stream. -/
def Shape.at (h : Shape) (k : Nat) : Nat :=
  (((h.a : Int) + (k / h.len : Nat) * h.stride) % (2 ^ 64 : Int)).toNat + k % h.len

/-- R307: how many bytes of the stream from a position on lie at rising addresses of one line. -/
def Shape.run (h : Shape) (k : Nat) : Nat :=
  let a := h.at k
  let n := min (64 - a % 64) (h.total - k)
  ((List.range n).takeWhile (fun i => decide (h.at (k + i) = a + i))).length

/-- R306: lowest and one past the highest byte of a shape. -/
def Shape.extent (h : Shape) : Int × Int :=
  let far := (h.a : Int) + ((h.cnt : Int) - 1) * h.stride
  (min (h.a : Int) far, max (h.a : Int) far + h.len)

/-- R304: the OP of a descriptor is FILL. -/
def DmaX.fill (x : DmaX) : Bool := decide (bits (x.words.getD 0 0) 0 4 = 2)

/-- R304: the source shape. -/
def DmaX.src (x : DmaX) : Shape :=
  { a := (x.words.getD 1 0).toNat, len := bits (x.words.getD 2 0) 0 24, cnt := bits (x.words.getD 2 0) 24 24, stride := (x.words.getD 3 0).toInt }

/-- R304: the destination shape. -/
def DmaX.dst (x : DmaX) : Shape :=
  { a := (x.words.getD 4 0).toNat, len := bits (x.words.getD 5 0) 0 24, cnt := bits (x.words.getD 5 0) 24 24, stride := (x.words.getD 6 0).toInt }

/-- R304: a flag of CTRL. -/
def DmaX.ctrl (x : DmaX) (n : Nat) : Bool := bit (x.words.getD 0 0) n

/-- R306: an extent lies wholly inside one window of a partition and below 2^52. -/
def State.extentIn (s : State) (p : Nat) (h : Shape) : Bool :=
  let (lo, hi) := h.extent
  let ok := fun (w : W64) => winCovers w lo.toNat && winCovers w (hi - 1).toNat
  decide (0 ≤ lo) && decide (hi ≤ 2 ^ 52) &&
    ((List.range 16).any (fun w => ok (s.rget .prtWin p w)) || (s.part p).remWin.any (fun e => ok e.2))

/-- R306: the first check that a descriptor fails. -/
def State.descReason (s : State) (x : DmaX) : Nat :=
  let w := fun n => x.words.getD n 0
  let op := bits (w 0) 0 4
  let zero := bits (w 0) 8 8 ≠ 0 ∨ bits (w 0) 32 32 ≠ 0 ∨ (op = 1 ∧ bits (w 1) 52 12 ≠ 0) ∨ bits (w 2) 48 16 ≠ 0 ∨
    (op = 2 ∧ (w 2 ≠ 0 ∨ w 3 ≠ 0)) ∨ bits (w 4) 52 12 ≠ 0 ∨ bits (w 5) 48 16 ≠ 0 ∨ (x.ctrl 7 ∧ (bits (w 7) 0 6 ≠ 0 ∨ bits (w 7) 52 12 ≠ 0))
  if (op ≠ 1 ∧ op ≠ 2) ∨ zero ∨ (!x.ctrl 7 ∧ w 7 ≠ 0) ∨ (x.ctrl 6 ∧ !x.ctrl 7) then rBadParameter
  else if (op = 1 ∧ x.src.total = 0) ∨ x.dst.total = 0 then rDmaZeroLine
  else if op = 1 ∧ x.src.total ≠ x.dst.total then rDmaShapeMismatch
  else
    match s.chPart x.ch with
    | none => rDmaWindow
    | some p => if (op = 1 ∧ !s.extentIn p x.src) ∨ !s.extentIn p x.dst then rDmaWindow else 0

/-- An entry of a channel changed. -/
def State.modEnt (s : State) (ch idx : Nat) (f : DmaEnt → DmaEnt) : State :=
  s.modChan ch (fun d => { d with ents := d.ents.map (fun t => if t.idx = idx then f t else t) })

/-- R315: the first reason of an entry and its address are kept. -/
def DmaEnt.fail (t : DmaEnt) (reason addr : Nat) : DmaEnt := if t.reason ≠ 0 ∨ reason = 0 then t else { t with reason := reason, errAddr := addr }

/-- R313: the completion record of an entry. -/
def DmaEnt.record (t : DmaEnt) (ci resume : Nat) : LineData :=
  BitVec.ofNat 512 (ci + t.reason * 2 ^ 32 + t.tag * 2 ^ 48 + t.errAddr * 2 ^ 64 + t.npois % 2 ^ 32 * 2 ^ 128 + t.nskip % 2 ^ 32 * 2 ^ 160 + resume * 2 ^ 192)

/-- R313, R315: the oldest entry of a channel whose writes have arrived completes: CI advances, its record is written, and an error halts. -/
def State.finishHead (s : State) (ch : Nat) : State :=
  let g := ch / 32
  let c := ch % 32
  match (s.chan ch).ents with
  | [] => s
  | t :: rest =>
    if t.last && t.wrs.isEmpty then
      let ci := (s.chCi ch + 1) % 2 ^ 32
      let s := (s.fput .dmaChstatCi g c ci).modChan ch (fun d => { d with ents := rest })
      let (id, s) := s.dmaSend ch .record true (s.fget .dmaChcplAddr g c * 64) 64 (t.record ci (s.fget .dmaChpivalResume g c)) false 3
      let s := s.modChan ch (fun d => { d with recs := d.recs ++ [(id, t.int || decide (t.reason ≠ 0))] })
      if t.reason ≠ 0 then s.haltChan ch t.reason else s
    else s

/-- R313: entries complete in ring order. -/
def State.finishEnts (s : State) (ch : Nat) : State :=
  ((s.chan ch).ents.foldl (fun s _ => s.finishHead ch) s).showChan ch

/-- R311: the entry of a descriptor is started: F advances with its first access. -/
def State.startEnt (s : State) (x : DmaX) : State :=
  let t : DmaEnt := { idx := x.ent }
  let s := if x.chained then s
    else s.modChan x.ch (fun d => { d with fIdx := (d.fIdx + 1) % 2 ^ 32, ents := d.ents ++ [t] })
  s.modEnt x.ch x.ent (fun t => { t with int := t.int || x.ctrl 5, tag := bits (x.words.getD 0 0) 16 16 })

/-- R308, R309, R312: the engine is done with a descriptor's reads: it leaves for the ones whose writes remain, and its chain is next. -/
def State.leaveCur (s : State) (e : Nat) (x : DmaX) : State :=
  let g := s.eng e
  let next := if x.ctrl 7 then some (bits (x.words.getD 7 0) 0 52) else none
  let hold := x.ctrl 6 && x.ctrl 7 && decide (g.row < max 1 (s.fget .dmaEngcfgHoldmax e))
  let s := s.modChan x.ch (fun d => { d with chain := next })
  s.modEng e (fun g => { g with cur := none, xs := g.xs ++ [x], held := if hold then some x.ch else none })

/-- R305, R307: a destination byte's value: of the pattern, or of the returned source bytes; none where its read failed or is not back. -/
def DmaX.byte (x : DmaX) (k : Nat) : Option Nat :=
  if x.fill then some (bits (x.words.getD 1 0) (8 * (k % 8)) 8)
  else (x.parts.find? (fun p => decide (p.1 ≤ k) && decide (k < p.1 + p.2.1))).bind (fun p => p.2.2.1.map (fun d => bits d (8 * (k - p.1)) 8))

/-- R307: the source bytes of a run have all returned, by an F-cycle. -/
def DmaX.have (x : DmaX) (k n f : Nat) : Bool :=
  x.fill || (List.range n).all (fun i => x.parts.any (fun p => decide (p.1 ≤ k + i) && decide (k + i < p.1 + p.2.1) && decide (p.2.2.2 ≤ f)))

/-- R307, R315: the next destination run of a transfer is written: whole lines and parts of lines; bytes of failed reads poison or skip. -/
def State.dmaWrite (s : State) (e : Nat) (x : DmaX) : State × DmaX :=
  let k := x.wrPos
  let n := x.dst.run k
  let bs := (List.range n).map (fun i => x.byte (k + i))
  let bad := bs.any (fun b => b.isNone)
  let v := bs.foldr (fun b v => b.getD 0 + 256 * v) 0
  let x' := { x with wrPos := k + n, parts := x.parts.filter (fun p => decide (k + n < p.1 + p.2.1)) }
  let s := s.modEng e (fun g => { g with wrAt := s.fcyc + 2 })
  if bad && decide (n < 64) then (s.modEnt x.ch x.ent (fun t => { t with nskip := t.nskip + 1 }), x')
  else
    let (id, s) := s.dmaSend x.ch .dst true (x.dst.at k) n (BitVec.ofNat 512 v) bad 2
    ((s.modEnt x.ch x.ent (fun t => { t with wrs := t.wrs ++ [id], npois := t.npois + b2n bad })).pev 4 3 e (s.chTag x.ch) 1, x')

/-- R305, R307: the next source run of a transfer is read. -/
def State.dmaRead (s : State) (e : Nat) (x : DmaX) : State × DmaX :=
  let k := x.rdPos
  let n := x.src.run k
  let (id, s) := s.dmaSend x.ch .src false (x.src.at k) n 0 false 2
  ((s.modEng e (fun g => { g with rdAt := s.fcyc + 2 })).pev 4 2 e (s.chTag x.ch) 1, { x with rdPos := k + n, rdOut := x.rdOut ++ [(id, k, n)] })

/-- R312, R313: a transfer that has written everything ends its descriptor, and its entry where that is the last. -/
def State.endX (s : State) (e : Nat) (x : DmaX) : State :=
  let s := s.pev 4 1 e (s.chTag x.ch) 1
  if x.ctrl 7 then s else (s.modEnt x.ch x.ent (fun t => { t with last := true })).finishEnts x.ch

/-- R302, R308: an engine issues the read and the write that this F-cycle allows. -/
def State.dmaPump (s : State) (e : Nat) : State :=
  let s :=
    match (s.eng e).cur with
    | some x =>
      if x.begun && !x.fill && decide (x.began ≤ s.fcyc) && decide ((s.eng e).rdAt ≤ s.fcyc) && decide (s.engOut e false < 64) then
        let s := if x.rdPos = 0 then s.startEnt x else s
        let (s, x) := s.dmaRead e x
        if x.rdPos = x.src.total then s.leaveCur e x else s.modEng e (fun g => { g with cur := some x })
      else s
    | none => s
  let ok := decide ((s.eng e).wrAt ≤ s.fcyc) && decide (s.engOut e true < 64)
  match (s.eng e).xs, (s.eng e).cur with
  | x :: rest, _ =>
    if ok && x.have x.wrPos (x.dst.run x.wrPos) s.fcyc then
      let (s, x) := s.dmaWrite e x
      if x.wrPos = x.dst.total then (s.modEng e (fun g => { g with xs := rest })).endX e x else s.modEng e (fun g => { g with xs := x :: rest })
    else s
  | [], some x =>
    if ok && x.begun && decide (x.began ≤ s.fcyc) && x.have x.wrPos (x.dst.run x.wrPos) s.fcyc then
      let s := if x.fill && decide (x.wrPos = 0) then s.startEnt x else s
      let (s, x) := s.dmaWrite e x
      if x.fill && decide (x.wrPos = x.dst.total) then
        let s := s.leaveCur e x
        (s.modEng e (fun g => { g with xs := g.xs.filter (fun y => y != x) })).endX e x
      else s.modEng e (fun g => { g with cur := some x })
    else s
  | [], none => s

/-- R314: what a barrier waits for has arrived: every write of the channel's earlier descriptors and the posted device writes. -/
def State.barReady (s : State) (ch : Nat) : Bool :=
  let d := s.chan ch
  let out := (s.home.ncq ++ s.home.ncDone.filter (fun r => r.dram)).map (fun r => r.id)
  d.ents.all (fun t => t.wrs.isEmpty) && (s.eng (ch / 32)).xs.all (fun x => x.ch != ch) && d.posted.all (fun i => !out.contains i)

/-- R308: a channel may be chosen. -/
def State.chEligible (s : State) (ch : Nat) : Bool :=
  let d := s.chan ch
  decide (s.fget .dmaChctlEn (ch / 32) (ch % 32) = 1) && !d.enabling && (decide (s.chState ch = 1) || decide (s.chState ch = 2)) && !d.barPend &&
    (d.chain.isSome || (decide (d.fIdx ≠ s.chPi ch)))

/-- R308, R309, R310: an engine free of its last read picks the held chain or the next eligible channel, and fetches its descriptor. An address outside the
partition's windows is not read (DEDUCED, log 27: the channel halts with OUTSIDE_WINDOW). -/
def execDmaNextDescriptor (e : Nat) (s : State) : Out :=
  let g := s.eng e
  let pick := match g.held with
    | some ch => if s.chEligible ch then some (ch, g.row + 1) else none
    | none => ((List.range 32).map (fun i => e * 32 + (g.rr + 1 + i) % 32)).find? (fun ch => s.chEligible ch) |>.map (fun ch => (ch, 1))
  if g.cur.isSome ∨ 8 ≤ e then .next s
  else
    match pick with
    | none => .next (s.modEng e (fun g => { g with held := none }))
    | some (ch, row) =>
      let d := s.chan ch
      let slot := d.fIdx % 2 ^ s.fget .dmaChctlK e (ch % 32)
      let addr := d.chain.getD (s.fget .dmaChringAddr e (ch % 32) * 64 + 64 * slot)
      if !(s.chPart ch).any (fun p => s.inWindows p addr) then .next (s.haltChan ch rOutsideWindow)
      else
        let ent := if d.chain.isSome then (d.ents.getLast?.map (fun t => t.idx)).getD d.fIdx else d.fIdx
        let (id, s) := s.dmaSend ch .desc false addr 64 0 false 2
        let x : DmaX := { ch := ch, addr := addr, chained := d.chain.isSome, fetch := some id, ent := ent }
        .next ((s.modEng e (fun g => { g with cur := some x, held := none, rr := ch % 32, row := row })).showEng e)

/-- R304: the doublewords of a descriptor's line. -/
def descWords (v : LineData) : List W64 := (List.range 8).map (fun i => BitVec.ofNat 64 (bits v (64 * i) 64))

/-- R306, R314, R315: a fetched descriptor arrives: a failed fetch halts the channel, a barrier may wait, the checks pass or end the entry, and the transfer
begins 2 F-cycles after the arrival. -/
def execDescriptorArrival (e : Nat) (s : State) : Out :=
  match (s.eng e).cur with
  | none => .next s
  | some x =>
    match x.fetch.bind (fun id => s.ncTake id) with
    | none => .next s
    | some (r, s) =>
      let drop := fun (s : State) => (s.modEng e (fun g => { g with cur := none })).showEng e
      if r.status ≠ 0 then .next ((drop s).haltChan x.ch r.status)
      else
        let x := { x with fetch := none, words := descWords r.val, began := r.at_ + 2 }
        if x.ctrl 4 && !s.barReady x.ch then
          .next (((drop s).modChan x.ch (fun d => { d with barPend := true })).fput .dmaChstatBarwait e (x.ch % 32) 1)
        else
          let bad := s.descReason x
          if bad ≠ 0 then
            let s := ((drop s).startEnt x).modChan x.ch (fun d => { d with chain := none })
            .next ((s.modEnt x.ch x.ent (fun t => { t.fail bad 0 with last := true })).finishEnts x.ch)
          else
            let s := s.modChan x.ch (fun d => { d with chain := none })
            .next ((s.modEng e (fun g => { g with cur := some { x with begun := true } })).dmaPump e)

/-- R302: the oldest answer to an engine's source reads or destination writes. -/
def State.dmaAnswer (s : State) (e : Nat) (use : NcUse) : Option (NcReq × State) :=
  (s.home.ncDone.find? (fun r => decide (ncEngine r = some e) && decide (r.use = use) && !r.dram && decide (r.at_ ≤ s.fcyc))).bind (fun r => s.ncTake r.id)

/-- A source read's answer added to the transfer that made it. -/
def DmaX.takeRead (x : DmaX) (r : NcReq) : DmaX :=
  match x.rdOut.find? (fun o => o.1 == r.id) with
  | none => x
  | some (i, k, n) =>
    { x with rdOut := x.rdOut.erase (i, k, n), parts := x.parts ++ [(k, n, if r.status = 0 then some (r.val >>> (8 * (r.pa % 64))) else none, r.at_ + 1)] }

/-- R307, R315: a source line returns: its bytes go onward; a bus error is the entry's reason. -/
def execDmaReadReturn (e : Nat) (s : State) : Out :=
  match s.dmaAnswer e .src with
  | none => .next s
  | some (r, s) =>
    let g := s.eng e
    let owner := (g.cur.toList ++ g.xs).find? (fun x => x.rdOut.any (fun o => o.1 == r.id))
    let s := s.modEng e (fun g => { g with cur := g.cur.map (fun x => x.takeRead r), xs := g.xs.map (fun x => x.takeRead r) })
    let s := match owner with
      | some x => s.modEnt x.ch x.ent (fun t => t.fail r.status r.pa)
      | none => s
    .next ((s.dmaPump e).showEng e)

/-- R313, R315: a destination write is acknowledged; when an entry's writes have all arrived it completes. -/
def execDmaWriteAck (e : Nat) (s : State) : Out :=
  match s.dmaAnswer e .dst with
  | none => .next s
  | some (r, s) =>
    match ncChan r with
    | none => .next s
    | some ch =>
      let s := s.modChan ch (fun d => { d with ents := d.ents.map (fun t =>
        if t.wrs.contains r.id then { t.fail r.status r.pa with wrs := t.wrs.filter (fun i => i != r.id) } else t) })
      .next (((s.finishEnts ch).dmaPump e).showEng e)

/-- R313: a completion record is acknowledged, and the channel's route fires if the entry asked for it or failed. -/
def execCompletionRecordAck (ch : Nat) (s : State) : Out :=
  match (s.chan ch).recs with
  | [] => .next s
  | (id, fire) :: rest =>
    match s.ncTake id with
    | none => .next s
    | some (_, s) =>
      let s := ((s.modChan ch (fun d => { d with recs := rest })).showChan ch).showEng (ch / 32)
      .next (if fire then s.fireRoute ch else s)

/-- R314: a barrier's writes have arrived: its descriptor becomes eligible. -/
def execBarrierRelease (ch : Nat) (s : State) : Out :=
  if (s.chan ch).barPend && s.barReady ch then
    .next ((s.modChan ch (fun d => { d with barPend := false })).fput .dmaChstatBarwait (ch / 32) (ch % 32) 0)
  else .next s

/-- R316: a channel has no access outstanding: what was answered is discarded. -/
def State.chDrained (s : State) (ch : Nat) : Bool :=
  !s.home.ncq.any (fun r => decide (ncChan r = some ch)) &&
    !s.home.ncDone.any (fun r => decide (ncChan r = some ch) && (r.dram || decide (s.fcyc < r.at_)))

/-- R316: a DRAINING channel's last access has ended: it reads DISABLED. -/
def execDmaDrainDone (ch : Nat) (s : State) : Out :=
  if s.chState ch = 4 ∧ s.chDrained ch then
    let s := { s with home := { s.home with ncDone := s.home.ncDone.filter (fun r => decide (ncChan r ≠ some ch)) } }
    .next ((s.fput .dmaChstatState (ch / 32) (ch % 32) 0).showEng (ch / 32))
  else .next s

end Sys2Proof.Machine
end

