-- ==== Sys2Proof/Machine/Pmu.lean ====
section
/-! DEFINITION. Performance monitoring: counting in a cycle, wraps, samples and their ring, block counters and bandwidth windows (R317 to R329). -/

namespace Sys2Proof.Machine

/-- R318: the events of kind K: of the core as a whole. -/
def kEvents : List Nat := [1, 3, 12, 13, 14, 18, 19, 20, 21, 22, 23, 24, 25]

/-- R318: O of the events that are a level of the core in the cycle t that ends. -/
def State.levelO (s : State) (c t code : Nat) : Nat :=
  let k := s.core c
  match code with
  | 1 => 1
  | 3 => b2n (decide (k.lane0 ≠ t + 1)) + b2n (decide (k.lane1 ≠ t + 1))
  | 12 => k.readyQ.length
  | 13 => (k.ctxs.filter (fun e => decide (e.2.st = .miss))).length
  | 14 => k.sb.length
  | 18 => ([0, 1].filter (fun w => (k.walk w).isSome)).length
  | 19 => (s.fab.egress.filter (fun m => m.core == c)).length
  | _ => 0

/-- R319: what a counter adds, by TMODE. -/
def tmodeAdd (mode thresh prev o : Nat) : Nat :=
  if mode = 0 then o
  else if mode = 1 then b2n (decide (thresh ≤ o))
  else if mode = 2 then b2n (decide (thresh ≤ o) && decide (prev < thresh))
  else b2n (decide (o < thresh))

/-- R321: the event at which a running sum reaches a bound: its context. -/
def reaches (bound : Nat) : Nat → List (Nat × Nat × Nat) → Option Nat
  | _, [] => none
  | n, e :: es => if bound ≤ n + e.2.2 then some e.2.1 else reaches bound (n + e.2.2) es

/-- R317 to R321: a counter of a core at the end of its cycle t. -/
def State.countHpm (s : State) (c t n : Nat) (h : Hpm) : Hpm :=
  let k := s.core c
  let code := bits h.sel 0 8
  let isK := kEvents.contains code
  let es := k.evs.filter (fun e => e.1 == code && (isK || selTakes h.sel e.2.1 (k.ctx e.2.1).prv))
  let o := s.levelO c t code + es.foldl (fun a e => a + e.2.2) 0
  let thresh := bits h.sel 16 12
  let mode := bits h.sel 28 2
  let h' := { h with prev := o }
  if bit k.mcountinhibit n ∨ h.wrote = t + 1 then h'
  else
    let count := h.count + tmodeAdd mode thresh h.prev o
    if h.count < 2 ^ 48 ∧ 2 ^ 48 ≤ count then
      let who := if isK then none else if mode = 0 then reaches (2 ^ 48 - h.count) 0 es else if mode = 3 then none else reaches (max thresh 1) 0 es
      let done := who.bind (fun i => if [5, 10, 11].contains code || (k.ctx i).acc.isSome then none else k.retire.find? (fun r => r.ctx == i))
      { h' with count := count, who := who, inst := done }
    else { h' with count := count }

/-- R317 to R319: the counters of a core at the end of its cycle t, whose events and completions are then past. -/
def State.countCore (s : State) (c t : Nat) : State :=
  s.modCore c (fun k => { k with hpm := k.hpm.map (fun e => (e.1, s.countHpm c t e.1 e.2)), evs := [], retire := [] })

/-- R320, R321: a core counter wraps: OF, LCOFIP of its owner, and a sample where SAMPLE = 1. -/
def execCounterWrap (core n : Nat) (s : State) : Out :=
  let k := s.core core
  let h := k.hpmOf n
  if h.count < 2 ^ 48 then .next s
  else
    let k := k.setHpm n { h with count := h.count - 2 ^ 48, sel := setBit h.sel 63 true, who := none, inst := none }
    let k := if h.owner < 1024 ∧ bit h.sel 31 then k.intWake (s.cyc core) h.owner else k
    let k :=
      if !bit h.sel 30 then k
      else
        match h.inst, h.who with
        | some r, _ => { k with smpDue := k.smpDue ++ [(n, some r)] }
        | none, none => { k with smpWait := k.smpWait ++ [n] }
        | none, some i =>
          if (k.ctx i).st = .empty then { k with smpDue := k.smpDue ++ [(n, none)] } else k.modCtx i (fun x => { x with smp := x.smp ++ [n] })
    .next (s.setCore core k)

/-- R322, R323: the record of an instruction for a counter. -/
def State.sampleOf (s : State) (c n : Nat) (r : Retire) : SampleRec :=
  { pc := r.pc, addr := r.addr, insn := r.raw, ctx := s.hartid c r.ctx, ctr := n - 3, lat := min (r.done - r.issued) 0xFFFF
    event := bits ((s.core c).hpmOf n).sel 0 8, flags := r.flags % 64 + r.prv.code * 64, time := bits s.tb 0 32 }

/-- CD_SMPSTATl.BUFFERED: records in the buffer. -/
def State.showBuffered (s : State) (c : Nat) : State := s.fput .cdSmpstatBuffered (dieOf c) (c % 20) (s.core c).sbuf.length

/-- R321, R324: a sample's instruction is known: its record is buffered, or counted in LOST or DROP. -/
def execSampleRecord (core n : Nat) (s : State) : Out :=
  let k := s.core core
  match k.smpDue.find? (fun d => d.1 == n) with
  | none => .next s
  | some (m, r) =>
    let s := s.setCore core { k with smpDue := k.smpDue.erase (m, r), spillFull := false }
    match r with
    | none => .next (s.fbump .cdSmpstatDrop (dieOf core) (core % 20))
    | some r =>
      if 64 ≤ k.sbuf.length then .next (s.fbump .cdSmpstatLost (dieOf core) (core % 20))
      else .next ((s.modCore core (fun k => { k with sbuf := k.sbuf ++ [s.sampleOf core n r] })).showBuffered core)

/-- R322: the 32 bytes of a record, as a number. -/
def SampleRec.num (r : SampleRec) : Nat :=
  r.pc.toNat + r.addr.toNat * 2 ^ 64 + r.insn.toNat * 2 ^ 128 + (r.ctx % 2 ^ 21 + r.ctr % 8 * 2 ^ 21) * 2 ^ 160 + r.lat * 2 ^ 192 +
    r.event * 2 ^ 208 + r.flags * 2 ^ 216 + r.time * 2 ^ 224

/-- R324: CD_SMPRINGl.BASE and CD_SMPHDRl.HDR as addresses. -/
def State.smpBase (s : State) (c : Nat) : Nat := s.fget .cdSmpringBase (dieOf c) (c % 20) * 2 ^ 16

/-- R324: the address of the header pair. -/
def State.smpHdr (s : State) (c : Nat) : Nat := s.fget .cdSmphdrHdr (dieOf c) (c % 20) * 128

/-- R324: the records that fit leave the buffer, two to a line; an odd last one goes with padding at CS3 entry only. -/
def State.spillLines (s : State) (c room : Nat) (cs3 : Bool) : State :=
  let k := s.core c
  let size := 2 ^ s.fget .cdSmpringK (dieOf c) (c % 20)
  let m := min (room / 2) ((k.sbuf.length + b2n cs3) / 2)
  let put := fun (z : State × List Nat) (i : Nat) =>
    let a := (k.sbuf[2 * i]?).map SampleRec.num |>.getD 0
    let b := (k.sbuf[2 * i + 1]?).map SampleRec.num |>.getD 0
    let pa := s.smpBase c + (k.smpPi + 2 * i) % size * 32
    let r := z.1.ncSend (.smp c) .record true pa 64 (BitVec.ofNat 512 (a + b * 2 ^ 256)) false 3
    (r.2, z.2 ++ [r.1])
  let (s, ids) := (List.range m).foldl put (s, [])
  (s.modCore c (fun k => { k with sbuf := k.sbuf.drop (2 * m), smpPi := (k.smpPi + 2 * m) % 2 ^ 32
                                  spill := if m = 0 then none else some { wrs := ids }
                                  spillFull := cs3 && decide (2 * m < k.sbuf.length) })).showBuffered c

/-- R324, R262: a core is due to enter CS3 but for its buffered samples. -/
def State.spillForCs3 (s : State) (c : Nat) : Bool :=
  decide (3 ≤ s.fget .pwrCorectlDeepest c) && s.coreMay c 2 && decide ((s.core c).cst ≠ .cs3) && !(s.core c).spillFull

/-- R324: a core spills: it reads CI at the MSC; when that returns, it writes the records that fit. A read that fails leaves no room (DEDUCED, log
26). -/
def execSampleSpill (core : Nat) (s : State) : Out :=
  let k := s.core core
  let n := k.sbuf.length
  let cs3 := s.spillForCs3 core
  match k.spill with
  | none =>
    if s.fget .cdSmpringEn (dieOf core) (core % 20) = 1 ∧ (32 ≤ n ∨ (1 ≤ n ∧ cs3)) then
      let (id, s) := s.ncSend (.smp core) .hdr false (s.smpHdr core + 64) 4 0 false 3
      .next (s.modCore core (fun k => { k with spill := some { rd := some id } }))
    else .next s
  | some p =>
    match p.rd.bind (fun id => s.home.ncDone.find? (fun r => r.id == id && !r.dram && decide (r.at_ ≤ s.fcyc))) with
    | none => .next s
    | some r =>
      let s := { s with home := { s.home with ncDone := s.home.ncDone.filter (fun q => q.id != r.id) } }
      if s.fget .cdSmpringEn (dieOf core) (core % 20) = 0 then .next (s.modCore core (fun k => { k with spill := none }))
      else
        let ci := bits r.val 0 32
        let used := (k.smpPi + 2 ^ 32 - ci) % 2 ^ 32
        let room := if r.status = 0 then 2 ^ s.fget .cdSmpringK (dieOf core) (core % 20) - used else 0
        .next (s.spillLines core room cs3)

/-- R324: the header's first line: PI and LOST (DEDUCED, log 26: bytes 4 to 7 between them are written as zeros). -/
def State.smpHeader (s : State) (c : Nat) : Nat × State :=
  s.ncSend (.smp c) .hdr true (s.smpHdr c) 12
    (BitVec.ofNat 512 ((s.core c).smpPi + s.fget .cdSmpstatLost (dieOf c) (c % 20) * 2 ^ 64)) false 3

/-- R324: every record write of a spill is acknowledged and the header is written; the header's own acknowledgement ends the spill. -/
def execSampleSpillAck (core : Nat) (s : State) : Out :=
  let done := fun (id : Nat) => s.home.ncDone.any (fun r => r.id == id && !r.dram && decide (r.at_ ≤ s.fcyc))
  match (s.core core).spill with
  | none => .next s
  | some p =>
    match p.rd, p.hdr with
    | some _, _ => .next s
    | none, some id =>
      if done id then
        .next ({ s with home := { s.home with ncDone := s.home.ncDone.filter (fun q => q.id != id) } }.modCore core (fun k => { k with spill := none }))
      else .next s
    | none, none =>
      if p.wrs.all done then
        let s := { s with home := { s.home with ncDone := s.home.ncDone.filter (fun q => !p.wrs.contains q.id) } }
        if s.fget .cdSmpringEn (dieOf core) (core % 20) = 0 then .next (s.modCore core (fun k => { k with spill := none }))
        else
          let (id, s) := s.smpHeader core
          .next (s.modCore core (fun k => { k with spill := some { hdr := some id } }))
      else .next s

/-- R325: an area lies in a partition's windows, byte for byte. -/
def State.areaIn (s : State) (p base len : Nat) : Bool :=
  (List.range ((base + len - 1) / 2 ^ 30 + 1 - base / 2 ^ 30)).all (fun i => s.inWindows p ((base / 2 ^ 30 + i) * 2 ^ 30))

/-- R325: every unit of an area of this package is fired. -/
def State.areaFired (s : State) (base len : Nat) : Bool :=
  (List.range ((base + len - 1) / 2 ^ 30 + 1 - base / 2 ^ 30)).all (fun i =>
    pkgOf ((base / 2 ^ 30 + i) * 2 ^ 30) ≠ s.pkg || s.fired ((base / 2 ^ 30 + i) % 2 ^ 14))

/-- R325: why a sample ring may not be enabled. -/
def State.smpReason (s : State) (c : Nat) : Option Nat :=
  let k := s.fget .cdSmpringK (dieOf c) (c % 20)
  let base := s.smpBase c
  let len := 2 ^ (k + 5)
  let hdr := s.smpHdr c
  if (s.core c).spill.isSome then some rBusyDraining
  else
    match s.corePart c with
    | none => some rNotPermitted
    | some p =>
      if k < 6 ∨ 20 < k ∨ (hdr < base + len ∧ base < hdr + 128) then some rBadParameter
      else if !s.areaIn p base len || !s.areaIn p hdr 128 then some rNotPermitted
      else if !s.areaFired base len || !s.areaFired hdr 128 then some rPartMemNotFired
      else none

/-- R324, R325: CD_SMPRINGl written: K and BASE while EN reads 0, then the enable and its check; clearing EN discards the buffer. An accepted enable
writes PI = 0 and LOST = 0. -/
def State.smpPut (s : State) (c : Nat) (v : W64) : State :=
  let d := dieOf c
  let l := c % 20
  if s.fget .cdSmpringEn d l = 1 then
    if bit v 0 then s
    else ((s.fput .cdSmpringEn d l 0).modCore c (fun k => { k with sbuf := [] })).showBuffered c
  else
    let s := s.rwrite .cdSmpring d l (setBit v 0 false)
    if !bit v 0 then s
    else
      match s.smpReason c with
      | some r => s.fput .cdSmpstatReason d l r
      | none =>
        let s := ((s.fput .cdSmpringEn d l 1).fput .cdSmpstatLost d l 0).modCore c (fun k => { k with smpPi := 0, spillFull := false })
        let (id, s) := s.smpHeader c
        s.modCore c (fun k => { k with spill := some { hdr := some id } })

/-- R325: a write of CD_SMPRINGl. -/
def execSmpRingEnable (q : Req) (die l : Nat) (v : W64) (s : State) : Out :=
  s.regWrite q .cdSmpring die l v (fun s => s.smpPut (die * 20 + l) v)

/-- R326: the selectors and the counters of a block kind's banks: 0 home slice, 1 memory controller, 2 reel slot, 3 root port, 4 DMA engine. -/
def pmuKinds (kind : Nat) : RegKind × RegKind :=
  match kind with
  | 0 => (.pmuHsSel, .pmuHsCtr)
  | 1 => (.pmuMcSel, .pmuMcCtr)
  | 2 => (.pmuReelSel, .pmuReelCtr)
  | 3 => (.pmuRptSel, .pmuRptCtr)
  | _ => (.pmuDmaSel, .pmuDmaCtr)

/-- R327: O of the block events that are a level in the F-cycle that ends, for a partition or (64) for all. -/
def State.blockO (s : State) (kind code idx part : Nat) : Nat :=
  let mine := fun (p : Nat) => decide (part = 64) || decide (p = part)
  let none' := decide (part = 64)
  match kind, code with
  | 0, 1 => b2n none'
  | 1, 1 => b2n none'
  | 3, 1 => b2n none'
  | 0, 3 => ((s.slice idx).arr.filter (fun m => mine m.part)).length
  | 0, 4 => ((s.slice idx).trk.filter (fun t => !t.active && mine t.req.part)).length
  | 0, 5 => b2n (none' && (s.slotOwner idx s.fcyc).isSome && decide ((s.slice idx).lastAdmit ≠ some s.fcyc))
  | 0, 10 => ((s.slice idx).trk.filter (fun t => mine t.req.part)).length
  | 1, 7 => (s.mem.reads.filter (fun r => decide (mcOf (r.line * 64) = idx) && mine ((s.linePart r.line).getD 64))).length
  | 2, 7 => ((s.rport idx).txq.filter (fun c => !(s.rport idx).mayTake c && mine ((cellOwner c).getD 64))).length
  | 4, 4 => ((List.range 32).filter (fun i => (Tab.get {} s.dmaCh (idx * 32 + i)).barPend &&
      (List.range 64).any (fun p => s.partHasDma p (idx * 32 + i) && mine p))).length
  | _, _ => 0

/-- R326: the key of a bank counter. -/
def bankNo (kind idx n : Nat) : Nat := (kind * 32 + idx) * 8 + n

/-- R319, R326, R328: a bank counter at the end of an F-cycle. -/
def State.countBank (s : State) (kind idx n : Nat) : State :=
  let (sel, ctr) := pmuKinds kind
  let v := s.rget sel idx n
  let code := bits v 0 8
  let part := if bit v 9 then bits v 10 6 else 64
  let es := s.pmu.evs.filter (fun e => e.1 == kind * 16 + code && e.2.1 == idx && (decide (part = 64) || e.2.2.1 == part))
  let o := if 16 ≤ code then 0 else s.blockO kind code idx part + es.foldl (fun a e => a + e.2.2.2) 0
  let b := Tab.get {} s.pmu.banks (bankNo kind idx n)
  let count := (s.rget ctr idx n).toNat + tmodeAdd (bits v 28 2) (bits v 16 12) b.prev o
  let b' : Bank := { exceed := b.exceed + count / 2 ^ 48, prev := o }
  let s := s.rput ctr idx n (BitVec.ofNat 64 (count % 2 ^ 48))
  { s with pmu := { s.pmu with banks := Tab.put {} s.pmu.banks (bankNo kind idx n) b' } }

/-- R326: the bank counters that run: kind, block and number. -/
def State.banksRunning (s : State) : List (Nat × Nat × Nat) :=
  (List.range 5).flatMap (fun kind => ((s.regsOf (pmuKinds kind).1).filter (fun e => bit e.2.2 8)).map (fun e => (kind, e.1, e.2.1)))

/-- R326: every block counter at the end of an F-cycle, whose events are then past. -/
def State.countBlocks (s : State) : State :=
  let s := s.banksRunning.foldl (fun s b => s.countBank b.1 b.2.1 b.2.2) s
  { s with pmu := { s.pmu with evs := [] } }

/-- R328: a block counter wraps: OF, and the route of its block kind where INT = 1. -/
def execBlockCounterWrap (kind idx n : Nat) (s : State) : Out :=
  let b := Tab.get {} s.pmu.banks (bankNo kind idx n)
  let (sel, _) := pmuKinds kind
  if b.exceed = 0 ∨ 5 ≤ kind then .next s
  else
    let s := { s with pmu := { s.pmu with banks := Tab.put {} s.pmu.banks (bankNo kind idx n) { b with exceed := b.exceed - 1 } } }
    let s := s.rput sel idx n (setBit (s.rget sel idx n) 63 true)
    .next (if bit (s.rget sel idx n) 30 then s.fireRoute (420 + kind) else s)

/-- R329: a window's interval ends: its totals are latched, SEQ advances and it counts again; those of a window set from a mailbox are logged. -/
def execBwWindowInterval (w : Nat) (s : State) : Out :=
  let start := Tab.get 0 s.pmu.bwStart w
  let n := s.fget .bwwCfgInterval w
  if w < 32 ∧ s.fget .bwwCfgRun w = 1 ∧ start + n ≤ s.fcyc then
    let a := Tab.get 0 s.pmu.bwA w
    let b := Tab.get 0 s.pmu.bwB w
    let seq := (s.fget .bwwSeqSeq w + 1) % 2 ^ 32
    let s := ((s.rput .bwwA w 0 (BitVec.ofNat 64 a)).rput .bwwB w 0 (BitVec.ofNat 64 b)).rput .bwwSeq w 0 (BitVec.ofNat 64 seq)
    let s := { s with pmu := { s.pmu with bwA := Tab.put 0 s.pmu.bwA w 0, bwB := Tab.put 0 s.pmu.bwB w 0
                                          bwStart := Tab.put 0 s.pmu.bwStart w (start + n) } }
    .next (if s.fget .bwwCfgMbx w = 1 then
      s.logEvent { cls := 0, event := 0x80, kind := 11, idx := w, part := some (s.fget .bwwCfgPart w)
                   detail := a % 2 ^ 64 + b % 2 ^ 64 * 2 ^ 64 + seq * 2 ^ 128 } else s)
  else .next s

end Sys2Proof.Machine
end

