-- ==== Sys2Proof/Machine/Partition.lean ====
section
/-! DEFINITION. Partitions: their resources, the enable check, their lifecycle over a span, and the partition commands (R142, R179, R180, R182, R227 to
R235, R249). -/

namespace Sys2Proof.Machine

/-- R231: a partition number in use on this package. -/
def State.partsUsed (s : State) : List Nat := (List.range 64).filter (fun p => decide (s.partState p ≠ 0))

/-- The partitions other than one that are in use. -/
def State.otherParts (s : State) (p : Nat) : List Nat := s.partsUsed.filter (fun q => decide (q ≠ p))

/-- PRT_CTLp.SPAN as a list of packages. -/
def State.spanOf (s : State) (p : Nat) : List Nat := (List.range 8).filter (fun q => bit (BitVec.ofNat 8 (s.fget .prtCtlSpan p)) q)

/-- R234: the other packages of a partition's span that are not lost. -/
def State.spanOthers (s : State) (p : Nat) : List Nat := (s.spanOf p).filter (fun q => decide (q ≠ s.pkg) && s.member q)

/-- The valid windows of a partition on this package: base and length in units. -/
def State.windowsOf (s : State) (p : Nat) : List (Nat × Nat) :=
  (List.range 16).filterMap (fun w =>
    let v := s.rget .prtWin p w
    if bit v 0 then some (bits v 8 22, bits v 32 15) else none)

/-- The cores of a partition on this package. -/
def State.coresHeld (s : State) (p : Nat) : List Nat := (List.range 240).filter (fun c => s.partHasCore p c)

/-- R142: the grants of all pairs but those of one partition fit beside the given grants, by die. -/
def State.grantsFit (s : State) (p : Nat) (mine : List Nat) : Bool :=
  let others := (s.regsOf .cdCrgrant).foldl (fun a e => if e.2.1 = p then a else a + bits e.2.2 0 13) 0
  decide (others + mine.foldl (· + ·) 0 + s.fget .hsTrkcfgReel 0 ≤ 4096)

/-- The grants of a partition by die. -/
def State.grantsOf (s : State) (p : Nat) : List Nat := (List.range 12).map (fun d => s.fget .cdCrgrantGrant d p)

/-- R179: the MSC mask of a partition. -/
def State.wayMask (s : State) (p : Nat) : Nat := s.fget .hsMscwayWays 0 p

/-- R179: masks of which two would overlap where an ISO-T partition needs its own. -/
def State.masksClash (s : State) (p m : Nat) : Bool :=
  (s.otherParts p).any (fun q => (s.isot p || s.isot q) && m &&& s.wayMask q != 0)

/-- R179: a partition's mask written in every slice; EXCL shows that an ISO-T partition holds it alone. -/
def State.setWays (s : State) (p m : Nat) : State :=
  let excl := b2n (s.isot p && !s.masksClash p m)
  (List.range 16).foldl (fun s n => s.rput .hsMscway n p (BitVec.ofNat 64 (m % 2 ^ 16 + excl * 2 ^ 16))) s

/-- R145: the home-wheel slots a partition owns. -/
def State.homeSlots (s : State) (p : Nat) : List Nat :=
  (List.range 64).filter (fun n => bits (s.rget .hsWheel 0 (n / 8)) (8 * (n % 8)) 7 == p + 64)

/-- R219: the flit slots a partition owns on a reel slot's transmitter. -/
def State.flitSlots (s : State) (k p : Nat) : List Nat :=
  (List.range 64).filter (fun n => bits (s.rget .reelWheel k (n / 8)) (8 * (n % 8)) 7 == p + 64)

/-- R145: a home wheel with one partition's slots replaced. -/
def State.setHomeSlots (s : State) (p mask : Nat) : State :=
  (List.range 64).foldl (fun s n =>
    let mine := bits (s.rget .hsWheel 0 (n / 8)) (8 * (n % 8)) 7 == p + 64
    let want := mask / 2 ^ n % 2 == 1
    if mine == want then s
    else (List.range 16).foldl (fun s i =>
      s.rput .hsWheel i (n / 8) (setBits (s.rget .hsWheel i (n / 8)) (8 * (n % 8)) 7 (if want then p + 64 else 0))) s) s

/-- R219: a reel wheel with one partition's slots replaced. -/
def State.setFlitSlots (s : State) (k p mask : Nat) : State :=
  (List.range 64).foldl (fun s n =>
    let mine := bits (s.rget .reelWheel k (n / 8)) (8 * (n % 8)) 7 == p + 64
    let want := mask / 2 ^ n % 2 == 1
    if mine == want then s
    else s.rput .reelWheel k (n / 8) (setBits (s.rget .reelWheel k (n / 8)) (8 * (n % 8)) 7 (if want then p + 64 else 0))) s

/-- R182: two wheel slots of different ISO-T partitions are far enough apart. -/
def spaced (g a b : Nat) : Bool :=
  let d := (a + 64 - b) % 64
  let d := min d (64 - d)
  decide (g ≤ d) && decide (d ≠ 28)

/-- R182: G. -/
def State.wheelGap (s : State) : Nat := if 2 ≤ s.fget .mcCfgSpeed 0 then 8 else 10

/-- R182: the given slots of an ISO-T partition keep their distance from every other ISO-T partition's. -/
def State.slotsSpaced (s : State) (p : Nat) (mine : List Nat) : Bool :=
  (s.otherParts p).all (fun q => !s.isot q || (s.homeSlots q).all (fun b => mine.all (fun a => spaced s.wheelGap a b)))

/-- R175, R182: units of a physical-rank stripe. -/
def State.rankUnits (s : State) : Nat := s.stripe * 2 ^ s.fget .mcCfgStack 0 / 2 ^ 30

/-- R182, R227: a partition's windows on this package cover whole physical-rank stripes. -/
def State.wholeStripes (s : State) (p : Nat) : Bool :=
  let ws := (s.windowsOf p).map (fun w => (w.1 - s.pkg * 2 ^ 14, w.2))
  let n := max 1 s.rankUnits
  (List.range (2 ^ 14 / n)).all (fun i =>
    let got := ws.foldl (fun a w => a + (min (w.1 + w.2) ((i + 1) * n) - max w.1 (i * n))) 0
    got == 0 || got == n)

/-- R227, R233 check 9: what an ISO-T partition needs is there. -/
def State.isoTMet (s : State) (p : Nat) : Bool :=
  let span := s.spanOf p
  (List.range 12).all (fun d => !(coresOf d).any (fun c => s.partHasCore p c) || (coresOf d).all (fun c => s.partHasCore p c)) &&
    s.wholeStripes p && (decide (span.length < 2) || decide (1 ≤ (s.part p).reelRes)) &&
    !(s.homeSlots p).isEmpty && s.slotsSpaced p (s.homeSlots p) &&
    (s.spanOthers p).all (fun q => (s.bundle q).all (fun k => !(s.flitSlots k p).isEmpty))

/-- R233 checks 3 to 9: what a partition holds may be enabled. -/
def State.resultReason (s : State) (p : Nat) : Nat :=
  let cores := s.coresHeld p
  let ws := s.windowsOf p
  if cores.isEmpty && (s.part p).remCore.isEmpty then rPartNoCores
  else if (s.otherParts p).any (fun q => cores.any (fun c => s.partHasCore q c)) then rPartCoreOverlap
  else if (s.otherParts p).any (fun q => (s.windowsOf q).any (fun v => ws.any (fun w => decide (v.1 < w.1 + w.2) && decide (w.1 < v.1 + v.2)))) then
    rPartMemOverlap
  else if ws.any (fun w => (List.range w.2).any (fun i => !s.fired ((w.1 + i) % 2 ^ 14))) then rPartMemNotFired
  else if !s.grantsFit p (s.grantsOf p) then rPartCreditOvercommit
  else if s.wayMask p = 0 ∨ (s.isot p ∧ s.masksClash p (s.wayMask p)) then rPartMscWaysOvercommit
  else if s.isot p && !s.isoTMet p then rPartIsolationUnmet
  else 0

/-- R233 checks 1 to 9, as this package can make them. -/
def State.enableReason (s : State) (p : Nat) : Nat :=
  if s.partState p = 3 then rBusyDraining
  else if s.partState p ≠ 1 then rPartState
  else if (s.spanOf p).any (fun q => !s.member q) then rLinkPeerLost
  else s.resultReason p

/-- R232: an addition in a state: refused, or (0) accepted. -/
def State.addState (s : State) (p : Nat) : Nat :=
  match s.partState p with
  | 0 => rPartState
  | 3 => rBusyDraining
  | _ => 0

/-- R232: a removal in a state. -/
def State.dropState (s : State) (p : Nat) : Nat :=
  match s.partState p with
  | 1 => 0
  | 3 => rBusyDraining
  | _ => rPartState

/-- R234: this package's windows and core map of a partition told to its span. -/
def State.tellSpan (s : State) (p : Nat) : State :=
  (s.spanOthers p).foldl (fun s q =>
    s.krelaySend q (.windowCopy p s.pkg ((List.range 16).map (fun w => s.rget .prtWin p w)) ((List.range 4).map (fun i => s.rget .prtCore p i)))) s

/-- R232, R233: the result of an addition, or of new quality of service, stands for an ENABLED partition only where it passes the checks; otherwise nothing
changes. -/
def State.kaddReply (s t : State) (id p : Nat) (result : W64) (go : State → State) : State :=
  let r := if s.partState p = 2 then t.resultReason p else 0
  if r ≠ 0 then s.kreply id r else (go t).kreply id 0 result

/-- R249: the core mask of P1 to P4. -/
def KCmd.coreMask (c : KCmd) : List Nat := (List.range 256).filter (fun n => bit (c.p (1 + n / 64)) (n % 64))

/-- R142, R339: a core leaves a partition: its spill area and sample ring are disabled (R262, R324), and it is reset. -/
def State.dropCore (s : State) (p c : Nat) : State :=
  let s := (s.setMapBit .prtCore p c false).fput .pwrSpillEn c 0 0
  let s := if s.fget .cdSmpringEn (dieOf c) (c % 20) = 1 then s.smpPut c 0 else s
  s.startCoreReset c (some p)

/-- R142: a partition's first core on a die makes the pair with a grant of 16. -/
def State.makePairs (s : State) (p : Nat) (cores : List Nat) : State :=
  ((cores.map dieOf).eraseDups.foldl (fun s d => if s.fget .cdCrgrantGrant d p = 0 then s.fput .cdCrgrantGrant d p 16 else s) s).showGrants

/-- R232, R249: PART_ASSIGN_CORES. -/
def execPartAssignCores (id : Nat) (s : State) : Out :=
  s.krun id 0x0101 (fun c s =>
    let p := bits (c.p 0) 0 6
    let cores := c.coreMask
    let held := fun (s : State) => BitVec.ofNat 64 (s.coresHeld p).length
    if cores.any (fun n => decide (240 ≤ n)) then s.kreply id rBadParameter
    else if bit (c.p 0) 6 then
      let r := s.dropState p
      if r ≠ 0 then s.kreply id r
      else
        let s := ((cores.filter (fun n => s.partHasCore p n)).foldl (fun s n => s.dropCore p n) s).tellSpan p
        s.kreply id 0 (held s)
    else
      let r := s.addState p
      let new := cores.filter (fun n => !s.partHasCore p n)
      if r ≠ 0 then s.kreply id r
      else if (s.otherParts p).any (fun q => cores.any (fun n => s.partHasCore q n)) then s.kreply id rPartCoreOverlap
      else
        let t := (new.foldl (fun s n => s.setMapBit .prtCore p n true) s).makePairs p new
        if !t.grantsFit p (t.grantsOf p) then s.kreply id rPartCreditOvercommit
        else s.kaddReply t id p (held t) (fun t => (new.foldl (fun s n => s.startCoreReset n none) t).tellSpan p))

/-- R232: what an enabled function keeps in memory lies in a byte range: a spill area, a sample ring or header pair, a DMA channel's ring, trigger or
completion line. -/
def State.memInUse (s : State) (lo hi : Nat) : Bool :=
  let hits := fun (b n : Nat) => decide (b < hi) && decide (lo < b + n)
  (List.range 240).any (fun c => s.fget .pwrSpillEn c == 1 && hits (s.fget .pwrSpillBase c * 2 ^ 20) (2 ^ 20)) ||
    (List.range 240).any (fun c => s.fget .cdSmpringEn (dieOf c) (c % 20) == 1 &&
      (hits (s.smpBase c) (2 ^ (s.fget .cdSmpringK (dieOf c) (c % 20) + 5)) || hits (s.smpHdr c) 128)) ||
    (s.regsOf .dmaChctl).any (fun e => bit e.2.2 0 && (hits (s.fget .dmaChringAddr e.1 e.2.1 * 64) (2 ^ (bits e.2.2 8 5 + 6)) ||
      hits (s.fget .dmaChtrigAddr e.1 e.2.1 * 64) 64 || hits (s.fget .dmaChcplAddr e.1 e.2.1 * 64) 64))

/-- R230: a window of this package given back: its units are unfired and fired again. -/
def State.dropWindow (s : State) (p w : Nat) : State :=
  let v := s.rget .prtWin p w
  if bit v 0 then (s.rput .prtWin p w 0).unfire ((List.range (bits v 32 15)).map (fun i => (bits v 8 22 + i) % 2 ^ 14)) none else s

/-- R232, R249: PART_ASSIGN_MEMORY, with its checks in order. -/
def execPartAssignMemory (id : Nat) (s : State) : Out :=
  s.krun id 0x0102 (fun c s =>
    let p := bits (c.p 0) 0 6
    let base := (c.p 1).toNat
    let n := (c.p 2).toNat
    let u := base / 2 ^ 30
    if bit (c.p 0) 6 then
      let r := s.dropState p
      if r ≠ 0 then s.kreply id r
      else
        match (List.range 16).find? (fun w => s.rget .prtWin p w == BitVec.ofNat 64 (1 + u * 2 ^ 8 + n * 2 ^ 32) && base % 2 ^ 30 == 0) with
        | none => s.kreply id rBadParameter
        | some w =>
          if s.memInUse base (base + n * 2 ^ 30) then s.kreply id rNotPermitted
          else ((s.dropWindow p w).tellSpan p).kreply id 0 (BitVec.ofNat 64 w)
    else
      let r := s.addState p
      let free := (List.range 16).find? (fun w => !bit (s.rget .prtWin p w) 0)
      if r ≠ 0 then s.kreply id r
      else if n = 0 then s.kreply id rBadParameter
      else if base % 2 ^ 30 ≠ 0 then s.kreply id rMemAlign
      else
        match free with
        | none => s.kreply id rMemRangeInvalid
        | some w =>
          if !s.inDram base (n * 2 ^ 30) ∨ s.carveBase < base % 2 ^ 44 + n * 2 ^ 30 then s.kreply id rMemRangeInvalid
          else if s.partsUsed.any (fun q => (s.windowsOf q).any (fun v => decide (v.1 < u + n) && decide (u < v.1 + v.2))) then s.kreply id rPartMemOverlap
          else if (List.range n).any (fun i => !s.fired ((u + i) % 2 ^ 14)) then s.kreply id rPartMemNotFired
          else
            s.kaddReply (s.rput .prtWin p w (BitVec.ofNat 64 (1 + u * 2 ^ 8 + n * 2 ^ 32))) id p (BitVec.ofNat 64 w) (fun t => t.tellSpan p))

/-- R249: the channels of P1 to P4. -/
def KCmd.chanMask (c : KCmd) : List Nat := (List.range 256).filter (fun n => bit (c.p (1 + n / 64)) (n % 64))

/-- R249: the root ports of P5. -/
def KCmd.portMask (c : KCmd) : List Nat := (List.range 64).filter (fun n => bit (c.p 5) n)

/-- R303, R357: a partition's channels and ports taken from it: channels are withdrawn, and BMBLK follows the owner. -/
def State.dropIo (s : State) (p : Nat) (chs ports : List Nat) : State :=
  let s := (chs.filter (fun n => s.partHasDma p n)).foldl (fun s n => (s.dmaStop n).setMapBit .prtIo p n false) s
  (ports.filter (fun n => s.partHasPort p n)).foldl (fun s n =>
    (s.rput .prtIo p 4 (setBit (s.rget .prtIo p 4) n false)).fput .rptCtlBmblk n 0 0) s

/-- R232, R249: PART_ASSIGN_IO. -/
def execPartAssignIo (id : Nat) (s : State) : Out :=
  s.krun id 0x0103 (fun c s =>
    let p := bits (c.p 0) 0 6
    let chs := c.chanMask
    let ports := c.portMask
    if ports.any (fun n => decide (20 ≤ n)) then s.kreply id rBadParameter
    else if bit (c.p 0) 6 then
      let r := s.dropState p
      if r ≠ 0 then s.kreply id r else (s.dropIo p chs ports).kreply id 0
    else
      let r := s.addState p
      if r ≠ 0 then s.kreply id r
      else if ports.any (fun n => bit s.kiln.cfg.reelMask (n / 2)) then s.kreply id rBadParameter
      else if (s.otherParts p).any (fun q => chs.any (fun n => s.partHasDma q n) || ports.any (fun n => s.partHasPort q n)) then s.kreply id rPartIoOverlap
      else
        let new := ports.filter (fun n => !s.partHasPort p n)
        let t := chs.foldl (fun s n => s.setMapBit .prtIo p n true) s
        let t := new.foldl (fun s n => (s.rput .prtIo p 4 (setBit (s.rget .prtIo p 4) n true)).fput .rptCtlBmblk n 0 0) t
        s.kaddReply t id p 0 (fun t => t))

/-- R145, R180: F-cycles of a scan of 8,192 sets, one per open wheel slot. -/
def State.scanTime (s : State) : Nat :=
  let open_ := ((List.range 64).filter (fun n => !bit (s.rget .hsWheel 0 (n / 8)) (8 * (n % 8) + 6))).length
  8192 * 64 / max 16 open_

/-- R180: the isolation scan starts for a partition and the command that waits for it. -/
def State.startScan (s : State) (p id : Nat) : State :=
  { s with home := { s.home with scan := some (p, id, s.fcyc + s.scanTime) } }

/-- R180: the scan's evictions: every line in the partition's ways, and the partition's own lines elsewhere; but what is the partition's own in its own ways
goes too. -/
def State.scanEvict (s : State) (p : Nat) : State :=
  let m := s.wayMask p
  (s.home.msc.filter (fun e => m / 2 ^ e.2.way % 2 == 1 || s.linePart e.1 == some p)).foldl (fun s e => s.evictMsc e.1) s

/-- R249, P4: the QoS items that a command selects, checked for encodings: BAD_PARAMETER. -/
def State.qosBad (s : State) (c : KCmd) (p : Nat) : Bool :=
  let sel := fun i => bit (c.p 0) (8 + i)
  let iso := s.isot p
  (sel 0 && (List.range 12).any (fun d => decide (4096 < bits (c.p (1 + d / 4)) (16 * (d % 4)) 16))) ||
    (sel 1 && !iso && decide (bits (c.p 4) 0 16 ≠ 0)) || (sel 5 && decide (bits (c.p 4) 32 8 = 0)) ||
    (sel 3 && ((!iso && decide (c.p 5 ≠ 0)) || (List.range 64).any (fun n => decide (n % 4 = 3) && bit (c.p 5) n))) ||
    (sel 4 && !iso && (List.range 10).any (fun k => decide (c.p (6 + k) ≠ 0)))

/-- R249: slots of the home wheel that a mask asks for. -/
def maskSlots (m : W64) : List Nat := (List.range 64).filter (fun n => bit m n)

/-- R249: the selected QoS items of a partition applied. -/
def State.qosApply (s : State) (c : KCmd) (p : Nat) : State :=
  let sel := fun i => bit (c.p 0) (8 + i)
  let s := if sel 0 then ((List.range 12).foldl (fun s d =>
      if s.fget .cdCrgrantGrant d p = 0 then s else s.fput .cdCrgrantGrant d p (max 4 (bits (c.p (1 + d / 4)) (16 * (d % 4)) 16))) s).showGrants else s
  let s := if sel 1 then s.modPart p (fun q => { q with reelRes := bits (c.p 4) 0 16 }) else s
  let s := if sel 2 then s.setWays p (bits (c.p 4) 16 16) else s
  let s := if sel 3 then s.setHomeSlots p (c.p 5).toNat else s
  let s := if sel 4 then (List.range 10).foldl (fun s k => s.setFlitSlots k p (c.p (6 + k)).toNat) s else s
  if sel 5 then s.modPart p (fun q => { q with weight := bits (c.p 4) 32 8 }) else s

/-- R142, R179, R182, R249: why the selected QoS items may not be applied together. DEDUCED (log 28): the order among these checks, and that reservations
beyond the reel pool are an overcommitment of credits. -/
def State.qosReason (s : State) (c : KCmd) (p : Nat) : Nat :=
  let sel := fun i => bit (c.p 0) (8 + i)
  let t := s.qosApply c p
  let kept := t.parts.foldl (fun a e => a + e.2.reelRes) 0
  let m := bits (c.p 4) 16 16
  let taken := (s.otherParts p).any (fun q => (s.homeSlots q).any (fun n => bit (c.p 5) n))
  let ftaken := (s.otherParts p).any (fun q => (List.range 10).any (fun k => (s.flitSlots k q).any (fun n => bit (c.p (6 + k)) n)))
  if s.qosBad c p then rBadParameter
  else if (sel 0 ∧ !t.grantsFit p (t.grantsOf p)) ∨ (sel 1 ∧ s.fget .hsTrkcfgReel 0 < kept) then rPartCreditOvercommit
  else if sel 2 ∧ (m = 0 ∨ s.masksClash p m) then rPartMscWaysOvercommit
  else if (sel 3 ∧ (taken ∨ !s.slotsSpaced p (maskSlots (c.p 5)))) ∨ (sel 4 ∧ ftaken) then rPartIsolationUnmet
  else 0

/-- R180, R249: PART_SET_QOS; growing an ISO-T partition's mask waits for the isolation scan, one at a time (R246). -/
def execPartSetQos (id : Nat) (s : State) : Out :=
  s.krun id 0x0104 (fun c s =>
    let p := bits (c.p 0) 0 6
    let r := s.addState p
    let grows := s.isot p && bit (c.p 0) 10 && bits (c.p 4) 16 16 &&& (65535 ^^^ s.wayMask p) != 0
    if grows && s.home.scan.isSome then s
    else if r ≠ 0 then s.kreply id r
    else
      let r := s.qosReason c p
      if r ≠ 0 then s.kreply id r
      else
        let t := s.qosApply c p
        if grows then
          let r := if s.partState p = 2 then t.resultReason p else 0
          if r ≠ 0 then s.kreply id r else (t.startScan p id).krunning id 1
        else s.kaddReply t id p 0 (fun t => t))

/-- R235: a command acts for this package's part of a partition alone: another kiln of the span relayed it. -/
def KCmd.here (c : KCmd) : Bool := match c.src with | .peer _ _ _ _ h => h | _ => false

/-- R234: relays of a command of the span to its other packages. DESIGN CHOICE (log 23): how the kilns of a span agree is the model's. -/
def State.spanRelay (s : State) (c : KCmd) (qs : List Nat) (pkt : List W64) : State := qs.foldl (fun s q => s.krelayCmd c q pkt true) s

/-- R218: relays of a command that have not been answered. -/
def State.relaysOut (s : State) (id : Nat) : Bool := s.reel.relays.any (fun r => r.2.2 == id)

/-- R234: packages whose answer to a relay of a command was OK, or was not. -/
def State.answered (s : State) (id : Nat) (ok : Bool) : List Nat :=
  (s.kiln.got.filter (fun g => g.1 == id && decide (g.2.1 ≠ s.pkg) && decide ((replyStatus g.2.2 = 0) = (ok = true)))).map (fun g => g.2.1)

/-- R241: a two-unit packet of an opcode that names a partition. -/
def partPkt (op p : Nat) : List W64 := [BitVec.ofNat 64 (op + 2 * 2 ^ 32 + 0xFF * 2 ^ 56), BitVec.ofNat 64 p]

/-- R239, R337: a mailbox page zeroed with its registers: a partition reset of it. -/
def State.clearPage (s : State) (p : Nat) : State :=
  let s := (s.rput .mbxStatus p 0 0).rput .mbxDoorbell p 0 0
  { s with kiln := { s.kiln with mbx := s.kiln.mbx.filter (fun e => !(decide (0x1000 * p ≤ e.1) && decide (e.1 < 0x1000 * (p + 1)))) } }

/-- R179: the ways that no ISO-T partition holds. -/
def State.openWays (s : State) (p : Nat) : Nat :=
  (List.range 16).foldl (fun a w => a + if (s.otherParts p).any (fun q => s.isot q && s.wayMask q / 2 ^ w % 2 == 1) then 0 else 2 ^ w) 0

/-- R232, R256, R337: a partition created on this package. -/
def State.makePart (s : State) (p : Nat) (isot plat : Bool) (span : Nat) : State :=
  let s := (s.clearPage p).modPart p (fun _ => {})
  let s := s.rput .prtCtl p 0 (BitVec.ofNat 64 (1 + b2n isot * 4 + b2n plat * 8 + span * 2 ^ 8))
  s.setWays p (s.openWays p)

/-- R230, R232, R337: a partition's number given back: its cores are reset, its windows fired, its IO, ways, slots and routes released, its page zeroed. -/
def State.freePart (s : State) (p : Nat) : State :=
  let s := (s.coresHeld p).foldl (fun s c => s.dropCore p c) (s.clearRoutes p)
  let s := (List.range 16).foldl (fun s w => s.dropWindow p w) s
  let s := s.dropIo p (List.range 256) (List.range 20)
  let s := (List.range 10).foldl (fun s k => s.setFlitSlots k p 0) (s.setHomeSlots p 0)
  let s := (List.range 16).foldl (fun s n => s.rput .hsMscway n p 0) s
  ((s.clearPage p).modPart p (fun _ => {})).rput .prtCtl p 0 0

/-- R249: the span a PART_CREATE asks for. -/
def State.createSpan (s : State) (c : KCmd) : Nat :=
  let n := bits (c.p 0) 16 8
  let t := pktTarget c.pkt
  if n ≠ 0 then n
  else if t < 8 then 2 ^ t
  else ((List.range 8).filter (fun q => s.member q)).foldl (fun a q => a + 2 ^ q) 0

/-- R249, R232: PART_CREATE for this package's part. -/
def State.createReason (s : State) (p : Nat) : Nat :=
  match s.partState p with
  | 0 => 0
  | 3 => rBusyDraining
  | _ => rPartState

/-- R232, R234, R249: PART_CREATE: on every package of SPAN or on none. The row again, once every other package has answered, ends it. -/
def execPartCreate (id : Nat) (s : State) : Out :=
  match s.kfind id with
  | none => .next s
  | some c =>
    let p := bits (c.p 0) 0 6
    let span := s.createSpan c
    let mine := span / 2 ^ s.pkg % 2 == 1
    let others := (List.range 8).filter (fun q => decide (q ≠ s.pkg) && span / 2 ^ q % 2 == 1)
    let result := BitVec.ofNat 64 span
    if !c.started ∨ pktOp c.pkt ≠ 0x0100 then .next s
    else if c.running then
      if c.acc ≠ 1 ∨ s.relaysOut id then .next s
      else if (s.answered id false).isEmpty then .next (s.kreply id 0 result)
      else
        let s := if mine then s.freePart p else s
        .next ((s.spanRelay c (s.answered id true) (partPkt 0x0107 p)).kreply id 0 result)
    else if others.any (fun q => !s.member q) then .next (s.kreply id rLinkPeerAbsent)
    else
      let r := if mine then s.createReason p else 0
      if r ≠ 0 then .next (s.kreply id r)
      else
        let s := if mine then s.makePart p (bit (c.p 0) 8) (bit (c.p 0) 9) span else s
        if c.here ∨ others.isEmpty then .next (s.kreply id 0 result)
        else .next ((s.spanRelay c others [c.pkt.getD 0 0, setBits (c.p 0) 16 8 span]).krunning id 1)

/-- R249: the first context of PART_ENABLE: its package, core and slot, on a core of the partition. -/
def State.firstCtx (s : State) (c : KCmd) (p : Nat) : Option (Nat × Nat × Nat) :=
  (if (c.p 2).toNat < 2 ^ 21 then hartParts (c.p 2).toNat else none).filter (fun h => s.coreOfPart p h.1 h.2.1 && (s.spanOf p).contains h.1)

/-- R233, R249: the first context becomes READY, where it is this package's; held while the package holds contexts (R266). -/
def State.startFirst (s : State) (c : KCmd) (p : Nat) : State :=
  match s.firstCtx c p with
  | none => s
  | some (q, core, i) =>
    if q ≠ s.pkg then s
    else
      let hold := decide (s.fget .pwrStatusHosthold = 1)
      let x : Ctx := { st := .ready, prv := .m, pc := c.p 1, hold := hold, x := Tab.put 0 (Tab.put 0 [] 10 (c.p 2)) 11 (c.p 3) }
      let s := if hold then { s with pwr := { s.pwr with held := s.pwr.held ++ [core * 1024 + i] } } else s
      s.modCore core (fun k => ((k.setCtx i x).enqueue i false).noteChange (s.cyc core))

/-- R233, R234: PART_ENABLE goes on once the scan has ended and every other package has answered: on all, or on none. -/
def State.enableNext (s : State) (c : KCmd) (p : Nat) : State :=
  let id := c.id
  if s.home.scan.any (fun x => x.2.1 == id) ∨ s.relaysOut id then s
  else if c.here then s.kreply id 0
  else if c.acc = 2 then s.kreply id 0
  else if !(s.answered id false).isEmpty then
    ((s.fput .prtCtlState p 0 1).spanRelay c (s.answered id true) (partPkt 0x0106 p)).kreply id 0
  else
    match s.firstCtx c p with
    | some (q, _, _) => if q = s.pkg then (s.startFirst c p).kreply id 0 else (s.spanRelay c [q] c.pkt).krunning id 2
    | none => s.kreply id rBadParameter

/-- R233, R234, R249: PART_ENABLE: the checks; on a package of the span that another kiln asks, its own part; the first context last. R336:
during boot the enable of partition 0 waits on each member until its window is fired. -/
def execPartEnable (id : Nat) (s : State) : Out :=
  match s.kfind id with
  | none => .next s
  | some c =>
    let p := bits (c.p 0) 0 6
    if !c.started ∨ pktOp c.pkt ≠ 0x0105 then .next s
    else if c.running then .next (if c.acc = 0 then s else s.enableNext c p)
    else if c.here && decide (s.partState p = 2) then .next ((s.startFirst c p).kreply id 0)
    else
      let r := s.enableReason p
      if c.here && decide (p = 0) && decide (r = rPartMemNotFired) && decide (s.fget .glbBootstatStage < 10) then .next s
      else if r ≠ 0 then .next (s.kreply id r)
      else if (s.firstCtx c p).isNone then .next (s.kreply id rBadParameter)
      else if s.isot p && s.home.scan.isSome then .next s
      else
        let s := s.fput .prtCtlState p 0 2
        let s := if s.isot p then (s.setWays p (s.wayMask p)).startScan p id else s
        let s := if c.here then s else s.spanRelay c (s.spanOthers p) c.pkt
        .next ((s.krunning id 1).enableNext { c with acc := 1 } p)

/-- R180: the isolation scan has ended, and the command that waits for it goes on. -/
def execMscScanDone (s : State) : Out :=
  match s.home.scan with
  | none => .next s
  | some (p, id, end_) =>
    if s.fcyc < end_ then .next s
    else
      let s := { s.scanEvict p with home := { (s.scanEvict p).home with scan := none } }
      match s.kfind id with
      | none => .next s
      | some c => .next (if pktOp c.pkt = 0x0105 then s.enableNext c p else s.kreply id 0)

/-- R237: commands of a partition's mailbox that are accepted and not started are discarded, and their slots are free. -/
def State.dropMailbox (s : State) (p keep : Nat) : State :=
  let gone := s.kiln.cmds.filter (fun c => !c.started && decide (c.id ≠ keep) && (match c.src with | .mbx q _ _ => q == p | _ => false))
  let slots := gone.filterMap (fun c => match c.src with | .mbx _ n _ => some n | _ => none)
  let s := { s with kiln := { s.kiln with cmds := s.kiln.cmds.filter (fun c => !gone.contains c) } }
  s.fput .mbxStatusBusy p 0 (slots.foldl (fun b n => b - b / 2 ^ n % 2 * 2 ^ n) (s.fget .mbxStatusBusy p))

/-- R229, R235, R237, R341: a partition's part on this package starts to drain. -/
def State.startDrain (s : State) (p id : Nat) : State :=
  let s := s.fput .prtCtlState p 0 3
  let s := s.fput .prtCtlSpan p 0 (s.fget .prtCtlSpan p &&& (255 ^^^ s.fget .prtCtlLostspan p)) |>.fput .prtCtlLostspan p 0 0
  let s := (s.modPart p (fun q => { q with disableCmd := some id })).clearRoutes p
  let s := (List.range 256).foldl (fun s n => if s.partHasDma p n then s.dmaStop n else s) s
  let s := (List.range 20).foldl (fun s n => if s.partHasPort p n then s.fput .rptCtlBmblk n 0 1 else s) s
  ((s.coresHeld p).foldl (fun s c => s.startCoreReset c none) s).dropMailbox p id

/-- R229, R232, R234: PART_DISABLE, on the whole span; the reply follows DRAINING everywhere. -/
def execPartDisable (id : Nat) (s : State) : Out :=
  s.krun id 0x0106 (fun c s =>
    let p := bits (c.p 0) 0 6
    if p = 0 then s.kreply id rNotPermitted
    else
      match s.partState p with
      | 0 => s.kreply id rPartState
      | 1 => s.kreply id 0
      | 3 => s.kreply id rBusyDraining
      | _ =>
        let s := (s.startDrain p id).krunning id 1
        if c.here then s else s.spanRelay c (s.spanOthers p) (partPkt 0x0106 p))

/-- R229: nothing of a DRAINING partition is outstanding on this package. -/
def State.drained (s : State) (p : Nat) : Bool :=
  let cmd := (s.part p).disableCmd
  (s.coresHeld p).all (fun c => !(s.core c).rst) && (List.range 256).all (fun n => !s.partHasDma p n || decide (s.chState n = 0)) &&
    (List.range 20).all (fun n => !s.partHasPort p n || ((Tab.get {} s.rpts n).up.isEmpty && (Tab.get {} s.rpts n).reads.isEmpty)) &&
    s.kiln.cmds.all (fun c => decide (some c.id = cmd) || (match c.src with | .mbx q _ _ => q != p | _ => true)) &&
    s.kiln.replies.all (fun r => match r.src with | .mbx q _ _ => q != p | _ => true)

/-- R229: a DRAINING partition's last request and started mailbox command have ended: it is DEFINED, and its disable replies. -/
def execPartitionDrainDone (p : Nat) (s : State) : Out :=
  if s.partState p = 3 ∧ s.drained p then
    let cmd := (s.part p).disableCmd
    let s := (s.fput .prtCtlState p 0 1).modPart p (fun q => { q with disableCmd := none })
    .next (match cmd with
      | some id => s.kreply id 0
      | none => s)
  else .next s

/-- R230, R232, R234: PART_DESTROY, on the whole span. -/
def execPartDestroy (id : Nat) (s : State) : Out :=
  s.krun id 0x0107 (fun c s =>
    let p := bits (c.p 0) 0 6
    let r := s.dropState p
    if p = 0 then s.kreply id rNotPermitted
    else if r ≠ 0 then s.kreply id r
    else
      let others := s.spanOthers p
      let s := s.freePart p
      (if c.here then s else s.spanRelay c others (partPkt 0x0107 p)).kreply id 0)

/-- R249: PART_QUERY. -/
def execPartQuery (id : Nat) (s : State) : Out :=
  s.krun id 0x0108 (fun c s =>
    let p := bits (c.p 0) 0 6
    match bits (c.p 0) 8 4 with
    | 0 => s.kreply id 0 0 ([s.rget .prtCtl p] ++ (List.range 4).map (fun i => s.rget .prtCore p i) ++
        (List.range 5).map (fun i => s.rget .prtIo p i) ++ [s.rget .hsMscway 0 p])
    | 1 => s.kreply id 0 1 ((List.range 16).map (fun w => s.rget .prtWin p w))
    | _ => s.kreply id rBadParameter)

end Sys2Proof.Machine
end

