-- ==== Sys2Proof/Machine/KilnCmd.lean ====
section
/-! DEFINITION. The mailbox doorbell, and the kiln's general, mode, log, monitoring and firmware commands (R237, R239, R240, R248, R252 to R256, R329,
R346). -/

namespace Sys2Proof.Machine

/-- R239: a doubleword of the mailbox block's memory. -/
def State.mbxWord (s : State) (a : Nat) : W64 := BitVec.ofNat 64 (Memory.getN s.kiln.mbx a 8)

/-- R240: the packet in a command slot, as long as its LENGTH says. -/
def State.slotPkt (s : State) (p n : Nat) : List W64 :=
  let a := 0x1000 * p + 0x100 + 0x200 * n
  let len := max 1 (min 64 (bits (s.mbxWord a) 32 16))
  (List.range len).map (fun i => s.mbxWord (a + 8 * i))

/-- R236, R240: MBX_DOORBELL written: the slot is submitted, or refused with QUEUE_FULL. The page of a FREE partition is closed. -/
def State.doorbell (s : State) (p : Nat) (host : Bool) (v : W64) : State :=
  let n := bits v 0 2
  let used := (s.fget .mbxStatusBusy p ||| s.fget .mbxStatusReply p) / 2 ^ n % 2
  if s.partState p = 0 then s
  else if used = 1 then s.fput .mbxStatusReason p 0 rQueueFull
  else (s.fput .mbxStatusBusy p 0 (s.fget .mbxStatusBusy p ||| 2 ^ n)).kreceive (.mbx p n host) (s.slotPkt p n)

/-- R240, R288: a write of MBX_DOORBELL of page p. -/
def execMbxDoorbell (q : Req) (p : Nat) (v : W64) (s : State) : Out := s.regWrite q .mbxDoorbell p 0 v (fun s => s.doorbell p (q == .host) v)

/-- R248: ECHO. -/
def execEcho (id : Nat) (s : State) : Out := s.krun id 0x0001 (fun c s => s.kreply id 0 (c.p 0) (c.pkt.drop 2))

/-- R152: REV of the I/O die's fuse block. -/
def State.ioRev (s : State) : Nat := bits (s.ioFuses.getD 0 0) 8 16

/-- R152: SETCODE of the I/O die's fuse block. -/
def State.setCode (s : State) : Nat := bits (s.ioFuses.getD 0 0) 24 32

/-- R248: GET_INFO. -/
def execGetInfo (id : Nat) (s : State) : Out :=
  s.krun id 0x0002 (fun c s =>
    match bits (c.p 0) 0 4 with
    | 0 =>
      let ports := (List.range 20).foldl (fun a n => a + if s.portExists n then 2 ^ n else 0) 0
      let carve := if s.carveBase < s.dramBytes then s.pkg * 2 ^ 44 + s.carveBase else 0
      let r1 := s.ioRev + s.pkg * 2 ^ 16 + s.fget .reelSysMembers * 2 ^ 24 + s.setCode * 2 ^ 32
      s.kreply id 0 0 ([r1, s.kiln.fwVersion, s.dramBytes, carve, s.kiln.cfg.reelMask.toNat + ports * 2 ^ 10].map (fun n => BitVec.ofNat 64 n))
    | 1 => s.kreply id 0 1 ([s.stripe, s.fget .mcCfgLranks 0].map (fun n => BitVec.ofNat 64 n))
    | _ => s.kreply id rBadParameter)

/-- R192, R248: fired units of this package. -/
def State.firedUnits (s : State) : Nat :=
  (s.regsOf .glbFired).foldl (fun a e => a + ((List.range 64).filter (fun i => bit e.2.2 i)).length) 0

/-- R248, R349: the alarm inputs and outputs, 1 while asserted, and the count of fenced dies. -/
def State.alarms (s : State) : Nat :=
  b2n s.pins.hotN + b2n s.pins.memhotN * 2 + s.fget .glbErrstatPend * 4 + s.fget .glbErrstatFatal * 16 +
    ((List.range 12).filter (fun d => s.fget .slpDstatState d == 2)).length * 2 ^ 8

/-- R248: GET_STATUS. -/
def execGetStatus (id : Nat) (s : State) : Out :=
  s.krun id 0x0003 (fun _ s =>
    let pop := s.mem.popReason + s.mem.popCh * 2 ^ 16 + s.mem.popSlot * 2 ^ 20
    s.kreply id 0 0 ([(s.rget .glbSetchk).toNat, pop, s.fget .glbBootstatStage, s.firedUnits, s.kiln.log.length, s.alarms].map (fun n => BitVec.ofNat 64 n)))

/-- R256: the mode of a function; AD_FLAGS is a partition's. -/
def State.modeOf (s : State) (fn p : Nat) : Bool :=
  if fn = 3 then (s.part p).adHw else if fn = 6 then s.kiln.bootSrcHeld else s.hwMode fn

/-- R256: a function's mode set. -/
def State.putMode (s : State) (fn p : Nat) (on : Bool) : State :=
  match fn with
  | 3 => s.modPart p (fun q => { q with adHw := on })
  | 6 => { s with kiln := { s.kiln with bootSrcHeld := on } }
  | _ =>
    let s := { s with kiln := { s.kiln with modes := setBit s.kiln.modes fn on } }
    if fn = 0 then (List.range 16).foldl (fun s m => s.fput .mcPatrolHw m 0 (b2n on)) s else s

/-- R248, R256: SET_MODE. -/
def execSetMode (id : Nat) (s : State) : Out :=
  s.krun id 0x0010 (fun c s =>
    let fn := bits (c.p 0) 0 8
    let p := bits (c.p 0) 16 6
    if 8 ≤ fn then s.kreply id rBadParameter
    else (s.putMode fn p (bit (c.p 0) 8)).kreply id 0 (BitVec.ofNat 64 (b2n (s.modeOf fn p))))

/-- R248, R256: GET_MODE. -/
def execGetMode (id : Nat) (s : State) : Out :=
  s.krun id 0x0011 (fun c s =>
    let fn := bits (c.p 0) 0 8
    if 8 ≤ fn then s.kreply id rBadParameter else s.kreply id 0 (BitVec.ofNat 64 (b2n (s.modeOf fn (bits (c.p 0) 16 6)))))

/-- R347: the 64 bytes of a log record. -/
def LogRec.words (r : LogRec) : List W64 :=
  let w0 := r.seq % 2 ^ 32 + (r.cls + b2n r.aon * 128) * 2 ^ 32 + r.srcKind * 2 ^ 40 + r.srcIdx % 256 * 2 ^ 48 +
    (match r.part with | some p => p % 64 + 64 | none => 0) * 2 ^ 56
  let w1 := r.reason % 2 ^ 16 + r.event % 2 ^ 16 * 2 ^ 16 + r.count % 2 ^ 32 * 2 ^ 32
  let w4 := (match r.ctx with | some h => h % 2 ^ 21 + 2 ^ 31 | none => 0) + r.detail % 2 ^ 32 * 2 ^ 32
  let d := fun (i : Nat) => r.detail / 2 ^ (32 + 64 * i) % 2 ^ 64
  [w0, w1, r.time, r.addr, w4, d 0, d 1, d 2].map (fun n => BitVec.ofNat 64 n)

/-- R252, R347: the records a LOG_READ returns: from a sequence number, at most as many as asked, and those of its own partition alone for a mailbox without
PLATFORM privilege. -/
def State.logFor (s : State) (c : KCmd) : List LogRec :=
  let (priv, part) := s.srcPriv c.src
  let n := bits (c.p 1) 32 16
  (s.kiln.log.filter (fun r => decide (bits (c.p 1) 0 32 ≤ r.seq) && (decide (priv ≠ 2) || r.part == some part))).take n

/-- R252: R0 of LOG_READ: records written and the next sequence number. -/
def State.logResult (s : State) (c : KCmd) : W64 :=
  let rs := s.logFor c
  let next := if rs.length < bits (c.p 1) 32 16 then s.fget .glbErrstatNextseq
    else (rs.getLast?.map (fun r => r.seq + 1)).getD (bits (c.p 1) 0 32)
  BitVec.ofNat 64 (rs.length + next * 2 ^ 32)

/-- R252, R120: bytes written by the kiln at the MSC, in pieces that do not cross a line. -/
def State.kilnWrite (s : State) (pa : Nat) (us : List W64) : State :=
  us.zipIdx.foldl (fun s (w, i) => (s.ncSend .kiln .plain true (pa + 8 * i) 8 (w.zeroExtend 512) false 3).2) s

/-- R252: the kiln's own writes at the MSC are all done. -/
def State.kilnQuiet (s : State) : Bool :=
  !(s.home.ncq ++ s.home.ncDone.filter (fun r => r.dram)).any (fun r => decide (r.agent = .kiln))

/-- R252, R297: LOG_READ: to the control host's memory through the endpoint, or for a mailbox to its partition's memory; the reply follows the
writes. DEDUCED (log 31): a destination in memory is a multiple of 8, else NOT_PERMITTED. -/
def execLogRead (id : Nat) (s : State) : Out :=
  match s.kfind id with
  | none => .next s
  | some c =>
    let (priv, part) := s.srcPriv c.src
    let us := (s.logFor c).flatMap LogRec.words
    let a := (c.p 0).toNat
    if !c.started ∨ pktOp c.pkt ≠ 0x0500 then .next s
    else if c.running then .next (if c.acc ≠ 0 ∧ s.kilnQuiet then s.kreply id 0 (BitVec.ofNat 64 c.acc) else s)
    else if priv = 0 then
      if !s.bme then .next (s.kreply id rEpBmeClear)
      else if !s.hostOn then .next s
      else .next ((s.hostWrite a us 64).kreply id 0 (s.logResult c))
    else if a % 8 ≠ 0 ∨ !s.windowsHold part a (8 * us.length) then .next (s.kreply id rNotPermitted)
    else if us.isEmpty then .next (s.kreply id 0 (s.logResult c))
    else .next ((s.kilnWrite a us).krunning id (s.logResult c).toNat)

/-- R252, R346: LOG_CLEAR. -/
def execLogClear (id : Nat) (s : State) : Out :=
  s.krun id 0x0501 (fun c s =>
    let keep := s.kiln.log.filter (fun r => decide (bits (c.p 0) 0 32 < r.seq))
    ({ s with kiln := { s.kiln with log := keep } }).kreply id 0 (BitVec.ofNat 64 (s.kiln.log.length - keep.length)))

/-- R329: the ports of a kind of bandwidth window. -/
def bwPorts (kind : Nat) : Nat :=
  match kind with
  | 0 => 16
  | 1 => 20
  | 2 => 10
  | 3 => 8
  | 4 => 12
  | _ => 0

/-- R252, R329: PMU_WINDOW_SET. -/
def execPmuWindowSet (id : Nat) (s : State) : Out :=
  s.krun id 0x0700 (fun c s =>
    let (priv, part) := s.srcPriv c.src
    let w := bits (c.p 0) 0 5
    let kind := bits (c.p 0) 8 3
    let idx := bits (c.p 0) 16 5
    let n := (c.p 1).toNat
    let mine := decide (s.fget .bwwCfgRun w = 0) || (decide (s.fget .bwwCfgPart w = part) && decide (s.fget .bwwCfgFilter w = 1))
    if priv = 2 ∧ !mine then s.kreply id rNotPermitted
    else if bwPorts kind ≤ idx then s.kreply id rBadParameter
    else if n = 0 then (s.fput .bwwCfgRun w 0 0).kreply id 0
    else
      let lo := if priv = 0 then 1024 else 2 ^ 21
      let n := min (max n lo) (2 ^ 40 - 1)
      let v := 1 + bits (c.p 0) 30 1 * 2 + kind * 4 + idx * 2 ^ 5 + bits (c.p 0) 24 6 * 2 ^ 10 + (if priv = 0 then 0 else 2 ^ 16) + n * 2 ^ 24
      let s := s.rput .bwwCfg w 0 (BitVec.ofNat 64 v)
      ({ s with pmu := { s.pmu with bwA := Tab.put 0 s.pmu.bwA w 0, bwB := Tab.put 0 s.pmu.bwB w 0
                                    bwStart := Tab.put 0 s.pmu.bwStart w s.fcyc } }).kreply id 0)

/-- R253: FW_STAGE: the image in the staging area as its verification finds it. -/
def execFwStage (id : Nat) (img : Image) (s : State) : Out :=
  s.krun id 0x0800 (fun c s =>
    let off := (c.p 0).toNat
    let len := (c.p 1).toNat
    if off % 8 ≠ 0 ∨ len % 8 ≠ 0 ∨ 2 ^ 23 < off + len then s.kreply id rBadParameter
    else if !img.sigOk then s.kreply id rFwSignatureInvalid
    else if img.secLevel < s.kiln.fwLevel then s.kreply id rFwVersionRejected
    else ({ s with kiln := { s.kiln with staged := some (img.version, img.secLevel) } }).kreply id 0 (BitVec.ofNat 64 img.version))

/-- R246: a background engine is at work: firing, range-clean, range scrub, the isolation scan, link training. -/
def State.enginesRun (s : State) : Bool :=
  !s.mem.fireQ.isEmpty || s.home.range.isSome || s.mem.scrub.isSome || s.home.scan.isSome || s.reel.ports.any (fun e => decide (e.2.stage ≠ 0))

/-- R254, R255: FW_ACTIVATE: refused, or the kiln stops accepting and finishes what has started. -/
def execFwActivate (id : Nat) (s : State) : Out :=
  s.krun id 0x0801 (fun _ s =>
    if s.kiln.staged.isNone then s.kreply id rFwNotStaged
    else if s.enginesRun || !s.reel.relays.isEmpty then s.kreply id rBusyDraining
    else { s.krunning id 0 with kiln := { (s.krunning id 0).kiln with fwSwitch := some id } })

/-- R254, R342: every command that had started has finished: the kiln runs the staged image, which replies and accepts again. -/
def execFwSwitch (s : State) : Out :=
  match s.kiln.fwSwitch, s.kiln.staged with
  | some id, some (v, l) =>
    if s.kiln.cmds.any (fun c => c.started && decide (c.id ≠ id)) then .next s
    else
      let old := s.kiln.fwVersion
      let s := { s with kiln := { s.kiln with fwSwitch := none, staged := none, fwVersion := v, fwLevel := l } }
      let s := s.logEvent { cls := 0, event := 3, detail := old % 2 ^ 32 + v % 2 ^ 32 * 2 ^ 32 }
      .next ((List.range 4).foldl (fun s r => s.passPackets r) (s.kreply id 0 (BitVec.ofNat 64 v)))
  | _, _ => .next s

end Sys2Proof.Machine
end

