-- ==== Sys2Proof/Machine/Relay.lean ====
section
/-! DEFINITION. Messages of the kiln relay as they arrive from another member (R214, R218, R221, R234, R268, R340). -/

namespace Sys2Proof.Machine

/-- R340 step 2: the kiln of a member has restarted: relays outstanding to it are answered TIMEOUT. -/
def State.relaysTimeOut (s : State) (q : Nat) : State :=
  (s.reel.relays.filter (fun x => x.2.1 == q)).foldl (fun s x =>
    match s.kfind x.2.2 with
    | some c => s.kreplied x.1 (replyPkt c rTimeout 0 [])
    | none => { s with reel := { s.reel with relays := s.reel.relays.filter (fun r => r.1 != x.1) } }) s

/-- R234: a member's copy of another member's windows and core map. -/
def State.takeCopy (s : State) (p q : Nat) (wins cores : List W64) : State :=
  s.modPart p (fun x =>
    { x with remWin := wins.zipIdx.foldl (fun t e => Tab.put 0 t (q * 32 + e.2) e.1) x.remWin
             remCore := cores.zipIdx.foldl (fun t e => Tab.put 0 t (q * 32 + e.2) e.1) x.remCore })

/-- R214 step 4, R217: the member set arrives at a member, which steps its time base. DEDUCED (log 32): the message carries the lead's time
base at its launch, and the member adds the crossing and the time the message has waited since. -/
def State.joinSystem (s : State) (x : RRx) (members lead fTime : Nat) : State :=
  if !s.forming then s
  else
    let f := fTime + s.crossing x.port + (s.fcyc - x.at_)
    ({ s with tb := BitVec.ofNat 64 (f / 20), tbPhase := f % 20 }.dropOutsiders members rLinkTopology).formSys members lead 0

/-- R218: what a relay message does at its receiver. -/
def State.relayed (s : State) (x : RRx) (src : Nat) (p : KRelay) : State :=
  match p with
  | .command pkt priv part rid here => s.kreceive (.peer src rid priv part here) pkt
  | .reply rid pkt => s.kreplied rid pkt
  | .report pkg links => ({ s with reel := { s.reel with reports := s.reel.reports.filter (fun (r : Nat × Nat) => r.1 != pkg) ++ [(pkg, links)] } }).tryForm
  | .formed members lead fTime => s.joinSystem x members lead fTime
  | .expel _ | .loss _ _ => { s with reel := { s.reel with told := s.reel.told ++ [p] } }
  | .windowCopy part pkg wins cores => s.takeCopy part pkg wins cores
  | .restart pkg => s.relaysTimeOut pkg
  | .wakeup _ => if s.wakeActs 6 then s.wakePkg 6 0 else s
  | .choice pkg state => s.takeChoice pkg state
  | .powerTo state => s.autoEnter state

/-- R218: a relay message that a reel port has delivered is taken, in arrival order. -/
def execKrelay (src : Nat) (p : KRelay) (s : State) : Out :=
  match s.reelCtl (fun x => x.msg.op == .krelay && x.msg.src == src) with
  | none => .next s
  | some x => .next ((s.takeReel x.msg).relayed x src p)

end Sys2Proof.Machine
end

