-- ==== Sys2Proof/Machine/Reset.lean ====
section
/-! DEFINITION. Reset domains: AON reset, package reset, kiln reset, the thermal trip and losses of power-good (R12, R281, R337 to R340, R362). -/

namespace Sys2Proof.Machine

/-- R193: a logical rank holds SR_CLEAN in every channel. -/
def State.rankKept (s : State) (r : Nat) : Bool :=
  (List.range 16).all (fun mc => (Tab.find s.mem.ranks (mc * 16 + r)).any (fun k => k.inSr && k.srClean))

/-- R193: a package reset leaves fired only the units of ranks that are kept. -/
def State.dropFired (s : State) : State :=
  (List.range 256).foldl (fun t n => if s.rankKept (n * 2 ^ 36 / s.stripe) then t else t.rput .glbFired n 0 0) s

/-- R346: after a package reset the copies in AON SRAM are the first records of the log. -/
def State.restoredLog (s : State) : List LogRec := s.kiln.aonLog.zipIdx.map (fun e => { e.1 with seq := e.2, aon := true })

/-- R12, R338: memory after a package reset: contents stay in the ranks that are in self-refresh, and those ranks stay in it. -/
def State.memReset (s : State) : Mem :=
  { dram := s.mem.dram.filter (fun c => s.rankKept (c.1 / s.stripe))
    chk := s.mem.chk.filter (fun c => s.rankKept (c.1 * 4 / s.stripe))
    ranks := s.mem.ranks.filter (fun e => e.2.inSr)
    refired := s.mem.refired }

/-- R337: a package reset: everything but AON state, the endpoint and the ranks in self-refresh starts again, at stage 0x00. -/
def State.pkgReset (s : State) : State :=
  let t := s.dropFired
  let r : State := { s with
    tb := 0
    tbPhase := 0
    fBase := s.fcyc
    cs := resetDomain (resetDomain t.cs .package) .partition
    cores := []
    parts := []
    home := { retired := s.home.retired }
    fab := { devNext := s.fab.devNext }
    mem := s.memReset
    reel := { formBy := s.now + 2000000 * usTicks, relayNext := s.reel.relayNext }
    kiln := { next := s.kiln.next, aonHeld := s.kiln.aonHeld, bootSrcHeld := s.kiln.bootSrcHeld, aonLog := s.kiln.aonLog, log := s.restoredLog }
    dies := s.dies.map (fun (e : Nat × Die) => (e.1, { fuses := e.2.fuses }))
    pwr := { wakeHigh := s.pwr.wakeHigh, wakeSince := s.pwr.wakeSince }
    ep := { s.ep with accs := [] }
    dmaCh := []
    dmaEng := []
    pmu := {}
    rpts := [] }
  let r := r.fput .glbErrstatNextseq 0 0 s.kiln.aonLog.length
  (r.fput .pwrThermHot 0 0 (b2n s.pins.hotN)).fput .pwrThermMemhot 0 0 (b2n s.pins.memhotN)

/-- R11, R337: AON reset: everything is as at State.reset, but the fuses, which are never written again, and elapsed time. -/
def State.aonClear (s : State) : State :=
  { State.reset with
    pending := s.pending
    now := s.now
    dies := s.dies.map (fun (e : Nat × Die) => (e.1, { fuses := e.2.fuses }))
    ioFuses := s.ioFuses
    free := s.free }

/-- R337: AON power-good rises. -/
def execAonReset (s : State) : Out := .next s.aonClear

/-- R337: the I/O rail's power-good is lost: package reset. -/
def State.ioLost (s : State) : State :=
  let s := { s with pins := { s.pins with pgDown := if s.pins.pgDown.contains 12 then s.pins.pgDown else s.pins.pgDown ++ [12] } }
  s.pkgReset

/-- R337: loss of the I/O rail's power-good takes package reset. -/
def execPackageReset (s : State) : Out := .next s.ioLost

/-- R340: a kiln reset: accepted commands not yet replied get TIMEOUT, the notice queue is emptied, background engines stop at their unit,
peers are told, and KILN_RESTART is logged with the expiries of the last 10 s. -/
def State.kilnReset (s : State) (expiries : Nat) : State :=
  let own := s.kiln.cmds.filter (fun (c : KCmd) => match c.src with | .peer _ _ _ _ _ => false | .ring _ => true | .mbx _ _ _ => true)
  let back := own.map (fun (c : KCmd) => ({ src := c.src, notify := decide (pktFlags c.pkt % 2 = 1), pkt := replyPkt c rTimeout 0 [] } : KReply))
  let s := { s with
    kiln := { s.kiln with cmds := [], got := [], notices := [], mbxNotices := [], fwSwitch := none, replies := s.kiln.replies ++ back }
    reel := { s.reel with relays := [] }
    mem := { s.mem with scrub := none, fireQ := if s.fget .glbBootstatStage < 10 then s.mem.fireQ.map (fun (e : Nat × List Nat) => (e.1, [])) else [] }
    home := { s.home with range := none, slices := s.home.slices.map (fun (e : Nat × Slice) => (e.1, { e.2 with rcSet := none })) } }
  let s := ((List.range 8).filter (fun q => q ≠ s.pkg && s.member q)).foldl (fun s q => s.krelaySend q (.restart s.pkg)) s
  s.logEvent { cls := 2, event := 2, kind := 0, detail := expiries }

/-- R337, GLB_RESET: a write of it: nothing without the key or from a core; PKG takes package reset, and otherwise KILN a kiln reset. -/
def State.glbResetPut (s : State) (q : Req) (v : W64) : State :=
  match q with
  | .ctx _ _ => s
  | _ =>
    if bits v 8 8 ≠ 0xA5 then s
    else if bit v 0 then s.pkgReset
    else if bit v 1 then s.kilnReset (b2n (s.kiln.wdog.any (fun t => decide (s.now < t + 10000000 * usTicks))))
    else s

/-- R337: GLB_RESET written with PKG. -/
def execGlbResetPkg (q : Req) (v : W64) (s : State) : Out :=
  s.regWrite q .glbReset 0 0 v (fun s => if bit v 0 then s.glbResetPut q v else s)

/-- R340: GLB_RESET written with KILN. -/
def execGlbResetKiln (q : Req) (v : W64) (s : State) : Out :=
  s.regWrite q .glbReset 0 0 v (fun s => if bit v 0 then s else s.glbResetPut q v)

/-- R340: the kiln's firmware has not signalled its watchdog for a second; a second time within 10 s it is FATAL. -/
def execKilnWatchdog (s : State) : Out :=
  if s.kiln.aonHeld ∨ s.pins.thermtrip ∨ s.fget .glbBootstatStage = 0 then .next s
  else
    let again := s.kiln.wdog.any (fun t => decide (s.now < t + 10000000 * usTicks))
    let s := { s with kiln := { s.kiln with wdog := some s.now } }
    let s := s.kilnReset (1 + b2n again)
    .next (if again then s.fatal 8 0 0 else s)

/-- R196, R12: VDDQ is lost: no rank holds SR_CLEAN. DEDUCED (log 34): a rank in service has lost its contents too, so its banks are suspect. -/
def State.vddqLost (s : State) : State :=
  let up := (List.range 256).filter (fun k => decide (k % 16 < s.fget .mcCfgLranks (k / 16)) && decide (0 < s.dramBytes) && (Tab.find s.mem.ranks k).isNone)
  let s := { s with mem := { s.mem with refired := [], ranks := s.mem.ranks.map (fun (e : Nat × Rank) => (e.1, { e.2 with srClean := false })) } }
  up.foldl (fun s k => s.suspectRank (k / 16) (k % 16)) s

/-- R166, R196, R337, R362: a filtered loss of power-good: 0 to 11 a core rail, 12 I/O, 13 saggar, 14 VDDQ, 15 AON. A core rail that DS2 has turned off
is no loss. -/
def execPgFall (rail : Nat) (s : State) : Out :=
  if rail < 12 then
    .next (if s.dieUp rail && decide ((s.die rail).dst < 2) then s.fenceDie rail 5 else s)
  else if rail = 12 then .next s.ioLost
  else if rail = 14 then .next s.vddqLost
  else .next s

/-- R281: a sensor at 115 °C: THERMTRIP_N is asserted and everything but the AON domain is held in reset until AON reset. -/
def execThermtrip (blk temp : Nat) (s : State) : Out :=
  if temp < 115 ∨ 16 ≤ blk then .next s
  else
    let s := s.pkgReset.epLinkReset
    .next { s with pins := { s.pins with thermtrip := true } }

end Sys2Proof.Machine
end

