-- ==== Sys2Proof/Machine/Volt.lean ====
section
/-! DEFINITION. P-states, core frequencies, the power limit and the thermal response, and the power commands (R250, R276 to R280). -/

namespace Sys2Proof.Machine

/-- R276: the frequency limits of the P-states, in units of 100 MHz. -/
def pFreq (p : Nat) : Nat := [32, 30, 28, 25, 22, 19, 15, 10].getD p 10

/-- R152, R276: the voltage code fused for a P-state of a die; 0 where it is unavailable. -/
def State.vCode (s : State) (d p : Nat) : Nat := bits ((s.die d).fuses.getD 6 0) (8 * p) 8

/-- R277: the P-state a die is to run at: the slowest of its request and its caps. -/
def State.pGoal (s : State) (d : Nat) : Nat := max (s.fget .pwrDiectlPreq d) (max (s.fget .pwrDiectlLcap d) (s.fget .pwrDiectlTcap d))

/-- R277: the frequency a core is to run at under a die's P-state. -/
def State.fGoal (s : State) (c p : Nat) : Nat :=
  let r := s.fget .pwrCorectlFreqreq c
  if r = 0 then pFreq p else min r (pFreq p)

/-- R277: F-cycles, in ticks, that a change of voltage takes: 12.5 mV/µs and 5 µs of settling. -/
def rampTicks (a b : Nat) : Nat := (max a b - min a b) * 640 + 5 * usTicks

/-- R277: the cores of a die whose frequency is to change. -/
def State.fChanges (s : State) (d p : Nat) : List Nat := (coresOf d).filter (fun c => decide (s.freq c ≠ s.fGoal c p))

/-- R277: a frequency step begins: the clocks of the cores concerned stop for 1 µs. -/
def State.stopClocks (s : State) (cs : List Nat) : State :=
  cs.foldl (fun s c => s.modCore c (fun k => { k with cycBase := s.cyc c, cycRef := s.now, clockOn := false })) s

/-- R277: a frequency step ends: the new frequencies are in effect and the clocks run again. -/
def State.startClocks (s : State) (cs : List Nat) (p : Nat) : State :=
  cs.foldl (fun s c =>
    let s := s.modCore c (fun k => { k with cycBase := s.cyc c, cycRef := s.now, clockOn := decide (k.cst = .cs0) && s.dieUp (dieOf c) })
    s.fput .pwrCorectlFreq c 0 (s.fGoal c p)) s

/-- R277: a PWR_SET_PSTATE that waits for its dies replies once none of them is changing. -/
def State.pstateReply (s : State) (d : Nat) : State :=
  match (s.die d).pcmd with
  | none => s
  | some id =>
    let s := s.modDie d (fun x => { x with pcmd := none })
    if s.dies.any (fun e => decide (e.2.pcmd = some id)) then s
    else
      let d0 := match s.kfind id with | some c => if bits (c.p 0) 0 4 = 15 then 0 else bits (c.p 0) 0 4 | none => d
      s.kreply id 0 (BitVec.ofNat 64 (s.fget .pwrDiectlPstate d0))

/-- R277: a die's P-state or its cores' frequencies begin to change, in the order the direction asks for. -/
def State.vfStart (s : State) (d : Nat) : State :=
  if (s.die d).vf.isSome then s
  else
    let g := s.pGoal d
    let p := s.fget .pwrDiectlPstate d
    if g = p ∧ (s.fChanges d g).isEmpty then s.pstateReply d
    else if g < p then s.modDie d (fun x => { x with vf := some (g, s.now + rampTicks (s.vCode d p) (s.vCode d g), 0) })
    else (s.stopClocks (s.fChanges d g)).modDie d (fun x => { x with vf := some (g, s.now + usTicks, 2) })

/-- R277: a voltage has settled or a frequency step has ended. -/
def execVfTransitionDone (die : Nat) (s : State) : Out :=
  match (s.die die).vf with
  | none => .next s
  | some (g, due, ph) =>
    let p := s.fget .pwrDiectlPstate die
    if s.now < due then .next s
    else
      match ph with
      | 0 =>
        let s := s.fput .pwrDiectlVcode die 0 (s.vCode die g)
        .next ((s.stopClocks (s.fChanges die g)).modDie die (fun x => { x with vf := some (g, s.now + usTicks, 1) }))
      | 1 =>
        let s := (s.startClocks (s.fChanges die g) g).fput .pwrDiectlPstate die 0 g
        .next ((s.modDie die (fun x => { x with vf := none })).vfStart die)
      | 2 =>
        let s := (s.startClocks (s.fChanges die g) g).fput .pwrDiectlPstate die 0 g
        if g = p then .next ((s.modDie die (fun x => { x with vf := none })).vfStart die)
        else .next (s.modDie die (fun x => { x with vf := some (g, s.now + rampTicks (s.vCode die p) (s.vCode die g), 3) }))
      | _ =>
        let s := s.fput .pwrDiectlVcode die 0 (s.vCode die g)
        .next ((s.modDie die (fun x => { x with vf := none })).vfStart die)

/-- R250, R277: a request for one die. -/
def State.pstateReq (s : State) (d ps mask freq id : Nat) : State :=
  let old := (s.die d).pcmd
  let s := s.modDie d (fun x => { x with pcmd := some id })
  let s := match old with
    | some o =>
      let s := { s with dies := s.dies.map (fun (e : Nat × Die) => (e.1, if e.2.pcmd = some o then { e.2 with pcmd := none } else e.2)) }
      s.kreply o rSuperseded
    | none => s
  let s := if ps = 15 then s else s.fput .pwrDiectlPreq d 0 ps
  (List.range 20).foldl (fun s i => if mask / 2 ^ i % 2 = 1 then s.fput .pwrCorectlFreqreq (d * 20 + i) 0 freq else s) s

/-- R250, R277: PWR_SET_PSTATE. -/
def execPwrSetPstate (id : Nat) (s : State) : Out :=
  s.krun id 0x0201 (fun c s =>
    let d := bits (c.p 0) 0 4
    let ps := bits (c.p 0) 4 4
    let mask := bits (c.p 1) 0 20
    let freq := bits (c.p 1) 20 8
    let ds := if d = 15 then List.range 12 else [d]
    if (12 ≤ d ∧ d ≠ 15) ∨ (8 ≤ ps ∧ ps ≠ 15) then s.kreply id rBadParameter
    else if (freq ≠ 0 ∧ (freq < 10 ∨ 32 < freq)) ∨ (ps ≠ 15 ∧ ds.any (fun d => decide (s.vCode d ps = 0))) then s.kreply id rPwrVfOutOfRange
    else
      let s := s.krunning id 0
      let s := ds.foldl (fun s d => s.pstateReq d ps mask freq id) s
      ds.foldl (fun s d => s.vfStart d) s)

/-- R250: die states or P-states, 4 bits each. -/
def nibbles (f : Nat → Nat) : W64 := BitVec.ofNat 64 ((List.range 12).foldl (fun a d => a + f d % 16 * 16 ^ d) 0)

/-- The hottest compute die's temperature. -/
def State.hottestDie (s : State) : Nat := (List.range 12).foldl (fun m d => max m (s.fget .pwrDiectlTemp d)) 0

/-- R250: PWR_QUERY. -/
def execPwrQuery (id : Nat) (s : State) : Out :=
  s.krun id 0x0202 (fun _ s =>
    s.kreply id 0 0 [BitVec.ofNat 64 (s.fget .pwrStatusState + 16 * s.fget .pwrStatusReq), nibbles (fun d => (s.die d).dst),
      nibbles (fun d => s.fget .pwrDiectlPstate d),
      BitVec.ofNat 64 (s.pwr.samples.headD 0 % 65536 + s.kiln.limit * 2 ^ 16 + s.hottestDie * 2 ^ 32)])

/-- R250, R279: PWR_SET_LIMIT. -/
def execPwrSetLimit (id : Nat) (s : State) : Out :=
  s.krun id 0x0203 (fun c s =>
    let w := bits (c.p 0) 0 16
    let ms := bits (c.p 0) 16 16
    if w < 450 ∨ 800 < w ∨ ms < 1 ∨ 10000 < ms then s.kreply id rBadParameter
    else ({ s with kiln := { s.kiln with limit := w, window := ms } }).kreply id 0 (BitVec.ofNat 64 s.kiln.limit))

/-- R279: the die whose cap is lowered: the fastest, then the hottest, then the lowest-numbered. -/
def State.capDown (s : State) : Option Nat :=
  ((List.range 12).filter (fun d => s.dieUp d && decide (s.fget .pwrDiectlPstate d < 7) && decide (s.fget .pwrDiectlLcap d < 7))).foldl (fun b d =>
    match b with
    | none => some d
    | some x =>
      let px := s.fget .pwrDiectlPstate x
      let pd := s.fget .pwrDiectlPstate d
      if pd < px ∨ (pd = px ∧ s.fget .pwrDiectlTemp x < s.fget .pwrDiectlTemp d) then some d else b) none

/-- R279: the die whose cap is raised: the slowest cap, then the lowest-numbered die. -/
def State.capUp (s : State) : Option Nat :=
  ((List.range 12).filter (fun d => decide (s.fget .pwrDiectlLcap d ≠ 0))).foldl (fun b d =>
    match b with
    | none => some d
    | some x => if s.fget .pwrDiectlLcap x < s.fget .pwrDiectlLcap d then some d else b) none

/-- R280: PWR_THERM.THROT and HYST as they are taken. -/
def State.throt (s : State) : Nat := max 70 (min 105 (s.fget .pwrThermThrot))

/-- R280: a block's temperature noted: its register, and the hottest of all. Blocks: 0 to 11 compute dies, 14 the saggar tile, 15 the I/O die. -/
def State.noteTemp (s : State) (b t : Nat) : State :=
  let s := { s with pwr := { s.pwr with temp := Tab.put 0 s.pwr.temp b t } }
  let s := if b < 12 then s.fput .pwrDiectlTemp b 0 t else s
  let top := s.pwr.temp.foldl (fun (m : Nat × Nat) e => if m.2 < e.2 then e else m) (0, 0)
  (s.fput .pwrThermHottest 0 0 top.2).fput .pwrThermHotblk 0 0 top.1

/-- R279: the measurement every 1 ms. -/
def execPowerSample (watts : Nat) (temps : List (Nat × Nat)) (s : State) : Out :=
  let s := temps.foldl (fun s t => s.noteTemp t.1 t.2) s
  let s := { s with pwr := { s.pwr with samples := (watts :: s.pwr.samples).take s.kiln.window } }
  let sum := s.pwr.samples.foldl (· + ·) 0
  let n := s.pwr.samples.length
  if s.kiln.limit * n < sum then
    if (List.range 12).all (fun d => !s.dieUp d || decide (s.fget .pwrDiectlPstate d = 7)) then
      let due := match s.pwr.floorAt with
        | none => true
        | some t => decide (t + s.kiln.window * 1000 * usTicks ≤ s.now)
      .next (if due then ({ s with pwr := { s.pwr with floorAt := some s.now } }).logEvent { cls := 1, event := 0x71, kind := 9, detail := sum / n % 65536 } else s)
    else
      match s.capDown with
      | some d => .next ((s.fput .pwrDiectlLcap d 0 (s.fget .pwrDiectlLcap d + 1)).vfStart d)
      | none => .next s
  else if sum * 100 < s.kiln.limit * n * 98 then
    match s.capUp with
    | some d => .next ((s.fput .pwrDiectlLcap d 0 (s.fget .pwrDiectlLcap d - 1)).vfStart d)
    | none => .next s
  else .next s

/-- R280: a thermal cap lowered or raised by one P-state. -/
def State.moveTcap (s : State) (d : Nat) (lower : Bool) : State :=
  let t := s.fget .pwrDiectlTcap d
  (s.fput .pwrDiectlTcap d 0 (if lower then min 7 (t + 1) else t - 1)).vfStart d

/-- R280: the source and index of a block in a thermal notice. -/
def blkSrc (b : Nat) : Nat × Nat := if b < 12 then (0, b) else if b = 15 then (1, 0) else (2, 0)

/-- R280: a sensor is read: crossing THROT, or coming down to THROT − HYST. -/
def execThermalSample (blk temp : Nat) (s : State) : Out :=
  let s := s.noteTemp blk temp
  let hot := decide (s.throt ≤ temp)
  let cool := decide (temp + max 1 (s.fget .pwrThermHyst) ≤ s.throt)
  let was := s.pwr.exceed.contains blk
  let s := { s with pwr := { s.pwr with exceed := if hot && !was then s.pwr.exceed ++ [blk] else if cool then s.pwr.exceed.filter (· != blk) else s.pwr.exceed } }
  if !s.hwMode 7 then
    .next (if hot && !was then s.thermNotice (blkSrc blk).1 (blkSrc blk).2 temp true
      else if cool && was then s.thermNotice (blkSrc blk).1 (blkSrc blk).2 temp false else s)
  else
    let s := { s with pwr := { s.pwr with ioHot := s.pwr.exceed.any (fun b => decide (12 ≤ b)) } }
    let s := s.memThermal
    if s.now < Tab.get 0 s.pwr.capAt blk then .next s
    else
      let ds := if blk < 12 then [blk] else List.range 12
      let move := fun (s : State) (lower : Bool) =>
        let s := { s with pwr := { s.pwr with capAt := Tab.put 0 s.pwr.capAt blk (s.now + 1000 * usTicks) } }
        ds.foldl (fun s d => s.moveTcap d lower) s
      .next (if hot then move s true else if cool && decide (s.fget .pwrThermHot = 0) then move s false else s)

/-- R280: HOT_N has changed. -/
def execHotNChange (asserted : Bool) (s : State) : Out :=
  if decide (s.fget .pwrThermHot = 1) = asserted then .next s
  else
    let s := { s.fput .pwrThermHot 0 0 (b2n asserted) with pins := { s.pins with hotN := asserted } }
    if !s.hwMode 7 then .next (s.thermNotice 3 0 0 asserted)
    else .next (if asserted then (List.range 12).foldl (fun s d => (s.fput .pwrDiectlTcap d 0 7).vfStart d) s else s)

/-- R171, R280: MEMHOT_N has changed. -/
def execMemhotNChange (asserted : Bool) (s : State) : Out :=
  if decide (s.fget .pwrThermMemhot = 1) = asserted then .next s
  else
    let s := { s.fput .pwrThermMemhot 0 0 (b2n asserted) with pins := { s.pins with memhotN := asserted } }
    .next ((if s.hwMode 7 then s else s.thermNotice 4 0 0 asserted).memThermal)

end Sys2Proof.Machine
end

