-- ==== Sys2Proof/Machine/Boot.lean ====
section
/-! DEFINITION. The boot sequence: straps, image, rails, set check, slip training, memory, formation, firing and partition 0 (R149 to R155,
R170 to R173, R214, R331 to R336, R358). -/

namespace Sys2Proof.Machine

/-- One step of a CRC-32C over a bit. -/
def crcBit (crc : BitVec 32) (b : Bool) : BitVec 32 :=
  let x := crc >>> 1
  if xor (crc.getLsbD 0) b then x ^^^ 0x82F63B78 else x

/-- R152: the CRC-32C of doublewords, least significant byte first. -/
def crc32c (ws : List W64) : BitVec 32 :=
  ~~~ (ws.foldl (fun c w => (List.range 64).foldl (fun c i => crcBit c (bit w i)) c) 0xFFFFFFFF)

/-- R152: REPAIR byte i of a fuse block. -/
def repairByte (f : List W64) (i : Nat) : Nat := bits (f.getD (2 + i / 8) 0) (8 * (i % 8)) 8

/-- R153: a fuse block of position `pos` fails its check; the I/O die's REPAIR holds no lane repairs. -/
def fuseBad (o : BootObs) (pos : Nat) (f : List W64) : Bool :=
  let rep := fun (g : Nat) => (repairByte f (2 * g), repairByte f (2 * g + 1))
  o.deadSideband.contains pos || o.crcBad.contains pos || decide (crc32c (f.take 7) ≠ BitVec.ofNat 32 (bits (f.getD 7 0) 0 32)) ||
    decide (bits (f.getD 0 0) 4 4 ≠ 1) || decide (bits (f.getD 0 0) 0 4 ≠ pos) ||
    (decide (pos ≠ 15) && (List.range 16).any (fun g =>
      let (a, b) := rep g
      decide (128 + 73 < a) || decide (128 + 73 < b) || (decide (128 ≤ a) && decide (a = b))))

/-- R149, R151: the orientation pads of a die, or of the saggar tile (15): as assembled unless an observation says otherwise. -/
def padsOf (o : BootObs) (pos : Nat) : Bool × Bool :=
  match o.orient.find? (fun e => e.1 == pos) with
  | some e => e.2
  | none => if pos < 6 then (false, true) else (true, false)

/-- R149, R151: the pads of a position read equal, or not as its edge or the tile's bonding has them. -/
def padsBad (o : BootObs) (pos : Nat) : Bool := padsOf o pos != (if pos < 6 then (false, true) else (true, false))

/-- R154: the first failure of the set check: its reason and position. DEDUCED (log 35): every die's block is checked before any orientation. -/
def State.setCheck (s : State) (o : BootObs) : Option (Nat × Nat) :=
  let io := s.ioFuses.getD 0 0
  let f := fun (d : Nat) => (s.die d).fuses.getD 0 0
  let first := fun (bad : Nat → Bool) (r : Nat) => ((List.range 12).find? bad).map (fun d => (r, d))
  if fuseBad o 15 s.ioFuses then some (rIdFuseInvalid, 15)
  else if padsBad o 15 then some (rIdOrientationInvalid, 15)
  else
    (first (fun d => fuseBad o d (s.die d).fuses) rIdFuseInvalid).or
      ((first (fun d => padsBad o d) rIdOrientationInvalid).or
        ((first (fun d => decide (bits (f d) 24 32 ≠ bits io 24 32)) rIdSetMismatch).or
          (first (fun d => decide (bits (f d) 8 16 ≠ bits (f 0) 8 16)) rIdRevisionMismatch)))

/-- R154, CD_IDENT, CD_SERIAL: what the fuse read and the pads show. -/
def State.showFuses (s : State) (o : BootObs) : State :=
  let s := s.fput .glbSetchkSetcode 0 0 (bits (s.ioFuses.getD 0 0) 24 32)
  (List.range 12).foldl (fun s d =>
    let w := (s.die d).fuses.getD 0 0
    let (a, b) := padsOf o d
    let s := s.rput .cdSerial d 0 ((s.die d).fuses.getD 1 0)
    s.rput .cdIdent d 0 (BitVec.ofNat 64 (bits w 0 4 + b2n (a && !b) * 16 + b2n (a == b) * 32 + bits w 8 16 * 2 ^ 8 + bits w 24 32 * 2 ^ 24))) s

/-- R335, R155: boot stops: rails the kiln raised but the I/O rail are turned off, and the stop is FATAL. -/
def State.bootStop (s : State) (reason : Nat) : State :=
  let st := s.fget .glbBootstatStage
  let s := (s.fput .glbBootstatStage 0 0 (0x80 + st)).fput .glbBootstatReason 0 0 reason
  let s := { s with kiln := { s.kiln with railsUp := s.kiln.railsUp.filter (· == 12), railDue := [] } }
  let s := (List.range 12).foldl (fun s d => s.fput .pwrDiectlVcode d 0 0) s
  s.logEvent { cls := 3, event := 1, kind := 0, reason := reason, detail := st }

/-- R170: stage 0x05: every die that is not fenced is trained, or fenced with cause 3. -/
def State.bootSlip (s : State) (o : BootObs) : State :=
  (List.range 12).foldl (fun s d =>
    if s.fget .slpDstatState d = 2 then s
    else
      let mine := fun (l : List (Nat × Nat)) => (l.filter (fun e => e.1 == d)).map (fun e => e.2)
      let r := s.trainDie d ((o.slipBadWires.filter (fun e => e.1 == d)).map (fun e => e.2)) (mine o.slipBadClocks) (mine o.recheckBad)
      if r.2 then r.1 else r.1.fenceDie d 3) s

/-- The DIMM at a position, channel × 2 + slot. -/
def dimmAt (o : BootObs) (pos : Nat) : Option DimmSpd := (o.dimms.find? (fun e => e.1 == pos)).map (fun e => e.2)

/-- R171: the DIMM is of a supported type. -/
def dimmFits (d : DimmSpd) : Bool := d.supported && (decide (d.pranks = 1) || decide (d.pranks = 2)) && decide (d.stackLog ≤ 2)

/-- R172: a position fails the population check. -/
def popBad (o : BootObs) (pos : Nat) : Bool :=
  match dimmAt o pos, dimmAt o (pos % 2), dimmAt o 0 with
  | none, r, _ => r.isSome || decide (pos = 0)
  | some _, none, _ => true
  | some d, some _, some r => !dimmFits d || decide (d.density32 ≠ r.density32) || decide (d.pranks ≠ r.pranks) || decide (d.stackLog ≠ r.stackLog)
  | some _, some _, none => true

/-- R171 to R173: stage 0x06: the population is examined and the channels brought up at one speed, or none is. R344: a channel that does not train
is out of service (DEDUCED, log 36). -/
def State.bootMemory (s : State) (o : BootObs) : State :=
  match (List.range 32).find? (fun p => popBad o p), dimmAt o 0 with
  | some p, _ => { s with mem := { s.mem with popReason := rMemPopulationInvalid, popCh := p / 2, popSlot := p % 2 } }
  | none, none => s
  | none, some r =>
    let two := (dimmAt o 1).isSome
    let ds := o.dimms.map (fun e => e.2)
    let speed := ds.foldl (fun v d => min v d.maxSpeed) (if two then 2 else 4)
    let top := fun (f : DimmSpd → Nat) => ds.foldl (fun v d => max v (f d)) 0
    let lr := (1 + b2n two) * r.pranks * 2 ^ r.stackLog
    let cfg := speed + b2n two * 8 + b2n r.density32 * 16 + b2n (decide (r.pranks = 2)) * 32 + r.stackLog * 64 + lr * 2 ^ 8 +
      lr * (if r.density32 then 64 else 32) * 2 ^ 16 + 2 ^ 32
    let s := { s with mem := { s.mem with popReason := 0, popCh := 0, popSlot := 0
                                          taaPs := top (·.taaPs), trcdPs := top (·.trcdPs), trpPs := top (·.trpPs) } }
    let s := (List.range 16).foldl (fun s mc => s.rput .mcCfg mc 0 (BitVec.ofNat 64 cfg)) s
    o.trainFail.foldl (fun s mc => if mc < 16 then s.channelLost mc else s) s

/-- R193: stage 0x08: the canary check, and every unit that does not start fired is queued in ascending order. -/
def State.bootFire (s : State) : State :=
  let s := s.wakeCheck
  s.unfire ((List.range (s.dramBytes / 2 ^ 30)).filter (fun u => !s.fired u)) none

/-- R336: this package makes partition 0 and gives it the cores, the window and the root ports its record names; each cut of the window is logged.
DESIGN CHOICE (log 33): each member does so itself, and tells the others its windows and cores. -/
def State.platform (s : State) : State :=
  let cfg := s.kiln.cfg
  let s := s.makePart 0 false true (s.fget .reelSysMembers)
  let cores := (List.range (min 240 cfg.p0cores)).filter (fun c => s.dieUp (dieOf c))
  let s := (cores.foldl (fun s c => (s.setMapBit .prtCore 0 c true).startCoreReset c none) s).makePairs 0 cores
  let gib := min (cfg.p0mem / 64) (s.carveBase / 2 ^ 36) * 64
  let s := if gib = 0 then s else s.rput .prtWin 0 0 (BitVec.ofNat 64 (1 + s.pkg * 2 ^ 14 * 2 ^ 8 + gib * 2 ^ 32))
  let s := (List.range 20).foldl (fun s n =>
    if bit cfg.p0rports n && s.portExists n then s.rput .prtIo 0 4 (setBit (s.rget .prtIo 0 4) n true) else s) s
  let s := if gib < cfg.p0mem then s.logEvent { cls := 1, event := 1, kind := 0, part := some 0, detail := 9 } else s
  let s := s.tellSpan 0
  let lead := decide (s.fget .reelSysLead = s.pkg)
  let inside := decide (s.pkg * 2 ^ 44 ≤ cfg.p0entry) && decide (cfg.p0entry < s.pkg * 2 ^ 44 + gib * 2 ^ 30)
  let s := if lead && decide (0 < cfg.p0cores) && !inside then s.logEvent { cls := 1, event := 1, kind := 0, part := some 0, detail := 9 } else s
  { s with kiln := { s.kiln with p0 := if lead && decide (0 < cfg.p0cores) && inside then 0 else 2 } }

/-- R336 step 2: the payload is written at P0ENTRY, a line at a time; the last line's rest is zero. -/
def State.copyPayload (s : State) : State :=
  let base := s.kiln.cfg.p0entry
  let n := (s.kiln.payload.length + 63) / 64 * 64
  (linePieces base n (n / 64 + 1)).foldl (fun s p =>
    (s.ncSend .kiln .plain true p.1 p.2 (BitVec.ofNat 512 (leNat ((s.kiln.payload.drop (p.1 - base)).take p.2))) false 3).2) s

/-- R336: the enable of partition 0: the packet of PART_ENABLE with the first context, core 0 slot 0 of this package, and P0ENTRY. -/
def State.enablePkt (s : State) : List W64 :=
  [BitVec.ofNat 64 (0x0105 + 5 * 2 ^ 32 + s.pkg * 2 ^ 56), 0, BitVec.ofNat 64 s.kiln.cfg.p0entry, BitVec.ofNat 64 (s.hartid 0 0), 0]

/-- R331: a stage is entered, and its work begins. -/
def State.enterStage (s : State) (n : Nat) : State :=
  let s := s.fput .glbBootstatStage 0 0 n
  match n with
  | 3 => { s with kiln := { s.kiln with railDue := [(12, s.now + 10000 * usTicks)] } }
  | 7 => ((List.range 10).foldl (fun s k => if bit s.kiln.cfg.reelMask k then s.startTraining k none else s) s).tryForm
  | 8 => s.bootFire
  | 9 => s.platform
  | _ => s

/-- R333: a boot configuration record breaks R200 or names an entry point outside the window it asks for. -/
def cfgBad (c : BootCfg) : Bool :=
  decide (7 < ((List.range 10).filter (fun k => bit c.reelMask k)).length) ||
    (decide (0 < c.p0cores) && !(decide (c.p0entry < 2 ^ 47) && decide (c.p0entry % 2 ^ 44 < c.p0mem * 2 ^ 30)))

/-- R332, R333, R351: an image that verifies is taken: its record, its payload; the root ports that exist are disabled ones. -/
def State.takeImage (s : State) (img : Image) (hw copyB : Bool) : State :=
  let bad := cfgBad img.cfg
  let s := (s.fput .glbBootstatSrchw 0 0 (b2n hw)).fput .glbBootstatCopyb 0 0 (b2n copyB)
  let s := { s with kiln := { s.kiln with cfg := if bad then {} else img.cfg, payload := img.payload, fwVersion := img.version, fwLevel := img.secLevel } }
  let s := (List.range 20).foldl (fun s n => if s.portExists n then s.fput .rptStatState n 0 1 else s) s
  let s := if bad then s.logEvent { cls := 1, event := 1, kind := 0, detail := 2 } else s
  s.enterStage 3

/-- R331: AON reset is released: each strap takes its last sample, one whose samples differ is UNSTABLE, and the ROM runs. -/
def execAonResetRelease (samples : List (BitVec 5)) (s : State) : Out :=
  if !s.kiln.aonHeld then .next s
  else
    let v : BitVec 5 := samples.getLastD 0
    let unstable := samples.foldl (fun (u : BitVec 5) x => u ||| (x ^^^ v)) 0
    let s := s.rput .glbStraps 0 0 (BitVec.ofNat 64 (v.toNat + unstable.toNat * 2 ^ 8))
    let s := { s with kiln := { s.kiln with aonHeld := false, bootSrcHeld := bit v 4 }
                      reel := { s.reel with formBy := s.now + 2000000 * usTicks }, fBase := s.fcyc }
    .next (s.enterStage 1)

/-- R332: the ROM has read the flash: copy A, else copy B, is taken if it verifies; else the ROM waits for a pushed image. -/
def execBootImageVerified (copyA copyB : Option Image) (s : State) : Out :=
  if s.fget .glbBootstatStage ≠ 2 ∨ !s.kiln.bootSrcHeld ∨ s.fget .glbBootstatReason ≠ 0 then .next s
  else
    match copyA.filter (·.sigOk), copyB.filter (·.sigOk) with
    | some a, _ => .next (s.takeImage a true false)
    | none, some b => .next (s.takeImage b true true)
    | none, none => .next (s.fput .glbBootstatReason 0 0 (if copyA.isSome || copyB.isSome then rFwSignatureInvalid else rFwNotStaged))

/-- R332: GLB_BOOTIMG written: with GO in stage 0x02 the image in the staging area is verified. -/
def State.bootimgPut (s : State) (v : W64) (img : Option Image) : State :=
  let s := s.rwrite .glbBootimg 0 0 v
  if !bit v 0 ∨ s.fget .glbBootstatStage ≠ 2 then s
  else
    match img with
    | none => s.fput .glbBootstatReason 0 0 rFwNotStaged
    | some i => if i.sigOk then s.takeImage i false false else s.fput .glbBootstatReason 0 0 rFwSignatureInvalid

/-- R332: a write of GLB_BOOTIMG with GO, and what the ROM finds in the staging area. -/
def execGlbBootimgGo (q : Req) (v : W64) (img : Option Image) (s : State) : Out :=
  s.regWrite q .glbBootimg 0 0 v (fun s => s.bootimgPut v img)

/-- R334: a rail's power-good comes: after the I/O rail's trim the saggar, VDDQ and core rails are raised, each 8 µs after the one before. -/
def execRailPowerGood (rail : Nat) (s : State) : Out :=
  let s := { s with pins := { s.pins with pgDown := s.pins.pgDown.filter (· != rail) } }
  match Tab.find s.kiln.railDue rail with
  | none => .next s
  | some t =>
    if s.now + 10000 * usTicks < t then .next s
    else
      let s := { s with kiln := { s.kiln with railDue := Tab.del s.kiln.railDue rail, railsUp := s.kiln.railsUp ++ [rail] } }
      if rail = 12 then
        let w := s.now + 10000 * usTicks
        let next := (List.range 12).foldl (fun t d => Tab.ins t d (w + (2 + d) * 8 * usTicks)) (Tab.ins (Tab.ins s.kiln.railDue 13 w) 14 (w + 8 * usTicks))
        .next { s with kiln := { s.kiln with railDue := next } }
      else .next (if rail < 12 then s.fput .pwrDiectlVcode rail 0 (s.vCode rail 0) else s)

/-- R334: a rail has no power-good after 10 ms: its die is fenced with cause 5, or boot stops. -/
def execRailPgTimeout (rail : Nat) (s : State) : Out :=
  match Tab.find s.kiln.railDue rail with
  | none => .next s
  | some t =>
    if s.now < t then .next s
    else
      let s := { s with kiln := { s.kiln with railDue := Tab.del s.kiln.railDue rail } }
      .next (if rail < 12 then s.fenceDie rail 5 else s.bootStop rTimeout)

/-- R154, R155: stage 0x04: the set check, and what follows from it. -/
def State.bootSetCheck (s : State) (o : BootObs) : State :=
  let s := (s.showFuses o).fput .glbSetchkDone 0 0 1
  match s.setCheck o with
  | none => (s.fput .glbSetchkPass 0 0 1).enterStage 5
  | some (r, d) => ((s.fput .glbSetchkReason 0 0 r).fput .glbSetchkDie 0 0 d).bootStop r

/-- R336: stage 0x09: the payload once the window is fired, then the enable; firing finished, stage 0x0A. -/
def State.bootPlatform (s : State) : State :=
  if s.kiln.p0 = 0 then
    let n := (s.kiln.cfg.p0mem / 64) * 64
    let w := min n (bits (s.rget .prtWin 0 0) 32 15)
    if (List.range w).all (fun u => s.fired u) then { s.copyPayload with kiln := { s.copyPayload.kiln with p0 := 1 } } else s
  else if s.kiln.p0 = 1 then (if s.kilnQuiet then { s with kiln := { s.kiln with p0 := 2 } }.kaccept (.ring 5) s.enablePkt else s)
  else if s.mem.fireQ.isEmpty then s.enterStage 10
  else s

/-- R331: a stage has done its work, and the next begins. Stage 0x02 ends with an image, and a stage whose conditions do not hold goes on. DEDUCED
(log 37): stage 0x08 ends when the first granule is fired, as in the worked example. -/
def execBootStageComplete (o : BootObs) (s : State) : Out :=
  if s.kiln.aonHeld ∨ s.pins.thermtrip then .next s
  else
    match s.fget .glbBootstatStage with
    | 0 => .next (if s.pins.pgDown.contains 12 then s else s.enterStage 1)
    | 1 => .next (s.enterStage 2)
    | 3 => .next (if s.kiln.railDue.isEmpty && s.kiln.railsUp.contains 14 then s.enterStage 4 else s)
    | 4 => .next (s.bootSetCheck o)
    | 5 => .next ((s.bootSlip o).enterStage 6)
    | 6 => .next ((s.bootMemory o).enterStage 7)
    | 7 => .next (if s.fget .reelSysFormed = 1 then s.enterStage 8 else s)
    | 8 => .next (if s.mem.fireQ.isEmpty || decide (0 < s.firedUnits) then s.enterStage 9 else s)
    | 9 => .next s.bootPlatform
    | _ => .next s

end Sys2Proof.Machine
end

