-- ==== Sys2Proof/Machine/Fp.lean ====
section
/-! DEFINITION. Floating point (R54: IEEE 754-2008, all rounding modes, subnormals): exact integer arithmetic and one
rounding at the end, with the flags and the NaN rules of the RISC-V F and D extensions (PRESUMED, log 5), and the latencies
of R18. -/

namespace Sys2Proof

/-- A floating-point datum: a NaN (signalling or quiet), an infinity, or a sign with m × 2^e. -/
inductive FpVal where
  | nan (sig : Bool)
  | inf (s : Bool)
  | fin (s : Bool) (m : Nat) (e : Int)
  deriving DecidableEq, Repr

/-- The exception flags NX, UF, OF, DZ and NV as fcsr places them. -/
def flNX : Nat := 1
def flUF : Nat := 2
def flOF : Nat := 4
def flDZ : Nat := 8
def flNV : Nat := 16

/-- Stored fraction bits of a format. -/
def FpFmt.mb : FpFmt → Nat
  | .s => 23
  | .d => 52

/-- Exponent bits of a format. -/
def FpFmt.eb : FpFmt → Nat
  | .s => 8
  | .d => 11

/-- Total bits of a format. -/
def FpFmt.wd : FpFmt → Nat
  | .s => 32
  | .d => 64

/-- The exponent of the last place of the smallest numbers of a format. -/
def FpFmt.emin : FpFmt → Int
  | .s => -149
  | .d => -1074

/-- The exponent of the last place of the largest numbers of a format. -/
def FpFmt.emax : FpFmt → Int
  | .s => 104
  | .d => 971

/-- The encoding of a sign, exponent field and fraction. -/
def fpPack (f : FpFmt) (s : Bool) (ex mant : Nat) : Nat :=
  b2n s * 2 ^ (f.wd - 1) + ex * 2 ^ f.mb + mant

/-- The canonical NaN. -/
def fpQNaN (f : FpFmt) : Nat := fpPack f false (2 ^ f.eb - 1) (2 ^ (f.mb - 1))

/-- The datum that an encoding stands for. -/
def fpUnpack (f : FpFmt) (v : Nat) : FpVal :=
  let s := decide (v / 2 ^ (f.wd - 1) % 2 = 1)
  let ex := v / 2 ^ f.mb % 2 ^ f.eb
  let mant := v % 2 ^ f.mb
  if ex = 2 ^ f.eb - 1 then
    if mant = 0 then .inf s else .nan (decide (mant < 2 ^ (f.mb - 1)))
  else if ex = 0 then .fin s mant f.emin
  else .fin s (mant + 2 ^ f.mb) (f.emin + (ex : Int) - 1)

/-- R46: a single-precision value read from a register: the low half when NaN-boxed, else the canonical NaN. -/
def fpUnbox (f : FpFmt) (v : W64) : Nat :=
  match f with
  | .d => v.toNat
  | .s => if bits v 32 32 = 2 ^ 32 - 1 then bits v 0 32 else fpQNaN .s

/-- R46: a value NaN-boxed into a register. -/
def fpBox (f : FpFmt) (v : Nat) : W64 :=
  match f with
  | .d => BitVec.ofNat 64 v
  | .s => BitVec.ofNat 64 (v % 2 ^ 32 + (2 ^ 32 - 1) * 2 ^ 32)

/-- A magnitude m × 2^e (plus something smaller than its last place when `st`) rounded to a multiple of 2^t: the
multiple and whether it is inexact. -/
def fpRoundAt (rm : RoundMode) (s : Bool) (m : Nat) (e : Int) (st : Bool) (t : Int) : Nat × Bool :=
  if t ≤ e then (m * 2 ^ (e - t).toNat, st)
  else
    let d := (t - e).toNat
    let q := m / 2 ^ d
    let r := m % 2 ^ d
    let half := 2 ^ (d - 1)
    let inex := decide (r ≠ 0) || st
    let up : Bool :=
      match rm with
      | .rtz => false
      | .rdn => inex && s
      | .rup => inex && !s
      | .rmm => decide (half ≤ r)
      | .rne => decide (half < r) || (decide (r = half) && (st || decide (q % 2 = 1)))
      | .dyn => false
    (if up then q + 1 else q, inex)

/-- A magnitude rounded into a format, with its flags. Tininess is detected after rounding. -/
def fpRound (f : FpFmt) (rm : RoundMode) (s : Bool) (m : Nat) (e : Int) (st : Bool) : Nat × Nat :=
  if m = 0 && !st then (fpPack f s 0 0, 0)
  else
    let p := f.mb + 1
    let t0 := e + ((m.log2 + 1 : Nat) : Int) - (p : Int)
    let t := max t0 f.emin
    let r := fpRoundAt rm s m e st t
    let (q, t) := if r.1 = 2 ^ p then (2 ^ (p - 1), t + 1) else (r.1, t)
    let u := fpRoundAt rm s m e st t0
    let tiny := decide (t0 < f.emin) && !(decide (t0 = f.emin - 1) && decide (u.1 = 2 ^ p))
    if t > f.emax then
      let big := match rm with
        | .rtz => false
        | .rdn => s
        | .rup => !s
        | .rne => true
        | .rmm => true
        | .dyn => true
      (if big then fpPack f s (2 ^ f.eb - 1) 0 else fpPack f s (2 ^ f.eb - 2) (2 ^ f.mb - 1), flOF + flNX)
    else
      let v := if q < 2 ^ (p - 1) then fpPack f s 0 q
        else fpPack f s ((t - f.emin).toNat + 1) (q - 2 ^ (p - 1))
      (v, if r.2 then (if tiny then flUF + flNX else flNX) else 0)

/-- A signalling NaN among operands raises NV. -/
def FpVal.isSig : FpVal → Bool
  | .nan s => s
  | .inf _ => false
  | .fin _ _ _ => false

/-- The datum is a NaN. -/
def FpVal.isNan : FpVal → Bool
  | .nan _ => true
  | .inf _ => false
  | .fin _ _ _ => false

/-- The sign of a datum. -/
def FpVal.sign : FpVal → Bool
  | .nan _ => false
  | .inf s => s
  | .fin s _ _ => s

/-- The datum with the other sign. -/
def FpVal.neg : FpVal → FpVal
  | .nan q => .nan q
  | .inf s => .inf (!s)
  | .fin s m e => .fin (!s) m e

/-- The integer s m. -/
def sgnInt (s : Bool) (m : Nat) : Int := if s then -(m : Int) else (m : Int)

/-- The NaN result with NV when an operand signals. -/
def fpNaNOut (f : FpFmt) (nv : Bool) : Nat × Nat := (fpQNaN f, if nv then flNV else 0)

/-- The rounded sum of two finite numbers. -/
def fpSumFin (f : FpFmt) (rm : RoundMode) (sa : Bool) (ma : Nat) (ea : Int) (sb : Bool) (mb : Nat) (eb : Int) : Nat × Nat :=
  if ma = 0 ∧ mb = 0 then
    (fpPack f (if sa = sb then sa else decide (rm = .rdn)) 0 0, 0)
  else
    let e := min ea eb
    let v := sgnInt sa (ma * 2 ^ (ea - e).toNat) + sgnInt sb (mb * 2 ^ (eb - e).toNat)
    if v = 0 then (fpPack f (decide (rm = .rdn)) 0 0, 0)
    else fpRound f rm (decide (v < 0)) v.natAbs e false

/-- FADD of two data. -/
def fpAdd (f : FpFmt) (rm : RoundMode) (a b : FpVal) : Nat × Nat :=
  match a, b with
  | .nan x, b => fpNaNOut f (x || b.isSig)
  | .inf s, b =>
    match b with
    | .nan y => fpNaNOut f y
    | .inf t => if s = t then (fpPack f s (2 ^ f.eb - 1) 0, 0) else fpNaNOut f true
    | .fin _ _ _ => (fpPack f s (2 ^ f.eb - 1) 0, 0)
  | .fin sa ma ea, b =>
    match b with
    | .nan y => fpNaNOut f y
    | .inf t => (fpPack f t (2 ^ f.eb - 1) 0, 0)
    | .fin sb mb eb => fpSumFin f rm sa ma ea sb mb eb

/-- The exact product of two data; the flag marks infinity times zero. -/
def fpProd (a b : FpVal) : FpVal × Bool :=
  match a, b with
  | .nan x, b => (.nan (x || b.isSig), false)
  | .inf s, b =>
    match b with
    | .nan y => (.nan y, false)
    | .inf t => (.inf (s != t), false)
    | .fin t m _ => if m = 0 then (.nan true, true) else (.inf (s != t), false)
  | .fin s m e, b =>
    match b with
    | .nan y => (.nan y, false)
    | .inf t => if m = 0 then (.nan true, true) else (.inf (s != t), false)
    | .fin t n g => (.fin (s != t) (m * n) (e + g), false)

/-- FMUL. -/
def fpMul (f : FpFmt) (rm : RoundMode) (a b : FpVal) : Nat × Nat :=
  match (fpProd a b).1 with
  | .nan x => fpNaNOut f x
  | .inf s => (fpPack f s (2 ^ f.eb - 1) 0, 0)
  | .fin s m e => fpRound f rm s m e false

/-- The fused a × b + c with one rounding. -/
def fpFma (f : FpFmt) (rm : RoundMode) (a b c : FpVal) : Nat × Nat :=
  let p := fpProd a b
  if p.2 then fpNaNOut f true
  else fpAdd f rm p.1 c

/-- FDIV. -/
def fpDiv (f : FpFmt) (rm : RoundMode) (a b : FpVal) : Nat × Nat :=
  match a, b with
  | .nan x, b => fpNaNOut f (x || b.isSig)
  | .inf s, b =>
    match b with
    | .nan y => fpNaNOut f y
    | .inf _ => fpNaNOut f true
    | .fin t _ _ => (fpPack f (s != t) (2 ^ f.eb - 1) 0, 0)
  | .fin s m e, b =>
    match b with
    | .nan y => fpNaNOut f y
    | .inf t => (fpPack f (s != t) 0 0, 0)
    | .fin t n g =>
      if n = 0 then
        if m = 0 then fpNaNOut f true else (fpPack f (s != t) (2 ^ f.eb - 1) 0, flDZ)
      else
        let k := f.mb + 4 + (n.log2 + 1)
        fpRound f rm (s != t) (m * 2 ^ k / n) (e - g - (k : Int)) (decide (m * 2 ^ k % n ≠ 0))

/-- The integer square root, by its bits from the highest. -/
def isqrt : Nat → Nat → Nat → Nat
  | 0, r, _ => r
  | i + 1, r, n => isqrt i (if (r + 2 ^ i) * (r + 2 ^ i) ≤ n then r + 2 ^ i else r) n

/-- FSQRT. -/
def fpSqrt (f : FpFmt) (rm : RoundMode) (a : FpVal) : Nat × Nat :=
  match a with
  | .nan x => fpNaNOut f x
  | .inf s => if s then fpNaNOut f true else (fpPack f false (2 ^ f.eb - 1) 0, 0)
  | .fin s m e =>
    if m = 0 then (fpPack f s 0 0, 0)
    else if s then fpNaNOut f true
    else
      let k := 2 * (f.mb + 4) + (if e % 2 = 0 then 0 else 1)
      let v := m * 2 ^ k
      let r := isqrt (v.log2 / 2 + 1) 0 v
      fpRound f rm false r ((e - (k : Int)) / 2) (decide (r * r ≠ v))

/-- The order of two finite numbers, as the sign of a − b. -/
def fpCmpFin (sa : Bool) (ma : Nat) (ea : Int) (sb : Bool) (mb : Nat) (eb : Int) : Int :=
  let e := min ea eb
  sgnInt sa (ma * 2 ^ (ea - e).toNat) - sgnInt sb (mb * 2 ^ (eb - e).toNat)

/-- a < b for data that are no NaN. -/
def fpLt (a b : FpVal) : Bool :=
  match a, b with
  | .nan _, _ => false
  | .inf s, b =>
    match b with
    | .nan _ => false
    | .inf t => s && !t
    | .fin _ _ _ => s
  | .fin sa ma ea, b =>
    match b with
    | .nan _ => false
    | .inf t => !t
    | .fin sb mb eb => decide (fpCmpFin sa ma ea sb mb eb < 0)

/-- a = b for data that are no NaN. -/
def fpEq (a b : FpVal) : Bool :=
  match a, b with
  | .nan _, _ => false
  | .inf s, b =>
    match b with
    | .nan _ => false
    | .inf t => decide (s = t)
    | .fin _ _ _ => false
  | .fin sa ma ea, b =>
    match b with
    | .nan _ => false
    | .inf _ => false
    | .fin sb mb eb => decide (fpCmpFin sa ma ea sb mb eb = 0)

/-- FMIN and FMAX: the lesser or greater number, −0 below +0, a number against a NaN. -/
def fpMinMax (f : FpFmt) (mx : Bool) (va vb : Nat) : Nat × Nat :=
  let a := fpUnpack f va
  let b := fpUnpack f vb
  let fl := if a.isSig || b.isSig then flNV else 0
  if a.isNan && b.isNan then (fpQNaN f, fl)
  else if a.isNan then (vb, fl)
  else if b.isNan then (va, fl)
  else
    let aLess := fpLt a b || (fpEq a b && a.sign && !b.sign)
    (if aLess != mx then va else vb, fl)

/-- FCLASS: the bit of the class. -/
def fpClass (f : FpFmt) (v : Nat) : Nat :=
  match fpUnpack f v with
  | .inf s => if s then 1 else 128
  | .nan sig => if sig then 256 else 512
  | .fin s m _ =>
    if m = 0 then (if s then 8 else 16)
    else if m < 2 ^ f.mb then (if s then 4 else 32)
    else (if s then 2 else 64)

/-- The bounds of an integer format. -/
def IntFmt.lo : IntFmt → Int
  | .w => -(2 ^ 31)
  | .wu => 0
  | .l => -(2 ^ 63)
  | .lu => 0

/-- The upper bound of an integer format. -/
def IntFmt.hi : IntFmt → Int
  | .w => 2 ^ 31 - 1
  | .wu => 2 ^ 32 - 1
  | .l => 2 ^ 63 - 1
  | .lu => 2 ^ 64 - 1

/-- An integer of a format as a register value: 32-bit results are sign-extended. -/
def IntFmt.toReg (i : IntFmt) (v : Int) : W64 :=
  match i with
  | .w => sext32 (BitVec.ofInt 32 v)
  | .wu => sext32 (BitVec.ofInt 32 v)
  | .l => wordOfInt v
  | .lu => wordOfInt v

/-- FCVT to an integer: rounded, and clamped with NV outside the format. -/
def fpToInt (rm : RoundMode) (i : IntFmt) (a : FpVal) : W64 × Nat :=
  match a with
  | .nan _ => (i.toReg i.hi, flNV)
  | .inf s => (i.toReg (if s then i.lo else i.hi), flNV)
  | .fin s m e =>
    let r := fpRoundAt rm s m e false 0
    let v := sgnInt s r.1
    if v < i.lo then (i.toReg i.lo, flNV)
    else if i.hi < v then (i.toReg i.hi, flNV)
    else (i.toReg v, if r.2 then flNX else 0)

/-- The integer a register holds in a format. -/
def IntFmt.ofReg (i : IntFmt) (v : W64) : Int :=
  match i with
  | .w => (lo32 v).toInt
  | .wu => ((lo32 v).toNat : Int)
  | .l => v.toInt
  | .lu => (v.toNat : Int)

/-- FCVT from an integer. -/
def fpFromInt (f : FpFmt) (rm : RoundMode) (v : Int) : Nat × Nat :=
  fpRound f rm (decide (v < 0)) v.natAbs 0 false

/-- FCVT between formats: `f` is the destination, the source is the other. -/
def fpCvt (f : FpFmt) (rm : RoundMode) (v : W64) : Nat × Nat :=
  let g := match f with | .s => FpFmt.d | .d => FpFmt.s
  match fpUnpack g (fpUnbox g v) with
  | .nan x => fpNaNOut f x
  | .inf s => (fpPack f s (2 ^ f.eb - 1) 0, 0)
  | .fin s m e => fpRound f rm s m e false

/-- Whether an operation writes an integer register. -/
def FpOp.toX : FpOp → Bool
  | .eq | .lt | .le | .classify | .mvToInt | .cvtToInt _ => true
  | .add | .sub | .mul | .madd | .msub | .nmadd | .nmsub | .min | .max | .sgnj | .sgnjn | .sgnjx
  | .mvFromInt | .cvtFromInt _ | .cvtFmt => false

/-- Whether an operation's first source is an integer register. -/
def FpOp.fromX : FpOp → Bool
  | .mvFromInt | .cvtFromInt _ => true
  | .add | .sub | .mul | .madd | .msub | .nmadd | .nmsub | .min | .max | .sgnj | .sgnjn | .sgnjx
  | .eq | .lt | .le | .classify | .mvToInt | .cvtToInt _ | .cvtFmt => false

/-- How many registers an operation reads. -/
def FpOp.srcs : FpOp → Nat
  | .madd | .msub | .nmadd | .nmsub => 3
  | .add | .sub | .mul | .eq | .lt | .le | .min | .max | .sgnj | .sgnjn | .sgnjx => 2
  | .classify | .mvToInt | .mvFromInt | .cvtToInt _ | .cvtFromInt _ | .cvtFmt => 1

/-- Whether the rounding mode matters (a dynamic mode then needs a valid frm). -/
def FpOp.rounds : FpOp → Bool
  | .add | .sub | .mul | .madd | .msub | .nmadd | .nmsub | .cvtToInt _ | .cvtFromInt _ | .cvtFmt => true
  | .eq | .lt | .le | .min | .max | .sgnj | .sgnjn | .sgnjx | .classify | .mvToInt | .mvFromInt => false

/-- R18: latencies of the FP operations. -/
def FpOp.latency : FpOp → Nat
  | .add | .sub | .mul | .madd | .msub | .nmadd | .nmsub => 4
  | .cvtToInt _ | .cvtFromInt _ | .cvtFmt => 3
  | .eq | .lt | .le | .min | .max | .sgnj | .sgnjn | .sgnjx | .classify | .mvToInt | .mvFromInt => 2

/-- The rounding mode that applies: the dynamic one is fcsr.frm, where 5 to 7 are no mode. -/
def roundModeOf (rm : RoundMode) (frm : Nat) : Option RoundMode :=
  match rm with
  | .dyn =>
    if frm = 0 then some .rne else if frm = 1 then some .rtz else if frm = 2 then some .rdn
    else if frm = 3 then some .rup else if frm = 4 then some .rmm else none
  | .rne => some .rne
  | .rtz => some .rtz
  | .rdn => some .rdn
  | .rup => some .rup
  | .rmm => some .rmm

/-- The result of an FP operation as a register value, and its flags. `a` is the raw first source, integer
or FP. -/
def fpFn (op : FpOp) (f : FpFmt) (rm : RoundMode) (a b c : W64) : W64 × Nat :=
  let ua := fpUnbox f a
  let ub := fpUnbox f b
  let va := fpUnpack f ua
  let vb := fpUnpack f ub
  let vc := fpUnpack f (fpUnbox f c)
  let box := fun (r : Nat × Nat) => (fpBox f r.1, r.2)
  let sb := 2 ^ (f.wd - 1)
  let sgn := fun (v : Nat) => v / sb % 2
  match op with
  | .add => box (fpAdd f rm va vb)
  | .sub => box (fpAdd f rm va vb.neg)
  | .mul => box (fpMul f rm va vb)
  | .madd => box (fpFma f rm va vb vc)
  | .msub => box (fpFma f rm va vb vc.neg)
  | .nmsub => box (fpFma f rm va.neg vb vc)
  | .nmadd => box (fpFma f rm va.neg vb vc.neg)
  | .eq => (BitVec.ofNat 64 (b2n (fpEq va vb)), if va.isSig || vb.isSig then flNV else 0)
  | .lt => (BitVec.ofNat 64 (b2n (fpLt va vb)), if va.isNan || vb.isNan then flNV else 0)
  | .le => (BitVec.ofNat 64 (b2n (fpLt va vb || fpEq va vb)), if va.isNan || vb.isNan then flNV else 0)
  | .min => box (fpMinMax f false ua ub)
  | .max => box (fpMinMax f true ua ub)
  | .sgnj => (fpBox f (ua % sb + sgn ub * sb), 0)
  | .sgnjn => (fpBox f (ua % sb + (1 - sgn ub) * sb), 0)
  | .sgnjx => (fpBox f (ua % sb + (sgn ua + sgn ub) % 2 * sb), 0)
  | .classify => (BitVec.ofNat 64 (fpClass f ua), 0)
  | .mvToInt => (match f with | .d => a | .s => sext32 (lo32 a), 0)
  | .mvFromInt => (fpBox f (a.toNat % 2 ^ f.wd), 0)
  | .cvtToInt i => fpToInt rm i va
  | .cvtFromInt i => box (fpFromInt f rm (i.ofReg a))
  | .cvtFmt => box (fpCvt f rm a)

/-- R18: the result, flags and latency of FDIV and FSQRT. -/
def fpDivFn (sqrt : Bool) (f : FpFmt) (rm : RoundMode) (a b : W64) : W64 × Nat × Nat :=
  let va := fpUnpack f (fpUnbox f a)
  let r := if sqrt then fpSqrt f rm va else fpDiv f rm va (fpUnpack f (fpUnbox f b))
  let lat := match f with
    | .s => if sqrt then 12 else 11
    | .d => if sqrt then 20 else 18
  (fpBox f r.1, r.2, lat)

end Sys2Proof
end

