-- ==== Sys2Proof/Machine/Float.lean ====
section
/-! DEFINITION. The floating-point instructions (R18, R19, R41). -/

namespace Sys2Proof.Machine

/-- The scoreboard names of an FP operation's destination and sources. -/
def fpRegs (op : FpOp) (rd rs1 rs2 rs3 : Nat) : List Nat :=
  [if op.toX then rd else rd + 32, if op.fromX then rs1 else rs1 + 32] ++
    (if 2 ≤ op.srcs then [rs2 + 32] else []) ++ (if 3 ≤ op.srcs then [rs3 + 32] else [])

/-- R18: an FP arithmetic, compare, convert or move, on lane 0 with its class latency. A dynamic rounding mode that is no mode
makes it illegal. -/
def execFpOperation (h : Ins) (op : FpOp) (fmt : FpFmt) (rm : RoundMode) (rd rs1 rs2 rs3 : Nat) (s : State) : Out :=
  let frm := bits (s.ctx h.core h.ctx).fcsr 5 3
  match roundModeOf (if op.rounds then rm else .rne) frm with
  | none => s.issueK h { lane := 0, regs := [] } (fun k t => k.illegal t h)
  | some r =>
    s.issueFp h { lane := 0, regs := fpRegs op rd rs1 rs2 rs3, safe := true } (fun k t =>
      k.done t h op.latency (some (if op.toX then rd else rd + 32)) (fun x =>
        let a := if op.fromX then x.getX rs1 else x.getF rs1
        let o := fpFn op fmt r a (x.getF rs2) (x.getF rs3)
        (if op.toX then x.setX rd o.1 else x.setF rd o.1).accrue o.2))

/-- R18, R19: FDIV or FSQRT takes the core's one FP divide and square-root unit, if it is free, for its full latency. -/
def execFpDivide (h : Ins) (sqrt : Bool) (fmt : FpFmt) (rm : RoundMode) (rd rs1 rs2 : Nat) (s : State) : Out :=
  let frm := bits (s.ctx h.core h.ctx).fcsr 5 3
  match roundModeOf rm frm with
  | none => s.issueK h { lane := 0, regs := [] } (fun k t => k.illegal t h)
  | some r =>
    if (s.core h.core).fdivu.isSome then .next s
    else
      s.issueFp h { lane := 0, regs := [rd + 32, rs1 + 32] ++ (if sqrt then [] else [rs2 + 32]) } (fun k t =>
        let x := k.ctx h.ctx
        let o := fpDivFn sqrt fmt r (x.getF rs1) (x.getF rs2)
        let k := { k with fdivu := some { ctx := h.ctx, rd := rd, fp := true, val := o.1, flags := o.2.1, free := t + o.2.2 } }
        k.done t h o.2.2 (some (rd + 32)) id)

end Sys2Proof.Machine
end

