-- ==== Sys2Proof/Machine/Integer.lean ====
section
/-! DEFINITION. The integer instructions: ALU, multiply, divide, branches and jumps (R18, R19, R22). -/

namespace Sys2Proof.Machine

/-- R18: an integer ALU instruction, on either lane, with latency 1. -/
def execIntegerAlu (h : Ins) (op : AluOp) (rd rs1 : Nat) (b : Src2) (s : State) : Out :=
  s.issueK h { lane := 2, regs := [rd, rs1] ++ src2Regs b, safe := true } (fun k t =>
    k.done t h 1 (some rd) (fun x => x.setX rd (aluFn op x.pc (x.getX rs1) (x.src2 b))))

/-- R18: a multiply, on lane 0, with latency 3. -/
def execMultiply (h : Ins) (op : MulOp) (rd rs1 rs2 : Nat) (s : State) : Out :=
  s.issueK h { lane := 0, regs := [rd, rs1, rs2], safe := true } (fun k t =>
    k.done t h 3 (some rd) (fun x => x.setX rd (mulFn op (x.getX rs1) (x.getX rs2))))

/-- R18, R19: a divide takes the core's one divider, if it is free, for its whole latency. -/
def execDivide (h : Ins) (op : DivOp) (rd rs1 rs2 : Nat) (s : State) : Out :=
  if (s.core h.core).divu.isSome then .next s
  else
    s.issueK h { lane := 0, regs := [rd, rs1, rs2] } (fun k t =>
      let x := k.ctx h.ctx
      let a := x.getX rs1
      let b := x.getX rs2
      let lat := divLatency op a b
      let k := { k with divu := some { ctx := h.ctx, rd := rd, fp := false, val := divFn op a b, flags := 0, free := t + lat } }
      k.done t h lat (some rd) id)

/-- R19: a unit whose latency has passed writes its result and is free. -/
def Core.freeUnit (k : Core) (u : UnitOp) : Core :=
  k.modCtx u.ctx (fun x => if u.fp then (x.setF u.rd u.val).accrue u.flags else x.setX u.rd u.val)

/-- R19: a divide completes in the cycle its latency ends; the unit is free for any context. -/
def execDividerFree (core : Nat) (fp : Bool) (s : State) : Out :=
  let k := s.core core
  match (if fp then k.fdivu else k.divu) with
  | none => .next s
  | some u =>
    if u.free ≤ s.cyc core then
      let k := k.freeUnit u
      .next (s.setCore core (if fp then { k with fdivu := none } else { k with divu := none }))
    else .next s

/-- R22: a transfer resolved in EX: fetch restarts at its target in t + 2, four bubbles. -/
def Core.transfer (k : Core) (t : Nat) (h : Ins) (target : W64) (rd : Option Nat) (f : Ctx → Ctx) : Core :=
  let k := k.done t h 1 rd f
  (k.modCtx h.ctx (fun x => x.restart target (t + 2))).ev 4 h.ctx 4

/-- R22: a conditional branch: target or fall-through is fetched again, at the same cost. -/
def execConditionalBranch (h : Ins) (c : BrCond) (rs1 rs2 : Nat) (off : W64) (s : State) : Out :=
  s.issueK h { lane := 0, regs := [rs1, rs2] } (fun k t =>
    let x := k.ctx h.ctx
    let dest := if brCond c (x.getX rs1) (x.getX rs2) then x.pc + off else x.pc + BitVec.ofNat 64 (insLen h)
    k.transfer t h dest none id)

/-- R22: a direct jump: the IF2 adder has already turned the stream to its target, so the bytes that follow it in the buffer
are the target's; one bubble when it issues in b + 2. -/
def execDirectJump (h : Ins) (rd : Nat) (off : W64) (s : State) : Out :=
  s.issueK h { lane := 0, regs := [rd] } (fun k t =>
    let x := k.ctx h.ctx
    let early := (s.ctx h.core h.ctx).fbuf.any (fun b => decide (b.lo = x.pc.toNat) && decide (b.ready = t))
    let link := x.pc + BitVec.ofNat 64 (insLen h)
    let dest := x.pc + off
    let k := k.done t h 1 (some rd) (fun x => x.setX rd link)
    let k := k.modCtx h.ctx (fun y => { y with pc := dest })
    if early then k.ev 4 h.ctx 1 else k)

/-- R22: an indirect jump: bit 0 of the sum is cleared (RISC-V), fetch restarts there in t + 2. -/
def execIndirectJump (h : Ins) (rd rs1 : Nat) (off : W64) (s : State) : Out :=
  s.issueK h { lane := 0, regs := [rd, rs1] } (fun k t =>
    let x := k.ctx h.ctx
    let link := x.pc + BitVec.ofNat 64 (insLen h)
    k.transfer t h (setBits (x.getX rs1 + off) 0 1 0) (some rd) (fun x => x.setX rd link))

end Sys2Proof.Machine
end

