-- ==== Sys2Proof/Machine/Rpt.lean ====
section
/-! DEFINITION. The root ports: enable and link, downstream requests and their completions, upstream TLPs and their order (R122, R269, R351 to
R357). -/

namespace Sys2Proof.Machine

/-- A root port. -/
def State.rpt (s : State) (n : Nat) : Rpt := Tab.get {} s.rpts n

/-- A root port changed. -/
def State.modRpt (s : State) (n : Nat) (f : Rpt → Rpt) : State := { s with rpts := Tab.put {} s.rpts n (f (s.rpt n)) }

/-- The partition that owns a root port. -/
def State.portOwner (s : State) (n : Nat) : Option Nat := (List.range 64).find? (fun p => s.partHasPort p n)

/-- The owner of a port as event tags carry it: 64 for none. -/
def State.portTag (s : State) (n : Nat) : Nat := (s.portOwner n).getD 64

/-- R354: an error that a root port detects is reported on its route. -/
def State.portError (s : State) (n : Nat) : State := s.fireRoute (336 + n)

/-- R356: the completion timeout of a port, in ticks. -/
def State.ctoTicks (s : State) (n : Nat) : Nat :=
  usTicks * 1000 * [1, 10, 25, 50, 100, 250, 500, 1000].getD (min 7 (s.fget .rptCtlCto n)) 1000

/-- R352: an address of a root port's window lies in its ECAM part. -/
def isEcam (pa : Nat) : Bool := decide (pa % 2 ^ 40 < 0x10000000)

/-- R353: the bus and the device of an ECAM address. -/
def ecamDev (pa : Nat) : Nat × Nat := (pa / 2 ^ 20 % 256, pa / 2 ^ 15 % 32)

/-- R353: all-ones data. -/
def allOnes : W64 := 0xFFFFFFFFFFFFFFFF

/-- The link of a root port is up: in L0 or L1. -/
def State.portUp (s : State) (n : Nat) : Bool := decide (s.fget .rptStatState n = 3) || decide (s.fget .rptStatState n = 4)

/-- A downstream access of a port that has reached it and is not performed yet. -/
def State.atPort (s : State) (n : Nat) (d : Dev) : Bool := decide (s.target d.pa = .port n) && d.done.isNone && decide (d.at_ + 3 ≤ s.fcyc)

/-- R353, R354, R357, R64: a downstream access reaches the port: a posted write is done once it is in the posted queue; a non-posted request is sent
while fewer than 32 are outstanding; with the link down either ends with DEVICE_ERROR. -/
def State.portTakes (s : State) (n : Nat) (d : Dev) : State :=
  let (bus, dev) := ecamDev d.pa
  if (s.rpt n).down.any (fun x => x.id == d.id) then s
  else if !s.portUp n then
    (if d.write && !isEcam d.pa then s.logEvent { cls := 1, event := 0x61, kind := 6, idx := n, reason := rDeviceError, addr := d.pa, detail := n } else s).devDone
      d.id rDeviceError 0
  else if isEcam d.pa && decide (bus = 0) && decide (dev ≠ 0) then s.devDone d.id 0 allOnes
  else if d.write && !isEcam d.pa then (s.bytes 1 n (s.portTag n) false (2 ^ d.sz)).devDone d.id 0 0
  else if (s.rpt n).down.length < 32 then
    (s.pev 3 4 n (s.portTag n) 1).modRpt n (fun p => { p with down := p.down ++ [{ id := d.id, sent := s.now, first := s.now }] })
  else s

/-- The downstream accesses of a port that have reached it are taken, in order. -/
def State.portTakeAll (s : State) (n : Nat) : State := (s.fab.devs.filter (s.atPort n)).foldl (fun s d => s.portTakes n d) s

/-- The access of a downstream request, and the request, once what has reached the port has been taken. -/
def State.downOf (s : State) (n id : Nat) : Option (Dev × Down) :=
  match s.fab.devs.find? (fun d => d.id == id && d.done.isNone), (s.rpt n).down.find? (fun x => x.id == id) with
  | some d, some x => some (d, x)
  | _, _ => none

/-- A downstream request has ended. -/
def State.downEnds (s : State) (n id status : Nat) (val : W64) : State :=
  ((s.modRpt n (fun p => { p with down := p.down.filter (fun x => x.id != id) })).devDone id status val).portTakeAll n

/-- R353, R356: the status and the data with which a completion ends a request; none for one that is to be retried. DEDUCED (log 38): a configuration
write raises no bus error either, and a retry status for a memory request is an error. -/
def downResult (cfg : Bool) (st : CplStat) (val : W64) : Option (Nat × W64) :=
  match st with
  | .ok => some (0, val)
  | .ur => some (if cfg then (0, allOnes) else (rDeviceError, 0))
  | .ca => some (if cfg then (0, allOnes) else (rDeviceError, 0))
  | .crs => if cfg then none else some (rDeviceError, 0)
  | .ep => some (rPoisoned, 0)

/-- R353, R356: a completion at a root port; one with no request is an Unexpected Completion. -/
def execDownstreamCompletion (n id : Nat) (st : CplStat) (val : W64) (s : State) : Out :=
  if !s.portUp n then .next s
  else
    let s := s.portTakeAll n
    match s.downOf n id with
    | none => .next ((s.modRpt n (fun p => { p with unexpected := p.unexpected + 1 })).portError n)
    | some (d, _) =>
      let s := s.bytes 1 n (s.portTag n) true (if d.write then 0 else 2 ^ d.sz)
      let s := if st = .ep then (s.pev 3 7 n (s.portTag n) 1).portError n else s
      match downResult (isEcam d.pa) st val with
      | some (r, v) => .next (s.downEnds n id r v)
      | none => .next (s.modRpt n (fun p => { p with down := p.down.map (fun x => if x.id = id then { x with retry := true } else x) }))

/-- R353, R356: a request has had no completion within CTO. -/
def execRootPortCplTimeout (n id : Nat) (s : State) : Out :=
  let s := s.portTakeAll n
  match s.downOf n id with
  | none => .next s
  | some (d, x) =>
    if x.retry ∨ s.now < x.sent + s.ctoTicks n then .next s
    else
      let s := (s.pev 3 5 n (s.portTag n) 1).portError n
      .next (if isEcam d.pa then s.downEnds n id 0 allOnes else s.downEnds n id rDeviceError 0)

/-- R353: a configuration request answered with retry status is sent again after 1 ms, or after 1 s ends with all-ones data. -/
def execConfigRetry (n id : Nat) (s : State) : Out :=
  match s.downOf n id with
  | none => .next s
  | some (_, x) =>
    if !x.retry ∨ s.now < x.sent + 1000 * usTicks then .next s
    else if x.first + 1000000 * usTicks ≤ s.now then .next (s.downEnds n id 0 allOnes)
    else .next ((s.pev 3 4 n (s.portTag n) 1).modRpt n (fun p =>
      { p with down := p.down.map (fun y => if y.id = id then { y with retry := false, sent := s.now } else y) }))

/-- R120: the port has writes that are not yet at the MSC of their home. -/
def State.portWrites (s : State) (n : Nat) : Bool :=
  s.home.ncq.any (fun r => decide (r.agent = .port n) && r.write) ||
    s.home.ncDone.any (fun r => decide (r.agent = .port n) && r.write && (r.dram || decide (s.fcyc < r.at_)))

/-- R188: how an upstream read that failed with a reason completes. -/
def upStatus (reason : Nat) : CplStat :=
  if reason = rPoisoned ∨ reason = rEccUncorrectable then .ep else if reason = rOutsideWindow then .ur else .ca

/-- R355: a completion is sent to the device. -/
def State.sendCpl (s : State) (n : Nat) (st : CplStat) (data : List Byte) : State := s.modRpt n (fun p => { p with cplOut := p.cplOut ++ [(st, data)] })

/-- An upstream read takes the piece that has returned with an access's number. -/
def UpRd.give (u : UpRd) (r : NcReq) : UpRd :=
  match u.pieces.find? (fun p => p.1 == r.id) with
  | none => u
  | some (_, off) =>
    let u := { u with pieces := u.pieces.filter (fun p => p.1 != r.id) }
    if r.status ≠ 0 then { u with bad := u.bad ++ [(off, r.status)] }
    else { u with data := u.data ++ [(off, (List.range r.len).map (fun i => BitVec.ofNat 8 (bits r.val (8 * (r.pa % 64 + i)) 8)))] }

/-- Bytes put together from pieces by offset; a byte of no piece is all ones. -/
def joinBytes (len : Nat) (ps : List (Nat × List Byte)) : List Byte :=
  (List.range len).map (fun i => (ps.findSome? (fun p => if p.1 ≤ i ∧ i < p.1 + p.2.length then p.2[i - p.1]? else none)).getD 0xFF)

/-- The reason of the failed piece at the lowest address. -/
def UpRd.firstBad (u : UpRd) : Option Nat :=
  (u.bad.foldl (fun (m : Option (Nat × Nat)) b => match m with | some x => if b.1 < x.1 then some b else m | none => some b) none).map (fun b => b.2)

/-- R188, R355: the completion of a finished upstream read: DEDUCED (log 39) the failed piece at the lowest address gives its status. -/
def UpRd.cpl (u : UpRd) : CplStat × List Byte :=
  match u.firstBad with
  | some r => (upStatus r, if upStatus r = .ep then joinBytes u.len u.data else [])
  | none => (.ok, joinBytes u.len u.data)

/-- R120, R355: what has returned to the port is taken: writes have been performed, and reads whose pieces are all there complete. -/
def State.portReturns (s : State) (n : Nat) : State :=
  let mine := fun (r : NcReq) => decide (r.agent = .port n) && !r.dram && decide (r.at_ ≤ s.fcyc)
  let back := s.home.ncDone.filter mine
  let s := { s with home := { s.home with ncDone := s.home.ncDone.filter (fun r => !mine r) } }
  let rs := (s.rpt n).reads.map (fun u => back.foldl (fun u r => if r.write then u else u.give r) u)
  let s := s.modRpt n (fun p => { p with reads := rs.filter (fun u => !u.pieces.isEmpty) })
  (rs.filter (fun u => u.pieces.isEmpty)).foldl (fun s u => s.sendCpl n u.cpl.1 u.cpl.2) s

/-- R73, R187: an upstream write is discarded and logged. -/
def State.upDiscard (s : State) (n : Nat) (addr reason : Nat) : State :=
  s.logEvent { cls := 1, event := 0x61, kind := 6, idx := n, reason := reason, addr := addr, part := s.portOwner n, detail := n }

/-- R355, R6, R228: why a piece of an upstream request of the port is refused. -/
def State.upReason (s : State) (n pa len : Nat) : Option Nat :=
  match s.target pa with
  | .mem _ => s.physReason (s.portOwner n) pa len
  | _ => some rOutsideWindow

/-- R120, R186, R355: an upstream memory write is sent to the MSC, a line at a time. -/
def State.upWrite (s : State) (n : Nat) (u : UpReq) : State :=
  let s := if u.ep then (s.pev 3 7 n (s.portTag n) 1).portError n else s
  (linePieces u.addr u.len (u.len / 64 + 2)).foldl (fun s p =>
    match s.upReason n p.1 p.2 with
    | some r => s.upDiscard n p.1 r
    | none => ((s.pev 3 2 n (s.portTag n) 1).ncSend (.port n) .plain true p.1 p.2
        (BitVec.ofNat 512 (leNat ((u.data.drop (p.1 - u.addr)).take p.2))) u.ep 3).2) s

/-- R120, R355: an upstream memory read is sent to the MSC, a line at a time; a piece that may not be read ends it. -/
def State.upRead (s : State) (n : Nat) (u : UpReq) : State :=
  let ps := linePieces u.addr u.len (u.len / 64 + 2)
  match ps.findSome? (fun p => s.upReason n p.1 p.2) with
  | some r => s.sendCpl n (upStatus r) []
  | none =>
    let (s, rd) := ps.foldl (fun (z : State × UpRd) p =>
      let (id, s) := (z.1.pev 3 3 n (z.1.portTag n) 1).ncSend (.port n) .plain false p.1 p.2 0 false 3
      (s, { z.2 with pieces := z.2.pieces ++ [(id, p.1 - u.addr)] })) (s, { len := u.len, pieces := [] })
    s.modRpt n (fun p => { p with reads := p.reads ++ [rd] })

/-- R355: the TLP is the doorbell's. -/
def State.isDoorbell (s : State) (u : UpReq) : Bool := decide (u.kind = .write) && decide (u.addr = s.ctlPa (RegKind.irtMsi.addr 0 0)) && decide (u.len = 4)

/-- R355 steps 2 to 5: one upstream TLP is performed. -/
def State.upPerform (s : State) (n : Nat) (u : UpReq) : State :=
  if s.isDoorbell u then s.msiPut (BitVec.ofNat 32 (leNat (u.data.take 4))) (some n)
  else
    match u.kind, s.target u.addr with
    | .write, .mem _ => s.upWrite n u
    | .read, .mem _ => s.upRead n u
    | .write, _ => s.upDiscard n u.addr rOutsideWindow
    | .read, _ => s.sendCpl n .ur []
    | .atomic, _ => s.sendCpl n .ur []

/-- R122, R270: the TLPs a port has received are performed in order; a doorbell waits until the port's writes are visible, and none is performed while
flow control holds them. -/
def State.upRun (s : State) (n : Nat) : Nat → State
  | 0 => s
  | k + 1 =>
    match (s.rpt n).up with
    | [] => s
    | u :: rest =>
      if s.pwr.portsHeld || (s.isDoorbell u && s.portWrites n) then s
      else ((s.modRpt n (fun p => { p with up := rest })).upPerform n u).upRun n k

/-- What a root port does in an F-cycle: it takes what has returned and what has reached it, and performs what it has received. -/
def State.portPump (s : State) (n : Nat) : State :=
  let s := (s.portReturns n).portTakeAll n
  s.upRun n (s.rpt n).up.length

/-- R355, R270: an upstream TLP. With BMBLK set a read completes with UR and a write is discarded; in E3 or later it is held, which is a wake. -/
def execUpstreamTlp (n : Nat) (k : UpKind) (addr len : Nat) (data : List Byte) (ep : Bool) (s : State) : Out :=
  if s.fget .rptStatState n ≠ 3 ∨ 4096 < len ∨ len = 0 then .next s
  else
    let s := if k = .write then s.bytes 1 n (s.portTag n) true len else s
    if s.fget .rptCtlBmblk n = 1 then .next (if k = .write then s.upDiscard n addr 0 else s.sendCpl n .ur [])
    else
      let s := s.modRpt n (fun p => { p with up := p.up ++ [{ kind := k, addr := addr, len := len, data := data, ep := ep }] })
      if s.pwr.portsHeld then .next (s.wakeEvent 4 2 n) else .next (s.portPump n)

/-- The port has performed every TLP it has received. -/
def State.portDrained (s : State) (n : Nat) : Bool := (s.rpt n).up.isEmpty && (s.rpt n).reads.isEmpty && !s.portWrites n

/-- R357: the state of a port whose link is down: draining, disabled or down. -/
def State.portRests (s : State) (n : Nat) : State :=
  s.fput .rptStatState n 0 (if !s.portDrained n then 6 else if s.fget .rptCtlEn n = 0 then 1 else 5)

/-- R357: the link of a port goes down: downstream requests end with DEVICE_ERROR, and the port drains. -/
def State.portDown (s : State) (n : Nat) : State :=
  let s := s.portPump n
  let s := (s.fput .rptStatState n 0 5).modRpt n (fun p => { p with down := [] })
  ((s.fab.devs.filter (fun d => decide (s.target d.pa = .port n) && d.done.isNone)).foldl (fun s d =>
    (if d.write && !isEcam d.pa then s.logEvent { cls := 1, event := 0x61, kind := 6, idx := n, reason := rDeviceError, addr := d.pa, detail := n } else s).devDone
      d.id rDeviceError 0) s).portRests n

/-- R351, R357: RPT_CTLn written: an enable is checked and trains the link; clearing EN takes it down. A port that does not exist ignores the write. -/
def State.rptPut (s : State) (n : Nat) (v : W64) : State :=
  let on := decide (s.fget .rptCtlEn n = 1)
  if bit v 0 ∧ !on then
    let r := if s.fget .rptStatState n = 6 then rBusyDraining else if !s.portExists n ∨ (s.portOwner n).isNone then rNotPermitted else 0
    if r ≠ 0 then ((if s.portExists n then s.rwrite .rptCtl n 0 (setBit v 0 false) else s).fput .rptStatReason n 0 r)
    else (s.rwrite .rptCtl n 0 v).fput .rptStatState n 0 2
  else if !s.portExists n then s
  else
    let s := s.rwrite .rptCtl n 0 v
    if on ∧ !bit v 0 then s.portDown n else s

/-- R357: RPT_CTLn written with EN set. -/
def execRptEnable (q : Req) (n : Nat) (v : W64) (s : State) : Out := s.regWrite q .rptCtl n 0 v (fun s => s.rptPut n v)

/-- R357: a root-port link goes down, or RPT_CTLn is written with EN clear. -/
def execRptLinkDown (enWrite : Option (Req × W64)) (n : Nat) (s : State) : Out :=
  match enWrite with
  | some (q, v) => s.regWrite q .rptCtl n 0 v (fun s => s.rptPut n v)
  | none => .next (if s.fget .rptStatState n = 2 ∨ s.portUp n then s.portDown n else s)

/-- R357: the last TLP of a draining port is performed. -/
def execRptDrainDone (n : Nat) (s : State) : Out :=
  if s.fget .rptStatState n ≠ 6 then .next s
  else .next ((s.portPump n).portRests n)

/-- R354, R357: a root-port link reaches L0, at most at the rate that MAXGEN allows. -/
def execRootPortLinkUp (n gen width : Nat) (flit : Bool) (s : State) : Out :=
  if s.fget .rptCtlEn n = 0 ∨ (s.fget .rptStatState n ≠ 2 ∧ s.fget .rptStatState n ≠ 5) then .next s
  else
    let m := s.fget .rptCtlMaxgen n
    let g := min gen (if m = 0 ∨ m = 7 then 6 else m)
    let s := ((s.fput .rptStatGen n 0 g).fput .rptStatWidth n 0 width).fput .rptStatFlit n 0 (b2n (flit || decide (g = 6)))
    .next ((s.fput .rptStatState n 0 3).portTakeAll n)

/-- R269: a root-port link enters ASPM L1, where that is enabled, or leaves it, which is a wake. -/
def execRootPortL1Change (n : Nat) (enter : Bool) (s : State) : Out :=
  if enter then
    .next (if s.fget .rptStatState n = 3 ∧ s.fget .rptCtlAspml1 n = 1 then (s.fput .rptStatState n 0 4).pev 3 6 n (s.portTag n) 1 else s)
  else .next (if s.fget .rptStatState n = 4 then (s.fput .rptStatState n 0 3).wakeEvent 4 2 n else s)

end Sys2Proof.Machine
end

