-- ==== Sys2Proof/Machine/Window.lean ====
section
/-! DEFINITION. Registers and mailbox memory as an access reaches them, the endpoint's window and BAR2, and the completion of device accesses
(R7 to R10, R64, R239, R283 to R288). -/

namespace Sys2Proof.Machine

/-- R239: an offset of control space that is mailbox memory: a page's slots and notice entries, or the staging area. -/
def mbxMemory (off : Nat) : Bool :=
  let o := off - 0xA000000
  decide (0xA000000 ≤ off ∧ off < 0xB000000) && ((decide (o < 0x40000) && decide (0x100 ≤ o % 0x1000)) || decide (0x800000 ≤ o))

/-- R9, R239: what an access of 2^sz bytes at an offset of control space names: a register of that width, or mailbox memory. -/
def ctlNamed (off sz : Nat) : Option (Option (RegKind × Nat × Nat)) :=
  if off % 2 ^ sz ≠ 0 then none
  else if mbxMemory off then if sz = 2 ∨ sz = 3 then some none else none
  else
    match regAt off with
    | some (k, i, j) => if k.width = 2 ^ sz ∧ off < 0x10000000000 then some (some (k, i, j)) else none
    | none => none

/-- R351: a register of a root port that does not exist, or of its counters, is inert. RPT_STAT alone shows the reason of a refused enable
(DEDUCED, log 40). -/
def State.regInert (s : State) (k : RegKind) (i : Nat) : Bool :=
  match k with
  | .rptCtl => !s.portExists i
  | .pmuRptSel => !s.portExists i
  | .pmuRptCtr => !s.portExists i
  | .irtRoute => s.routeInert i
  | _ => false

/-- R10: what a read of a register shows. -/
def State.regShow (s : State) (k : RegKind) (i j : Nat) : W64 := if s.regInert k i then 0 else k.readVal (s.rget k i j)

/-- R7, R9: a read of control space; none where it ends with OUTSIDE_WINDOW. -/
def State.csRead (s : State) (off sz : Nat) : Option W64 :=
  match ctlNamed off sz with
  | none => none
  | some none => some (BitVec.ofNat 64 (Memory.getN s.kiln.mbx (off - 0xA000000) (2 ^ sz)))
  | some (some (k, i, j)) => some (s.regShow k i j)

/-- R10: a write of a register, with what it does beside its fields. -/
def State.regPut (s : State) (q : Req) (k : RegKind) (i j : Nat) (v : W64) : State :=
  let off' := decide (s.fget .dmaChctlEn i j = 0)
  match k with
  | .irtRoute => s.routePut i v
  | .irtMsi => s.msiPut (lo32 v) none
  | .mbxDoorbell => s.doorbell i (q == .host) v
  | .pwrWakecfg => s.rput .pwrWakecfg i j (setBit (RegKind.pwrWakecfg.writeVal (s.rget .pwrWakecfg i j) v) 7 true)
  | .pwrCorectl => s.limitCore i (bits v 0 2)
  | .pwrDiectl => s.limitDie i (bits v 0 2)
  | .pwrSpill => s.spillPut i v
  | .dmaChctl => s.chctlPut (i * 32 + j) v
  | .dmaChpi => if off' then s else s.trigger (i * 32 + j) (bits v 0 32) (s.fget .dmaChpivalResume i j)
  | .dmaChring => if off' then s.rwrite k i j v else s
  | .dmaChtrig => if off' then s.rwrite k i j v else s
  | .dmaChcpl => if off' then s.rwrite k i j v else s
  | .cdSmpring => s.smpPut (i * 20 + j) v
  | .cdSmphdr => if s.fget .cdSmpringEn i j = 0 then s.rwrite k i j v else s
  | .ectCmd => if 1 ≤ bits v 0 3 ∧ bits v 0 3 ≤ 4 then s.ectStart (bits v 0 3) else s
  | .glbReset => s.glbResetPut q v
  | .rptCtl => s.rptPut i v
  | k => if s.regInert k i then s else s.rwrite k i j v

/-- R10, R239: a write of 2^sz bytes of control space that names a register or mailbox memory. -/
def State.ctlPut (s : State) (q : Req) (off sz : Nat) (v : W64) : State :=
  match ctlNamed off sz with
  | none => s
  | some none => { s with kiln := { s.kiln with mbx := Memory.putN s.kiln.mbx (off - 0xA000000) (2 ^ sz) v.toNat } }
  | some (some (k, i, j)) => s.regPut q k i j v

/-- R285: the register of BAR0 that holds an offset: its kind and index. -/
def bar0Reg (off : Nat) : Option (RegKind × Nat) := (regAt (bar0Base + off / 8 * 8)).map (fun p => (p.1, p.2.1))

/-- R285, R293: what a naturally aligned read of BAR0 below the aperture returns. -/
def State.bar0Read (s : State) (off sz : Nat) : W64 :=
  let cut := fun (v : W64) => BitVec.ofNat 64 (bits v (8 * (off % 8)) (8 * 2 ^ sz))
  if (sz ≠ 2 ∧ sz ≠ 3) ∨ off % 2 ^ sz ≠ 0 then 0
  else if 0x2000 ≤ off ∧ off < 0x2400 then
    let i := (off - 0x2000) / 8 * 2
    cut ((s.msixW i).zeroExtend 64 + (s.msixW (i + 1)).zeroExtend 64 * 2 ^ 32)
  else if 0x3000 ≤ off ∧ off < 0x3008 then cut s.ep.pba
  else
    match bar0Reg off with
    | some (k, i) => cut (k.readVal (s.rget k i))
    | none => 0

/-- R10, R285: a register's value for a write of 32 of its bits: the other half keeps its RW bits and clears nothing. -/
def mergeHalf (k : RegKind) (old : W64) (off sz : Nat) (v : W64) : W64 :=
  if sz = 3 then v
  else
    let keep := k.fields.foldl (fun (w : W64) f => if f.acc = .rw then setBits w f.lo f.len (bits old f.lo f.len) else w) 0
    setBits keep (8 * (off % 8)) 32 (bits v 0 32)

/-- R285, R289, R290, R293, R295: a write of a register of BAR0 or of the MSI-X table. -/
def State.bar0Put (s : State) (off sz : Nat) (v : W64) : State :=
  if 0x2000 ≤ off ∧ off < 0x2400 then
    let i := (off - 0x2000) / 4
    let s := s.setMsixW i (lo32 v)
    (if sz = 3 then s.setMsixW (i + 1) (lo32 (v >>> 32)) else s).sendVecs
  else
    match bar0Reg off with
    | none => s
    | some (k, i) =>
      let w := mergeHalf k (s.rget k i) off sz v
      match k with
      | .epRingctl => s.ringPut i w
      | .epCrpi => s.crpiPut i w
      | .epCrbase => if s.fget .epRingctlEn i = 0 then s.rwrite k i 0 w else s
      | .epRrbase => if s.fget .epRingctlEn i = 0 then s.rwrite k i 0 w else s
      | .epRrci =>
        let n := 2 ^ s.fget .epRingctlRk i
        (s.fput .epRrciIndex i 0 (bits w 0 17 % n)).fetchRings
      | k => (s.rwrite k i 0 w).showIntx

/-- R152, R283: a doubleword of configuration space as a read shows it: the fuses and the boot's progress at the locations that hold them. -/
def State.cfgRead (s : State) (dw : Nat) : BitVec 32 :=
  let fuse := fun (n : Nat) => s.ioFuses.getD n 0
  let rev := bits (fuse 0) 4 12
  match dw with
  | 0x08 => BitVec.ofNat 32 (rev % 256 + 0x08800000 * 256)
  | 0x2C => BitVec.ofNat 32 (0xAE5C + (0x2410 + s.pkg) * 2 ^ 16)
  | 0x14C => BitVec.ofNat 32 (bits (fuse 1) 0 32)
  | 0x150 => BitVec.ofNat 32 (bits (fuse 1) 32 32)
  | 0x160 => BitVec.ofNat 32 (s.pkg + s.fget .glbStrapsBootPkg * 8 + s.fget .glbSetchkDone * 16 + s.fget .glbSetchkPass * 32 +
      s.fget .glbBootstatStage * 256 + rev * 2 ^ 16)
  | 0x164 => BitVec.ofNat 32 (bits (fuse 0) 32 32)
  | 0x168 => BitVec.ofNat 32 s.kiln.fwVersion
  | dw => s.cfgW dw

/-- R283, R284, R293, R297, R298: a write of bytes of a doubleword of configuration space. -/
def State.cfgPut (s : State) (off size : Nat) (v : W64) : State :=
  let dw := off / 4 * 4
  let sh := 8 * (off % 4)
  let mask := (2 ^ (8 * size) - 1) * 2 ^ sh % 2 ^ 32
  let new : BitVec 32 := BitVec.ofNat 32 ((v.toNat % 2 ^ (8 * size)) * 2 ^ sh)
  let old := s.cfgW dw
  let rw : BitVec 32 := BitVec.ofNat 32 (cfgRw dw &&& mask)
  let w := ((old &&& ~~~ rw) ||| (new &&& rw)) &&& ~~~ (new &&& BitVec.ofNat 32 (cfgW1c dw &&& mask))
  if dw = 0x44 then s.pmcsrPut (((old &&& ~~~ BitVec.ofNat 32 (mask ||| 0x8000)) ||| (new &&& BitVec.ofNat 32 mask)).truncate 16)
  else if dw = 0x04 then
    let up := !bit old 2 && bit w 2
    let s := (s.setCfg dw w).showIntx
    if up then s.hostResume else s
  else if dw = 0x58 then
    let s := s.setCfg dw w
    if bit new 15 then s.flr else s
  else if dw = 0xA0 then
    let s := s.setCfg dw (setBit w 31 (bit old 31))
    if bit w 31 = bit old 31 then s.sendVecs else s.msixMode (bit w 31)
  else s.setCfg dw w

/-- R10: a write to a register with no row of its own. A core's store to control space that names no register waits for its completion, which ends
it with OUTSIDE_WINDOW. -/
def execRegisterWrite (sp : RegSpace) (q : Req) (off size : Nat) (v : W64) (s : State) : Out :=
  let sz := if size = 8 then 3 else if size = 4 then 2 else if size = 2 then 1 else 0
  match sp with
  | .control =>
    if (ctlNamed off sz).isSome ∧ 2 ^ sz = size then s.ctlWrite q off sz v (fun s => s.ctlPut q off sz v) else .next s
  | .bar0 => .next (if s.barOn ∧ (size = 4 ∨ size = 8) ∧ off % size = 0 ∧ off < 0x80000 then s.epUse.bar0Put off sz v else s)
  | .config =>
    .next (if s.ep.link = 0 ∨ s.ep.link = 4 ∨ s.ep.perst ∨ s.ep.cfgHeld.isSome ∨ size = 0 ∨ 4 < off % 4 + size then s else s.epUse.cfgPut off size v)

/-- R287: a window or BAR2 access has ended as a bus error. -/
def State.winErr (s : State) (reason : Nat) (bar2 : Bool) : State :=
  (((s.fput .epWinerrReason 0 0 reason).fbump .epWinerrCount 0 0).fput .epWinerrInbar2 0 0 (b2n bar2)).epEvent 16

/-- R287: a completion of a host read. -/
def State.hostRead (s : State) (poisoned : Bool) (data : List Byte) : State :=
  { s with ep := { s.ep with rdata := s.ep.rdata ++ [(poisoned, data)] } }

/-- R287: an access of the host ends as a bus error: a read returns all ones, with EP = 1 where the data was poisoned or could not be corrected. -/
def State.hostError (s : State) (write : Bool) (size reason : Nat) (bar2 : Bool) : State :=
  let s := s.winErr reason bar2
  if write then s else s.hostRead (decide (reason = rPoisoned) || decide (reason = rEccUncorrectable)) (List.replicate size 0xFF)

/-- R285 to R288: a host access of control space through the window or BAR2. -/
def State.hostCtl (s : State) (write : Bool) (off size : Nat) (data : List Byte) (bar2 : Bool) : State :=
  let sz := if size = 8 then 3 else 2
  if size ≠ 2 ^ sz then s.hostError write size rOutsideWindow bar2
  else if write then
    if (ctlNamed off sz).isSome then s.ctlPut .host off sz (BitVec.ofNat 64 (leNat data)) else s.hostError true size rOutsideWindow bar2
  else
    match s.csRead off sz with
    | some v => s.hostRead false (leBytes size v.toNat)
    | none => s.hostError false size rOutsideWindow bar2

/-- Naturally aligned pieces of 1, 2, 4 or up to `most` bytes of a byte range, for at most `n` pieces: offset and log2 of the length. -/
def natPieces (a len most : Nat) : Nat → List (Nat × Nat)
  | 0 => []
  | n + 1 =>
    if len = 0 then []
    else
      let k := if 3 ≤ most ∧ a % 8 = 0 ∧ 8 ≤ len then 3 else if a % 4 = 0 ∧ 4 ≤ len then 2 else if a % 2 = 0 ∧ 2 ≤ len then 1 else 0
      (a, k) :: natPieces (a + 2 ^ k) (len - 2 ^ k) most n

/-- R286: why a piece of the aperture's access of memory goes no further. -/
def State.winReason (s : State) (pa : Nat) : Option Nat :=
  if s.lost (pkgOf pa) then some rPeerLost
  else if !s.populated pa || (s.inCarve pa && decide (pkgOf pa = s.pkg)) then some rOutsideWindow
  else none

/-- Bytes as the part of a line they are written to. -/
def bytesLine (bs : List Byte) : LineData := BitVec.ofNat 512 (leNat bs)

/-- R286, R287: an aperture access all of whose pieces have ended: its data, or the reason of the failed piece at the lowest address. -/
def State.accEnds (s : State) (a : EpAcc) : State :=
  match a.rd.firstBad with
  | some r => s.hostError a.write a.rd.len r false
  | none => if a.write then s else s.hostRead false (joinBytes a.rd.len a.rd.data)

/-- An aperture access held while its pieces are in progress. -/
def State.keepAcc (s : State) (a : EpAcc) : State :=
  if a.rd.pieces.isEmpty then s.accEnds a else { s with ep := { s.ep with accs := s.ep.accs ++ [a] } }

/-- R286: the pieces of an aperture access of memory, split at line boundaries, leave in ascending order. -/
def State.winMemory (s : State) (write : Bool) (pa size : Nat) (data : List Byte) : State :=
  let (id, s) := s.newId
  let (s, rd) := (linePieces pa size (size / 64 + 2)).foldl (fun (z : State × UpRd) p =>
    match z.1.winReason p.1 with
    | some r => (z.1, { z.2 with bad := z.2.bad ++ [(p.1 - pa, r)] })
    | none =>
      let v := if write then bytesLine ((data.drop (p.1 - pa)).take p.2) else 0
      let (n, s) := z.1.ncSend (.ep id) .plain write p.1 p.2 v false 3
      (s, { z.2 with pieces := z.2.pieces ++ [(n, p.1 - pa)] })) (s, { len := size, pieces := [] })
  s.keepAcc { id := id, write := write, rd := rd }

/-- R286, R354: the pieces of an aperture access of a root port's window. -/
def State.winPort (s : State) (write : Bool) (n pa size : Nat) (data : List Byte) : State :=
  if !s.portExists n ∨ s.fget .rptCtlEn n = 0 then s.hostError write size rOutsideWindow false
  else
    let (id, s) := s.newId
    let (s, rd) := (natPieces pa size (if isEcam pa then 2 else 3) size).foldl (fun (z : State × UpRd) p =>
      let (d, s) := z.1.devSend .host p.1 p.2 write (BitVec.ofNat 64 (leNat ((data.drop (p.1 - pa)).take (2 ^ p.2))))
      (s, { z.2 with pieces := z.2.pieces ++ [(d, p.1 - pa)] })) (s, { len := size, pieces := [] })
    s.keepAcc { id := id, write := write, rd := rd }

/-- R286: an access of the aperture: to the physical address that EP_WINBASE and the offset give, with the control host's reach. -/
def execWindowAccess (write : Bool) (off size : Nat) (data : List Byte) (s : State) : Out :=
  if !s.barOn ∨ size = 0 ∨ 0x80000 < off + size ∨ (write ∧ data.length ≠ size) then .next s
  else
    let s := s.epUse
    let pa := s.fget .epWinbaseBase * 2 ^ 19 + off
    match s.target pa with
    | .mem _ => .next (s.winMemory write pa size data)
    | .port n => .next (s.winPort write n pa size data)
    | .ctrl o => .next (s.hostCtl write o size data false)
    | .farPort q _ => .next (s.hostError write size (if s.lost q then rPeerLost else rOutsideWindow) false)
    | .farCtrl q _ => .next (s.hostError write size (if s.lost q then rPeerLost else rOutsideWindow) false)
    | .none => .next (s.hostError write size rOutsideWindow false)

/-- R288: an access of BAR2 reaches the mailbox block. -/
def execBar2Access (write : Bool) (off size : Nat) (data : List Byte) (s : State) : Out :=
  if !s.barOn ∨ size = 0 ∨ 0x1000000 < off + size ∨ (write ∧ data.length ≠ size) then .next s
  else .next (s.epUse.hostCtl write (0xA000000 + off) size data true)

/-- R64: the oldest device access of its sender that has not been performed. -/
def State.devOldest (s : State) (d : Dev) : Bool :=
  match s.fab.devs.find? (fun e => decide (e.who = d.who) && e.done.isNone) with
  | some e => e.id == d.id
  | none => false

/-- R7 to R9, R64, R140: how a device access ends, once it has: performed, a read of control space that is its sender's oldest, or an access that reaches
nothing. DEDUCED (log 41): no device access crosses to another package. -/
def State.devEnd (s : State) (d : Dev) : Option (Nat × W64) :=
  let due := decide (d.at_ + 13 ≤ s.fcyc) && s.devOldest d
  match d.done, s.target d.pa with
  | some st, _ => some (st, d.rdata)
  | none, .port _ => none
  | none, .ctrl off =>
    if !due then none
    else if !s.mayReach d.who off then some (rOutsideWindow, 0)
    else if d.write then if (ctlNamed off d.sz).isSome then none else some (rOutsideWindow, 0)
    else
      match s.csRead off d.sz with
      | some v => some (0, v)
      | none => some (rOutsideWindow, 0)
  | none, .farPort q _ => if due then some (if s.lost q then rPeerLost else rOutsideWindow, 0) else none
  | none, .farCtrl q _ => if due then some (if s.lost q then rPeerLost else rOutsideWindow, 0) else none
  | none, .mem _ => if due then some (rOutsideWindow, 0) else none
  | none, .none => if due then some (rOutsideWindow, 0) else none

/-- R34: a store that no cache serves has completed, or ended as a bus error. -/
def State.storeEnds (s : State) (c i status : Nat) : State :=
  match (s.core c).sbHead i with
  | some e =>
    if !e.devSent then s
    else if status = 0 then s.modCore c (fun k => k.sbPop (s.cyc c) i e)
    else (s.modCore c (fun k => k.storeError (s.cyc c) e status)).logStores c
  | none => s

/-- R21, R25, R28, R45: a load, fetch or cache operation that no cache serves has ended, with its line's bytes. -/
def State.loadEnds (s : State) (c i pa status : Nat) (line : LineData) : State :=
  let t := s.cyc c
  let x := s.ctx c i
  match x.facc, x.acc with
  | some a, o =>
    if a.dev ∧ a.pa / 16 = pa / 16 then
      s.modCore c (fun k => if x.inSlot a then (if status = 0 then k.fetchFill t i a else k.fetchFault i a status) else k.keepFill t i true status 0)
    else
      match o with
      | some b => if b.dev ∧ b.pa = pa then s.modCore c (fun k =>
          if status = 0 then k.accOk t i b true (loadReg b.fp b.sz (lineLoad line pa b.sz b.sgn)) else k.accError t i b status) else s
      | none => s
  | none, some b => if b.dev ∧ b.pa = pa then s.modCore c (fun k =>
      if status ≠ 0 then k.accError t i b status
      else if b.op = .zero then k.accOk t i b false 0
      else k.accOk t i b true (loadReg b.fp b.sz (lineLoad line pa b.sz b.sgn))) else s
  | none, none => s

/-- A piece of an aperture access has ended. -/
def State.pieceEnds (s : State) (r : NcReq) : State :=
  match s.ep.accs.find? (fun a => a.rd.pieces.any (fun p => p.1 == r.id)) with
  | none => s
  | some a =>
    let a' : EpAcc := { a with rd := a.rd.give r }
    if a'.rd.pieces.isEmpty then ({ s with ep := { s.ep with accs := s.ep.accs.erase a } }).accEnds a'
    else { s with ep := { s.ep with accs := s.ep.accs.map (fun (b : EpAcc) => if b = a then a' else b) } }

/-- R64: a device access ends at its sender. -/
def State.devReturns (s : State) (d : Dev) (status : Nat) (val : W64) : State :=
  let s := { s with fab := { s.fab with devs := s.fab.devs.filter (fun e => e.id != d.id) } }
  let line : LineData := (val.zeroExtend 512) <<< (8 * (d.pa % 64))
  match d.who with
  | .ctx c i => if d.write then s.storeEnds c i status else s.loadEnds c i d.pa status line
  | .host =>
    s.pieceEnds { id := d.id, agent := .ep 0, write := d.write, pa := d.pa, len := 2 ^ d.sz, val := line, status := status }
  | .kiln => s

/-- R37, R120: a non-coherent access ends at its sender. -/
def State.ncReturns (s : State) (r : NcReq) : State :=
  let s := { s with home := { s.home with ncDone := s.home.ncDone.filter (fun e => e.id != r.id) } }
  match r.agent with
  | .core c i => if r.write ∧ r.len ≠ 64 then s.storeEnds c i r.status else s.loadEnds c i r.pa r.status r.val
  | .ep _ => s.pieceEnds r
  | _ => s

/-- Agents whose non-coherent accesses end by this command; the others take theirs themselves. -/
def Agent.waits : Agent → Bool
  | .core _ _ => true
  | .ep _ => true
  | .kiln => true
  | _ => false

/-- R64: a control-space, root-port or non-cacheable access returns to its sender. -/
def execDeviceAccessCompletion (id : Nat) (s : State) : Out :=
  match s.fab.devs.find? (fun d => d.id == id) with
  | some d =>
    match s.devEnd d with
    | some (st, v) => .next (s.devReturns d st v)
    | none => .next s
  | none =>
    match s.home.ncDone.find? (fun r => r.id == id && !r.dram && decide (r.at_ ≤ s.fcyc) && r.agent.waits) with
    | some r => .next (s.ncReturns r)
    | none => .next s

end Sys2Proof.Machine
end

