-- ==== Sys2Proof/Machine/Dispatch.lean ====
section
/-! DEFINITION. The dispatch: what a command does to everything but the queue, one arm per row of the operation
and event table. -/

namespace Sys2Proof.Machine

def exec (i : Instr) (s : State) : Host.Outcome State Fault Refusal :=
  match i with
  | .integerAlu h op rd rs1 b => Sys2Proof.Machine.execIntegerAlu h op rd rs1 b s
  | .multiply h op rd rs1 rs2 => Sys2Proof.Machine.execMultiply h op rd rs1 rs2 s
  | .divide h op rd rs1 rs2 => Sys2Proof.Machine.execDivide h op rd rs1 rs2 s
  | .dividerFree core fp => Sys2Proof.Machine.execDividerFree core fp s
  | .fpOperation h op fmt rm rd rs1 rs2 rs3 => Sys2Proof.Machine.execFpOperation h op fmt rm rd rs1 rs2 rs3 s
  | .fpDivide h sqrt fmt rm rd rs1 rs2 => Sys2Proof.Machine.execFpDivide h sqrt fmt rm rd rs1 rs2 s
  | .conditionalBranch h c rs1 rs2 off => Sys2Proof.Machine.execConditionalBranch h c rs1 rs2 off s
  | .directJump h rd off => Sys2Proof.Machine.execDirectJump h rd off s
  | .indirectJump h rd rs1 off => Sys2Proof.Machine.execIndirectJump h rd rs1 off s
  | .instructionFetch core ctx pd e => Sys2Proof.Machine.execInstructionFetch core ctx pd e s
  | .load h m rd rs1 off e => Sys2Proof.Machine.execLoad h m rd rs1 off e s
  | .loadAfterDrain core ctx e => Sys2Proof.Machine.execLoadAfterDrain core ctx e s
  | .store h m rs2 rs1 off e => Sys2Proof.Machine.execStore h m rs2 rs1 off e s
  | .storeBufferDrain core ctx => Sys2Proof.Machine.execStoreBufferDrain core ctx s
  | .deferredStoreFault core ctx => Sys2Proof.Machine.execDeferredStoreFault core ctx s
  | .amo h op sz rd rs1 rs2 => Sys2Proof.Machine.execAmo h op sz rd rs1 rs2 s
  | .lr h sz rd rs1 => Sys2Proof.Machine.execLr h sz rd rs1 s
  | .sc h sz rd rs1 rs2 => Sys2Proof.Machine.execSc h sz rd rs1 rs2 s
  | .fence h => Sys2Proof.Machine.execFence h s
  | .fenceI h => Sys2Proof.Machine.execFenceI h s
  | .csrAccess h op csr rd src => Sys2Proof.Machine.execCsrAccess h op csr rd src s
  | .ecall h => Sys2Proof.Machine.execEcall h s
  | .ebreak h => Sys2Proof.Machine.execEbreak h s
  | .illegalInstruction h => Sys2Proof.Machine.execIllegalInstruction h s
  | .mret h => Sys2Proof.Machine.execMret h s
  | .sret h => Sys2Proof.Machine.execSret h s
  | .wfi h => Sys2Proof.Machine.execWfi h s
  | .sfenceVma h rs1 rs2 => Sys2Proof.Machine.execSfenceVma h rs1 rs2 s
  | .cboClean h rs1 => Sys2Proof.Machine.execCboClean h rs1 s
  | .cboFlush h rs1 => Sys2Proof.Machine.execCboFlush h rs1 s
  | .cboInval h rs1 => Sys2Proof.Machine.execCboInval h rs1 s
  | .cboZero h rs1 => Sys2Proof.Machine.execCboZero h rs1 s
  | .ctxYield h => Sys2Proof.Machine.execCtxYield h s
  | .ctxWait h rs1 => Sys2Proof.Machine.execCtxWait h rs1 s
  | .ctxSleep h rs1 => Sys2Proof.Machine.execCtxSleep h rs1 s
  | .ctxWake h rs1 => Sys2Proof.Machine.execCtxWake h rs1 s
  | .ctxSpawn h rd rs1 rs2 => Sys2Proof.Machine.execCtxSpawn h rd rs1 rs2 s
  | .ctxExit h => Sys2Proof.Machine.execCtxExit h s
  | .interruptTaken core ctx => Sys2Proof.Machine.execInterruptTaken core ctx s
  | .longHint core => Sys2Proof.Machine.execLongHint core s
  | .heldFetchHint core ctx => Sys2Proof.Machine.execHeldFetchHint core ctx s
  | .contextPark core ctx => Sys2Proof.Machine.execContextPark core ctx s
  | .contextUnpark core islot => Sys2Proof.Machine.execContextUnpark core islot s
  | .quantumExpiry core ctx => Sys2Proof.Machine.execQuantumExpiry core ctx s
  | .recordFill core ctx => Sys2Proof.Machine.execRecordFill core ctx s
  | .recordBusError core ctx => Sys2Proof.Machine.execRecordBusError core ctx s
  | .parkedStoreError core ctx => Sys2Proof.Machine.execParkedStoreError core ctx s
  | .wakeDelivery core => Sys2Proof.Machine.execWakeDelivery core s
  | .spawnRequest core => Sys2Proof.Machine.execSpawnRequest core s
  | .spawnResponse core => Sys2Proof.Machine.execSpawnResponse core s
  | .deadlineExpiry core => Sys2Proof.Machine.execDeadlineExpiry core s
  | .mtimerCompare core => Sys2Proof.Machine.execMtimerCompare core s
  | .stimerCompare core ctx => Sys2Proof.Machine.execStimerCompare core ctx s
  | .mctxdataAccess h op rd src => Sys2Proof.Machine.execMctxdataAccess h op rd src s
  | .mctxholdWrite h op rd src => Sys2Proof.Machine.execMctxholdWrite h op rd src s
  | .sxltWrite h op rd src => Sys2Proof.Machine.execSxltWrite h op rd src s
  | .sxltbaseWrite h op rd src => Sys2Proof.Machine.execSxltbaseWrite h op rd src s
  | .sxltinvWrite h op rd src => Sys2Proof.Machine.execSxltinvWrite h op rd src s
  | .pmpWrite h op csr rd src => Sys2Proof.Machine.execPmpWrite h op csr rd src s
  | .ifClaim h op mLevel rd src => Sys2Proof.Machine.execIfClaim h op mLevel rd src s
  | .ifEoi h op mLevel rd src => Sys2Proof.Machine.execIfEoi h op mLevel rd src s
  | .ifPost h op mLevel rd src => Sys2Proof.Machine.execIfPost h op mLevel rd src s
  | .routeEvent route asserted => Sys2Proof.Machine.execRouteEvent route asserted s
  | .deliver core => Sys2Proof.Machine.execDeliver core s
  | .complete => Sys2Proof.Machine.execComplete s
  | .irtRouteWrite q n v => Sys2Proof.Machine.execIrtRouteWrite q n v s
  | .msiDoorbell q v => Sys2Proof.Machine.execMsiDoorbell q v s
  | .walkStart core ctx fetch => Sys2Proof.Machine.execWalkStart core ctx fetch s
  | .walkRoundDecision core w => Sys2Proof.Machine.execWalkRoundDecision core w s
  | .adFlagOrReturn core w => Sys2Proof.Machine.execAdFlagOrReturn core w s
  | .shootdownReceipt core => Sys2Proof.Machine.execShootdownReceipt core s
  | .shootdownLocalDone core => Sys2Proof.Machine.execShootdownLocalDone core s
  | .shootdownAck => Sys2Proof.Machine.execShootdownAck s
  | .l2MissRequest core line => Sys2Proof.Machine.execL2MissRequest core line s
  | .requestLaunch die => Sys2Proof.Machine.execRequestLaunch die s
  | .creditReturn die => Sys2Proof.Machine.execCreditReturn die s
  | .rdS slice => Sys2Proof.Machine.execRdS slice s
  | .rdM slice => Sys2Proof.Machine.execRdM slice s
  | .upg slice => Sys2Proof.Machine.execUpg slice s
  | .amoH slice => Sys2Proof.Machine.execAmoH slice s
  | .homeAdmission slice e => Sys2Proof.Machine.execHomeAdmission slice e s
  | .wb slice => Sys2Proof.Machine.execWb slice s
  | .evc slice => Sys2Proof.Machine.execEvc slice s
  | .snpAck slice => Sys2Proof.Machine.execSnpAck slice s
  | .snpData slice => Sys2Proof.Machine.execSnpData slice s
  | .dataS core e => Sys2Proof.Machine.execDataS core e s
  | .dataM core => Sys2Proof.Machine.execDataM core s
  | .amoRet core => Sys2Proof.Machine.execAmoRet core s
  | .ackUpg core => Sys2Proof.Machine.execAckUpg core s
  | .wbAck core => Sys2Proof.Machine.execWbAck core s
  | .evcAck core => Sys2Proof.Machine.execEvcAck core s
  | .snpInv core => Sys2Proof.Machine.execSnpInv core s
  | .snpShd core => Sys2Proof.Machine.execSnpShd core s
  | .heldSnoopAnswer core line => Sys2Proof.Machine.execHeldSnoopAnswer core line s
  | .ncRead slice => Sys2Proof.Machine.execNcRead slice s
  | .ncWrite slice => Sys2Proof.Machine.execNcWrite slice s
  | .dramReadComplete mc errs => Sys2Proof.Machine.execDramReadComplete mc errs s
  | .reelRequest slice => Sys2Proof.Machine.execReelRequest slice s
  | .rsnpShd slice => Sys2Proof.Machine.execRsnpShd slice s
  | .rsnpInv slice => Sys2Proof.Machine.execRsnpInv slice s
  | .rsnpAck slice => Sys2Proof.Machine.execRsnpAck slice s
  | .rsnpData slice => Sys2Proof.Machine.execRsnpData slice s
  | .relayedResponse slice => Sys2Proof.Machine.execRelayedResponse slice s
  | .forwardedRelease slice => Sys2Proof.Machine.execForwardedRelease slice s
  | .remoteReleaseAck slice => Sys2Proof.Machine.execRemoteReleaseAck slice s
  | .rangeCleanScan slice => Sys2Proof.Machine.execRangeCleanScan slice s
  | .rangeCleanDone => Sys2Proof.Machine.execRangeCleanDone s
  | .trackerTimeout slice line => Sys2Proof.Machine.execTrackerTimeout slice line s
  | .sidebandPoll die answered => Sys2Proof.Machine.execSidebandPoll die answered s
  | .slipFrameReceive die g beats => Sys2Proof.Machine.execSlipFrameReceive die g beats s
  | .slipReplayRequest die g frame => Sys2Proof.Machine.execSlipReplayRequest die g frame s
  | .slipErrorWindow die g => Sys2Proof.Machine.execSlipErrorWindow die g s
  | .slipRepairDone die g pass => Sys2Proof.Machine.execSlipRepairDone die g pass s
  | .streamHandoverEnd die g => Sys2Proof.Machine.execStreamHandoverEnd die g s
  | .refresh mc => Sys2Proof.Machine.execRefresh mc s
  | .spdSensorPoll temps => Sys2Proof.Machine.execSpdSensorPoll temps s
  | .alertN mc => Sys2Proof.Machine.execAlertN mc s
  | .channelRetrainDone mc ok => Sys2Proof.Machine.execChannelRetrainDone mc ok s
  | .patrolRead mc errs => Sys2Proof.Machine.execPatrolRead mc errs s
  | .memrasWindow => Sys2Proof.Machine.execMemrasWindow s
  | .ectWriteRaw q => Sys2Proof.Machine.execEctWriteRaw q s
  | .ectWriteEnc q => Sys2Proof.Machine.execEctWriteEnc q s
  | .ectReadRaw q => Sys2Proof.Machine.execEctReadRaw q s
  | .ectReadDec q => Sys2Proof.Machine.execEctReadDec q s
  | .ectOpDone => Sys2Proof.Machine.execEctOpDone s
  | .fireGranuleDone => Sys2Proof.Machine.execFireGranuleDone s
  | .mscScanDone => Sys2Proof.Machine.execMscScanDone s
  | .reelFlitTransmit k => Sys2Proof.Machine.execReelFlitTransmit k s
  | .reelFlitReceive k rx f => Sys2Proof.Machine.execReelFlitReceive k rx f s
  | .reelSilenceTimeout k => Sys2Proof.Machine.execReelSilenceTimeout k s
  | .reelRetrainDone k x16 g64 => Sys2Proof.Machine.execReelRetrainDone k x16 g64 s
  | .reelRetrainTimeout k => Sys2Proof.Machine.execReelRetrainTimeout k s
  | .resync src slot => Sys2Proof.Machine.execResync src slot s
  | .resyncAck src slot rfseq => Sys2Proof.Machine.execResyncAck src slot rfseq s
  | .bundleQuiesced peer => Sys2Proof.Machine.execBundleQuiesced peer s
  | .reelTrainingStage k stage r x16 g64 flight => Sys2Proof.Machine.execReelTrainingStage k stage r x16 g64 flight s
  | .hello k ctl => Sys2Proof.Machine.execHello k ctl s
  | .krelay src p => Sys2Proof.Machine.execKrelay src p s
  | .formationTimeout => Sys2Proof.Machine.execFormationTimeout s
  | .tsyncSend => Sys2Proof.Machine.execTsyncSend s
  | .tsync k fTime => Sys2Proof.Machine.execTsync k fTime s
  | .loss p q => Sys2Proof.Machine.execLoss p q s
  | .expel x => Sys2Proof.Machine.execExpel x s
  | .deputyWaitExpiry => Sys2Proof.Machine.execDeputyWaitExpiry s
  | .lossTimeout => Sys2Proof.Machine.execLossTimeout s
  | .ncrd slice => Sys2Proof.Machine.execNcrd slice s
  | .ncwr slice => Sys2Proof.Machine.execNcwr slice s
  | .nccpl => Sys2Proof.Machine.execNccpl s
  | .partitionDrainDone p => Sys2Proof.Machine.execPartitionDrainDone p s
  | .coreResetDone core => Sys2Proof.Machine.execCoreResetDone core s
  | .mbxDoorbell q p v => Sys2Proof.Machine.execMbxDoorbell q p v s
  | .deferredCommandStart id => Sys2Proof.Machine.execDeferredCommandStart id s
  | .replyWrite => Sys2Proof.Machine.execReplyWrite s
  | .noticeWrite => Sys2Proof.Machine.execNoticeWrite s
  | .echo id => Sys2Proof.Machine.execEcho id s
  | .getInfo id => Sys2Proof.Machine.execGetInfo id s
  | .getStatus id => Sys2Proof.Machine.execGetStatus id s
  | .setMode id => Sys2Proof.Machine.execSetMode id s
  | .getMode id => Sys2Proof.Machine.execGetMode id s
  | .partCreate id => Sys2Proof.Machine.execPartCreate id s
  | .partAssignCores id => Sys2Proof.Machine.execPartAssignCores id s
  | .partAssignMemory id => Sys2Proof.Machine.execPartAssignMemory id s
  | .partAssignIo id => Sys2Proof.Machine.execPartAssignIo id s
  | .partSetQos id => Sys2Proof.Machine.execPartSetQos id s
  | .partEnable id => Sys2Proof.Machine.execPartEnable id s
  | .partDisable id => Sys2Proof.Machine.execPartDisable id s
  | .partDestroy id => Sys2Proof.Machine.execPartDestroy id s
  | .partQuery id => Sys2Proof.Machine.execPartQuery id s
  | .pwrSetPackage id => Sys2Proof.Machine.execPwrSetPackage id s
  | .pwrSetPstate id => Sys2Proof.Machine.execPwrSetPstate id s
  | .pwrQuery id => Sys2Proof.Machine.execPwrQuery id s
  | .pwrSetLimit id => Sys2Proof.Machine.execPwrSetLimit id s
  | .memFire id => Sys2Proof.Machine.execMemFire id s
  | .memScrubRange id => Sys2Proof.Machine.execMemScrubRange id s
  | .scrubRangeDone => Sys2Proof.Machine.execScrubRangeDone s
  | .memSetPatrol id => Sys2Proof.Machine.execMemSetPatrol id s
  | .memRetirePage id => Sys2Proof.Machine.execMemRetirePage id s
  | .memMarkDevice id => Sys2Proof.Machine.execMemMarkDevice id s
  | .memBankAccept id => Sys2Proof.Machine.execMemBankAccept id s
  | .memCleanRange id => Sys2Proof.Machine.execMemCleanRange id s
  | .linkQuery id => Sys2Proof.Machine.execLinkQuery id s
  | .linkRepair id => Sys2Proof.Machine.execLinkRepair id s
  | .linkTest id passed x16 g64 => Sys2Proof.Machine.execLinkTest id passed x16 g64 s
  | .reelEnable id => Sys2Proof.Machine.execReelEnable id s
  | .reelDisable id => Sys2Proof.Machine.execReelDisable id s
  | .logRead id => Sys2Proof.Machine.execLogRead id s
  | .logClear id => Sys2Proof.Machine.execLogClear id s
  | .dieOffline id => Sys2Proof.Machine.execDieOffline id s
  | .dieOnline id badWires recheckBad => Sys2Proof.Machine.execDieOnline id badWires recheckBad s
  | .pmuWindowSet id => Sys2Proof.Machine.execPmuWindowSet id s
  | .fwStage id img => Sys2Proof.Machine.execFwStage id img s
  | .fwActivate id => Sys2Proof.Machine.execFwActivate id s
  | .fwSwitch => Sys2Proof.Machine.execFwSwitch s
  | .coreStateEntry core => Sys2Proof.Machine.execCoreStateEntry core s
  | .coreExitDone core => Sys2Proof.Machine.execCoreExitDone core s
  | .dieStateEntry die => Sys2Proof.Machine.execDieStateEntry die s
  | .dieExitDone die => Sys2Proof.Machine.execDieExitDone die s
  | .pwrSpillWrite q c v => Sys2Proof.Machine.execPwrSpillWrite q c v s
  | .pwrCorectlWrite q c v => Sys2Proof.Machine.execPwrCorectlWrite q c v s
  | .pwrDiectlWrite q d v => Sys2Proof.Machine.execPwrDiectlWrite q d v s
  | .pkgQuiesceDone => Sys2Proof.Machine.execPkgQuiesceDone s
  | .pkgEntryStepDone => Sys2Proof.Machine.execPkgEntryStepDone s
  | .packageWake src port => Sys2Proof.Machine.execPackageWake src port s
  | .pkgExitStepDone => Sys2Proof.Machine.execPkgExitStepDone s
  | .restoreReadyTimeout what idx => Sys2Proof.Machine.execRestoreReadyTimeout what idx s
  | .deadlinePrewake level idx => Sys2Proof.Machine.execDeadlinePrewake level idx s
  | .reelWakePattern k bursts periodNs => Sys2Proof.Machine.execReelWakePattern k bursts periodNs s
  | .wakeInChange inp high => Sys2Proof.Machine.execWakeInChange inp high s
  | .wakeInStuck inp => Sys2Proof.Machine.execWakeInStuck inp s
  | .wakeInUnstuck inp => Sys2Proof.Machine.execWakeInUnstuck inp s
  | .wakeMaskExpiry kind idx => Sys2Proof.Machine.execWakeMaskExpiry kind idx s
  | .vfTransitionDone die => Sys2Proof.Machine.execVfTransitionDone die s
  | .powerSample watts temps => Sys2Proof.Machine.execPowerSample watts temps s
  | .thermalSample blk temp => Sys2Proof.Machine.execThermalSample blk temp s
  | .hotNChange asserted => Sys2Proof.Machine.execHotNChange asserted s
  | .memhotNChange asserted => Sys2Proof.Machine.execMemhotNChange asserted s
  | .thermtrip blk temp => Sys2Proof.Machine.execThermtrip blk temp s
  | .perstChange asserted => Sys2Proof.Machine.execPerstChange asserted s
  | .endpointLinkDown => Sys2Proof.Machine.execEndpointLinkDown s
  | .flr => Sys2Proof.Machine.execFlr s
  | .busMasterEnableClear => Sys2Proof.Machine.execBusMasterEnableClear s
  | .busMasterEnableSet => Sys2Proof.Machine.execBusMasterEnableSet s
  | .msixEnableChange on => Sys2Proof.Machine.execMsixEnableChange on s
  | .msixUnmask vec => Sys2Proof.Machine.execMsixUnmask vec s
  | .pmcsrWrite v => Sys2Proof.Machine.execPmcsrWrite v s
  | .windowAccess write off size data => Sys2Proof.Machine.execWindowAccess write off size data s
  | .bar2Access write off size data => Sys2Proof.Machine.execBar2Access write off size data s
  | .ringEnable r v => Sys2Proof.Machine.execRingEnable r v s
  | .ringDisable r v => Sys2Proof.Machine.execRingDisable r v s
  | .crpiWrite r v => Sys2Proof.Machine.execCrpiWrite r v s
  | .ringReadCompletion tag st units => Sys2Proof.Machine.execRingReadCompletion tag st units s
  | .ringReadTimeout tag => Sys2Proof.Machine.execRingReadTimeout tag s
  | .aspmL1Entry => Sys2Proof.Machine.execAspmL1Entry s
  | .pmeTurnOff => Sys2Proof.Machine.execPmeTurnOff s
  | .dmaChannelEnable q ch v => Sys2Proof.Machine.execDmaChannelEnable q ch v s
  | .dmaChannelDisable q ch v => Sys2Proof.Machine.execDmaChannelDisable q ch v s
  | .dmaChpiWrite q ch v => Sys2Proof.Machine.execDmaChpiWrite q ch v s
  | .dmaTriggerNotice ch => Sys2Proof.Machine.execDmaTriggerNotice ch s
  | .triggerLineReadDone ch => Sys2Proof.Machine.execTriggerLineReadDone ch s
  | .dmaNextDescriptor e => Sys2Proof.Machine.execDmaNextDescriptor e s
  | .descriptorArrival e => Sys2Proof.Machine.execDescriptorArrival e s
  | .dmaReadReturn e => Sys2Proof.Machine.execDmaReadReturn e s
  | .dmaWriteAck e => Sys2Proof.Machine.execDmaWriteAck e s
  | .completionRecordAck ch => Sys2Proof.Machine.execCompletionRecordAck ch s
  | .barrierRelease ch => Sys2Proof.Machine.execBarrierRelease ch s
  | .dmaDrainDone ch => Sys2Proof.Machine.execDmaDrainDone ch s
  | .counterWrap core n => Sys2Proof.Machine.execCounterWrap core n s
  | .sampleRecord core n => Sys2Proof.Machine.execSampleRecord core n s
  | .sampleSpill core => Sys2Proof.Machine.execSampleSpill core s
  | .sampleSpillAck core => Sys2Proof.Machine.execSampleSpillAck core s
  | .smpRingEnable q die l v => Sys2Proof.Machine.execSmpRingEnable q die l v s
  | .blockCounterWrap kind idx n => Sys2Proof.Machine.execBlockCounterWrap kind idx n s
  | .bwWindowInterval w => Sys2Proof.Machine.execBwWindowInterval w s
  | .aonReset => Sys2Proof.Machine.execAonReset s
  | .aonResetRelease samples => Sys2Proof.Machine.execAonResetRelease samples s
  | .bootImageVerified copyA copyB => Sys2Proof.Machine.execBootImageVerified copyA copyB s
  | .glbBootimgGo q v img => Sys2Proof.Machine.execGlbBootimgGo q v img s
  | .railPowerGood rail => Sys2Proof.Machine.execRailPowerGood rail s
  | .railPgTimeout rail => Sys2Proof.Machine.execRailPgTimeout rail s
  | .bootStageComplete o => Sys2Proof.Machine.execBootStageComplete o s
  | .packageReset => Sys2Proof.Machine.execPackageReset s
  | .glbResetPkg q v => Sys2Proof.Machine.execGlbResetPkg q v s
  | .glbResetKiln q v => Sys2Proof.Machine.execGlbResetKiln q v s
  | .kilnWatchdog => Sys2Proof.Machine.execKilnWatchdog s
  | .pgFall rail => Sys2Proof.Machine.execPgFall rail s
  | .rptEnable q n v => Sys2Proof.Machine.execRptEnable q n v s
  | .rptLinkDown enWrite n => Sys2Proof.Machine.execRptLinkDown enWrite n s
  | .rptDrainDone n => Sys2Proof.Machine.execRptDrainDone n s
  | .upstreamTlp n k addr len data ep => Sys2Proof.Machine.execUpstreamTlp n k addr len data ep s
  | .downstreamCompletion n id st val => Sys2Proof.Machine.execDownstreamCompletion n id st val s
  | .rootPortCplTimeout n id => Sys2Proof.Machine.execRootPortCplTimeout n id s
  | .configRetry n id => Sys2Proof.Machine.execConfigRetry n id s
  | .registerWrite sp q off size v => Sys2Proof.Machine.execRegisterWrite sp q off size v s
  | .pkgAutoEntry => Sys2Proof.Machine.execPkgAutoEntry s
  | .deviceAccessCompletion id => Sys2Proof.Machine.execDeviceAccessCompletion id s
  | .rootPortLinkUp n gen width flit => Sys2Proof.Machine.execRootPortLinkUp n gen width flit s
  | .rootPortL1Change n enter => Sys2Proof.Machine.execRootPortL1Change n enter s
  | .endpointLinkUp => Sys2Proof.Machine.execEndpointLinkUp s
  | .aspmL0sEntry => Sys2Proof.Machine.execAspmL0sEntry s
  | .flrComplete => Sys2Proof.Machine.execFlrComplete s
  | .forwardedClockFailure die g => Sys2Proof.Machine.execForwardedClockFailure die g s

end Sys2Proof.Machine
end

