-- ==== Sys2Proof/Machine/Tick.lean ====
section
/-! DEFINITION. What time does when no command waits: the tick of the package's clocks (R18, R65, R217, R263, R264, R270, R308, R319, R326). DESIGN CHOICE
(log 42): one idle step is one tick of 312.5 ps. -/

namespace Sys2Proof.Machine

/-- R65, R217: the time base at the end of an F-cycle: a tick of 20 F-cycles, or one fewer or more while it is behind or ahead. -/
def State.tickTime (s : State) : State :=
  let n := if 0 < s.reel.adj then 19 else if s.reel.adj < 0 then 21 else 20
  if s.tbPhase + 1 < n then { s with tbPhase := s.tbPhase + 1 }
  else
    let adj := if 0 < s.reel.adj then s.reel.adj - 1 else if s.reel.adj < 0 then s.reel.adj + 1 else 0
    { s with tb := s.tb + 1, tbPhase := 0, reel := { s.reel with adj := adj } }

/-- R319: the core cycles that end with this tick are counted. -/
def State.tickCores (s : State) : State :=
  let next := { s with now := s.now + 1 }
  (s.cores.map (fun e => e.1)).foldl (fun s c => if s.cyc c < next.cyc c then s.countCore c (s.cyc c) else s) s

/-- R269: a message for a die in DS2 makes the package's state PS0 (DEDUCED, log 43: with what reaching PS0 does). -/
def State.messagePs0 (s : State) : State :=
  if s.fget .pwrStatusState ≠ 1 then s
  else
    let s := (s.fput .pwrStatusState 0 0 0).fput .pwrStatusStep 0 0 0
    let s := if s.fget .pwrStatusReq = 15 then s else s.fput .pwrStatusReq 0 0 0
    ({ s with pwr := { s.pwr with step := 0, target := 0 } }).reachPs0

/-- R263: a message that waits for a sleeping die or core starts its exit. -/
def State.rouseFor (s : State) (m : Msg) : State :=
  let d := dieOf m.core
  if (s.die d).dst = 2 then (s.startDieExit d 0).messagePs0
  else if (s.die d).dst = 1 then s.startDieExit d 0
  else s.startExit m.core 0

/-- R263, R264: sleeping dies and cores that a message or a READY and unheld context needs start their exits. -/
def State.rouse (s : State) : State :=
  if 2 ≤ s.fget .pwrStatusState then s
  else
    let ms := s.fab.net.filter (fun m => downward m.kind && decide (m.at_ ≤ s.fcyc) && !s.takes m)
    let s := ms.foldl (fun s m => s.rouseFor m) s
    let cs := (s.cores.filter (fun e => decide (e.2.cst ≠ .cs0) && e.2.ctxs.any (fun x => decide (x.2.st = .ready) && !x.2.hold))).map (fun e => e.1)
    cs.foldl (fun s c => if (s.die (dieOf c)).dst = 0 then s.startExit c 0 else s.startDieExit (dieOf c) 0) s

/-- R105, R145: what a home slice does in an F-cycle without a new request: closed trackers leave, and released data is written. -/
def State.tickSlices (s : State) : State :=
  ((s.home.slices.map (fun e => e.1)).foldl (fun s n => (s.tidy n).drainWbuf n) s).finishRemovals

/-- R122, R308, R355: the DMA engines and the root ports move in every F-cycle. -/
def State.tickIo (s : State) : State :=
  (List.range 20).foldl (fun s n => s.portPump n) ((List.range 8).foldl (fun s e => s.dmaPump e) s)

/-- The end of one F-cycle and the start of the next. -/
def State.tickFabric (s : State) : State := s.tickTime.tickSlices.tickIo.rouse

/-- One tick of 312.5 ps. Under AON reset or after THERMTRIP only time passes (R281, R337). -/
def State.tick (s : State) : State :=
  let later := fun (s : State) => { s with now := s.now + 1 }
  if s.kiln.aonHeld || s.pins.thermtrip then later s
  else
    let s := s.tickCores
    if (later s).fcyc = s.fcyc then later s else (later (s.countBlocks)).tickFabric

end Sys2Proof.Machine
end

