-- ==== Sys2Proof/Safety.lean ====
section
/-! DEFINITION. What counts as a safe run, and the terms that the statements are made in: when an instruction issues, what a command leaves alone,
the invariants. -/

namespace Sys2Proof.Machine

/-- A step that goes on. -/
def StepsSafely (s : State) : Prop := ∃ t, step s = .next t

/-- A run of a number of steps that goes on throughout. -/
def RunsSafely : Nat → State → Prop
  | 0, _ => True
  | n + 1, s => ∃ t, step s = .next t ∧ RunsSafely n t

/-- R14 to R24: an instruction with these needs issues in this cycle, and not in a cancelled shadow. -/
def Issues (s : State) (h : Ins) (q : IssQ) : Prop :=
  (s.core h.core).killed (s.cyc h.core) h q = false ∧ (s.core h.core).issueOk (s.cyc h.core) h q = true

/-- Everything but the cores is unchanged. -/
def SameBesideCores (s t : State) : Prop := { t with cores := s.cores } = s

/-- Everything but one core is unchanged. -/
def SameBesideCore (s t : State) (c : Nat) : Prop := SameBesideCores s t ∧ ∀ d, d ≠ c → t.core d = s.core d

/-- The other contexts of a core are unchanged. -/
def SameOthers (k l : Core) (i : Nat) : Prop := ∀ j, j ≠ i → l.ctx j = k.ctx j

/-- Two cores differ in nothing but their contexts, the issue lanes, the count of retired instructions, and the events and samples of the cycle (R16, R56,
R318, R321): the L2, the store buffer, the tables and every CSR of the core are the same. -/
def SameBesidePipe (k l : Core) : Prop :=
  { l with
      ptr := k.ptr, lane0 := k.lane0, lane1 := k.lane1, pick1 := k.pick1, ctxs := k.ctxs, minstret := k.minstret, evs := k.evs,
      smpWait := k.smpWait, smpDue := k.smpDue, retire := k.retire } = k

/-- Two contexts differ in nothing but the pc, the timing of their next instructions, and what has been fetched or sampled for them (R14 to R24, R321): the
registers, every CSR, the mode, the state and the accesses are the same. -/
def SameBesideFlow (x y : Ctx) : Prop :=
  { y with
      pc := x.pc, nextIssue := x.nextIssue, iss := x.iss, memFree := x.memFree, shadowEnd := x.shadowEnd, shadowKill := x.shadowKill,
      inflight := x.inflight, regReady := x.regReady, fbuf := x.fbuf, fnext := x.fnext, fmin := x.fmin, fstop := x.fstop, ffault := x.ffault,
      facc := x.facc, tmiss := x.tmiss, wfault := x.wfault, heldHint := x.heldHint, smp := x.smp, sflags := x.sflags } = x

/-- An instruction stays in its core and its context; its core is left as `k`, its context as `x` (beside the pipeline of each). -/
def LeavesAs (s t : State) (h : Ins) (k : Core) (x : Ctx) : Prop :=
  SameBesideCore s t h.core ∧ SameOthers (s.core h.core) (t.core h.core) h.ctx ∧ SameBesidePipe k (t.core h.core) ∧
    SameBesideFlow x (t.ctx h.core h.ctx)

/-- An instruction of a context stays in its core and its context, touches no memory and no table of the core, and leaves its context as `x`. -/
def LeavesCtx (s t : State) (h : Ins) (x : Ctx) : Prop := LeavesAs s t h (s.core h.core) x

/-- R17, R18, R56: an instruction of a context is done in the current cycle: the core is left as `k` and its context as `x`, the pc is past it, its result
is there after its latency, and one more instruction has retired. -/
def DoneAs (s t : State) (h : Ins) (lat rd : Nat) (k : Core) (x : Ctx) : Prop :=
  LeavesAs s t h k x ∧ (t.ctx h.core h.ctx).pc = (s.ctx h.core h.ctx).pc + BitVec.ofNat 64 (insLen h) ∧
    (rd ≠ 0 → Tab.get 0 (t.ctx h.core h.ctx).regReady rd = s.cyc h.core + lat) ∧
    (t.core h.core).minstret = (s.core h.core).minstret + (if bit (s.core h.core).mcountinhibit 2 then 0 else 1)

/-- As `DoneAs`, of an instruction that touches no memory and no table of its core. -/
def DoneIn (s t : State) (h : Ins) (lat rd : Nat) (x : Ctx) : Prop := DoneAs s t h lat rd (s.core h.core) x

/-- R20, R22: an instruction of a context is done, and the context's fetch restarts at `pc` two cycles later. -/
def TransfersTo (s t : State) (h : Ins) (pc : W64) (k : Core) (x : Ctx) : Prop :=
  LeavesAs s t h k x ∧ (t.ctx h.core h.ctx).pc = pc ∧ (t.ctx h.core h.ctx).fnext = pc.toNat ∧ (t.ctx h.core h.ctx).fmin = s.cyc h.core + 2 ∧
    (t.ctx h.core h.ctx).fbuf = [] ∧
    (t.core h.core).minstret = (s.core h.core).minstret + (if bit (s.core h.core).mcountinhibit 2 then 0 else 1)

/-- The state after an instruction has issued and before it has had its effect (R14, R16, R21). -/
def State.issued (s : State) (h : Ins) (q : IssQ) : State := s.setCore h.core ((s.core h.core).mark (s.cyc h.core) h q)

/-- R25, R28, R60: an access of an instruction that has issued passes its fault check. -/
def Passes (s : State) (h : Ins) (q : IssQ) (kind : AKind) (va size : Nat) (atomic : Bool) (misaligned pa mt : Nat) : Prop :=
  (s.issued h q).check (s.cyc h.core) h (s.ctx h.core h.ctx) kind va size atomic misaligned = .ok pa mt

/-- The needs of a memory instruction (R15, R23). -/
def memQ (regs : List Nat) : IssQ := { lane := 1, regs := regs, mem := true }

/-- R41, R46: a context whose FP part, where an instruction uses it, is in the slot with FS on. -/
def FpReady (x : Ctx) (fp : Bool) : Prop := fp = true → x.fs ≠ 0 ∧ x.fpHere = true

/-- A context after a load of a value (R46). -/
def Ctx.loaded (x : Ctx) (m : MemOp) (rd : Nat) (v : W64) : Ctx := if m.fp then x.setF rd (loadReg true m.sz v) else x.setX rd v

/-- As `State.issued`, of an instruction that has waited for its context's stores to drain (R36). -/
def State.issuedDrained (s : State) (h : Ins) (q : IssQ) : State := (s.issued h q).modCtx h.core h.ctx (fun x => { x with dwait := false })

/-- As `Passes`, of an access that has waited for its context's stores to drain. -/
def PassesDrained (s : State) (h : Ins) (q : IssQ) (kind : AKind) (va size : Nat) (atomic : Bool) (misaligned pa mt : Nat) : Prop :=
  (s.core h.core).drained h.ctx = true ∧ Issues s h q ∧
    (s.issuedDrained h q).check (s.cyc h.core) h (s.ctx h.core h.ctx) kind va size atomic misaligned = .ok pa mt

/-- The commands that are CSR instructions, and the CSR each names (R38, R46, R61, R68, R69, R72, R76, R77, R94, R367). -/
def CsrCommand (c : Instr) (h : Ins) (op : CsrOp) (csr rd src : Nat) : Prop :=
  c = .csrAccess h op csr rd src ∨ c = .pmpWrite h op csr rd src ∨ (c = .mctxdataAccess h op rd src ∧ csr = 0x7C2) ∨
  (c = .mctxholdWrite h op rd src ∧ csr = 0x7C3) ∨ (c = .sxltWrite h op rd src ∧ csr = 0x5C4) ∨ (c = .sxltbaseWrite h op rd src ∧ csr = 0x5C5) ∨
  (c = .sxltinvWrite h op rd src ∧ csr = 0x5C6) ∨ (c = .ifClaim h op true rd src ∧ csr = 0x7D2) ∨ (c = .ifClaim h op false rd src ∧ csr = 0x5D2) ∨
  (c = .ifEoi h op true rd src ∧ csr = 0x7D3) ∨ (c = .ifEoi h op false rd src ∧ csr = 0x5D3) ∨ (c = .ifPost h op true rd src ∧ csr = 0x7D4) ∨
  (c = .ifPost h op false rd src ∧ csr = 0x5D4)

/-- What a CSR instruction that has issued leaves: what it writes, then its register with the value read before the write, and fetch restarted (R20, R22,
R367). -/
def CsrResult (s s1 : State) (h : Ins) (op : CsrOp) (csr rd src : Nat) : State :=
  let a := csrOperand op (s.ctx h.core h.ctx) src
  let s2 := if csr = 0x7C2 then s1.modCore h.core Core.ctxdataErr else s1
  let s3 := if csrWrites op src then s2.csrPut h.core h.ctx csr (csrNew op (s1.csrOld h.core h.ctx csr) a) (csrOnes op a) else s2
  s3.modCore h.core (fun k =>
    (k.serialDone (s.cyc h.core) h (some rd) (fun x => x.setX rd (s1.csrOld h.core h.ctx csr))).intWake (s.cyc h.core) h.ctx)

/-- R28, R59: an instruction takes a synchronous trap: nothing of it but the trap takes effect, its context's reservation is gone, and the handler's fetch
enters IF1 in cycle `at_`. -/
def TrapsTo (s t : State) (h : Ins) (tr : Trap) (at_ : Nat) : Prop :=
  LeavesAs s t h ((s.core h.core).clearResv h.ctx) ((s.ctx h.core h.ctx).trap false tr at_) ∧
    (t.ctx h.core h.ctx).pc = ((s.ctx h.core h.ctx).trap false tr at_).pc ∧ (t.ctx h.core h.ctx).fmin = at_ ∧
    (t.ctx h.core h.ctx).nextIssue = at_ ∧ (t.ctx h.core h.ctx).fbuf = []

/-- The commands that write one register, as commands of who makes the write; the register's offset, its width (2^sz bytes) and the value written. -/
def WritesRegister (w : Req → Instr) (off sz : Nat) (v : W64) : Prop :=
  (∃ b, w = (fun q => .msiDoorbell q b) ∧ off = RegKind.irtMsi.addr 0 0 ∧ sz = 2 ∧ v = b.zeroExtend 64) ∨
  (sz = 3 ∧ ∃ (k : RegKind) (i j : Nat), k.has i j = true ∧ off = k.addr i j ∧
    ((k = .irtRoute ∧ j = 0 ∧ w = (fun q => .irtRouteWrite q i v)) ∨
     (k = .ectCmd ∧ i = 0 ∧ j = 0 ∧ ((v = 1 ∧ w = (fun q => .ectWriteRaw q)) ∨ (v = 2 ∧ w = (fun q => .ectWriteEnc q)) ∨
       (v = 3 ∧ w = (fun q => .ectReadRaw q)) ∨ (v = 4 ∧ w = (fun q => .ectReadDec q)))) ∨
     (k = .mbxDoorbell ∧ j = 0 ∧ w = (fun q => .mbxDoorbell q i v)) ∨
     (k = .pwrSpill ∧ j = 0 ∧ w = (fun q => .pwrSpillWrite q i v)) ∨
     (k = .pwrCorectl ∧ j = 0 ∧ w = (fun q => .pwrCorectlWrite q i v)) ∨
     (k = .pwrDiectl ∧ j = 0 ∧ w = (fun q => .pwrDiectlWrite q i v)) ∨
     (k = .dmaChctl ∧ (w = (fun q => .dmaChannelEnable q (i * 32 + j) v) ∨ w = (fun q => .dmaChannelDisable q (i * 32 + j) v))) ∨
     (k = .dmaChpi ∧ w = (fun q => .dmaChpiWrite q (i * 32 + j) v)) ∨
     (k = .cdSmpring ∧ w = (fun q => .smpRingEnable q i j v)) ∨
     (k = .glbBootimg ∧ i = 0 ∧ j = 0 ∧ ∃ img, w = (fun q => .glbBootimgGo q v img)) ∨
     (k = .glbReset ∧ i = 0 ∧ j = 0 ∧ (w = (fun q => .glbResetPkg q v) ∨ w = (fun q => .glbResetKiln q v))) ∨
     (k = .rptCtl ∧ j = 0 ∧ (w = (fun q => .rptEnable q i v) ∨ w = (fun q => .rptLinkDown (some (q, v)) i)))))

/-- R223: nothing is under way between this package and a member: its links answer no command, no slice works, no line of this package's memory is held by
packages, no context awaits a SPAWN, no command is relayed, no partition is in use, no route's delivery is on its way and no shootdown waits. -/
def QuietAbout (s : State) (x : Nat) : Prop :=
  x < 8 ∧ x ≠ s.pkg ∧ s.member x = true ∧ s.lost x = false ∧ (∀ k < 10, (s.rport k).cmd = none) ∧ (∀ n < 16, s.slice n = {}) ∧ s.home.vec = [] ∧
    (∀ e ∈ s.cores, ∀ y ∈ e.2.ctxs, y.2.spawnRd = none) ∧ s.reel.relays = [] ∧ (∀ p < 64, s.partState p = 0) ∧
    (∀ r, s.fget .irtRouteSent r = 0) ∧ s.fab.shoots = []

/-- The memories of a state, DRAM's data and check symbols and the mailbox pages, are in their canonical form. -/
structure State.MemOk (s : State) : Prop where
  dram : Memory.wf s.mem.dram = true
  chk : Memory.wf s.mem.chk = true
  mbx : Memory.wf s.kiln.mbx = true

/-- What every operation of the block leaves: the queue, the fuses of the I/O die and the time are as before, and memories in canonical form stay so. -/
structure Kept (s t : State) : Prop where
  pending : t.pending = s.pending
  fuses : t.ioFuses = s.ioFuses
  now : t.now = s.now
  mem : s.MemOk → t.MemOk

/-- A command that goes on, and leaves what every operation leaves. -/
def KeptOut (s : State) (o : Out) : Prop := ∃ t, o = .next t ∧ Kept s t

end Sys2Proof.Machine
end

