-- ==== Sys2Proof/Certificates/Slice0/Obligations.lean ====
section
/-! DEFINITION. The statements for the provers: what each family of commands does to the state of the package, by the rules of spec/, and what every
command leaves. A mark and a log entry in a docstring name a choice of the model. -/

open Sys2Proof Sys2Proof.Machine

/-- With a command at the front of its queue, a step is exec of that command on the state with the queue's rest. With none, the time moves on by one tick,
the queue stays empty and the fuses stay; under AON reset or after THERMTRIP nothing else changes: that the idle step is a tick is the model's choice
(DESIGN CHOICE, log 42). No word of the table spells a command, since its rows give no bits, and withFetchWord changes nothing. -/
def Obligations.CommandAtTheFront : Prop :=
  (∀ (s : State) (c : Instr) (rest : List Instr), s.pending = c :: rest → step s = exec c { s with pending := rest }) ∧
  (∀ s : State, s.pending = [] → ∃ t, step s = .next t ∧ t.now = s.now + 1 ∧ t.pending = [] ∧ t.ioFuses = s.ioFuses ∧
    (s.kiln.aonHeld = true ∨ s.pins.thermtrip = true → t = { s with now := s.now + 1 })) ∧
  (∀ nbits w, decodeTableWord nbits w = none ∧ ∀ s : State, s.withFetchWord nbits w = s)

/-- R11, R38, R337, R339: State.reset has an empty queue, AON reset not yet released, memories in their canonical form with nothing listed, every context
EMPTY with every register zero, every core's L2, store buffer, reservations, watches and ready queue empty, mctxctl with QUANTUM 16, mtmrcmp all ones,
every partition FREE, and the reset values the register tables give: HS_TMO, HS_MSCWAY of partition 0, routes disabled, RPT_CTL, SLP_CFG, PWR_WAKECFG.
The dies' fuses hold their positions. Values of registers without a reset value are DESIGN CHOICE (logs 44, 49). -/
def Obligations.ResetState : Prop :=
  State.reset.pending = [] ∧ State.reset.MemOk ∧ State.reset.mem.dram = [] ∧ State.reset.kiln.aonHeld = true ∧
  (∀ c i, State.reset.ctx c i = { ({} : Ctx) with st := .empty } ∧ (∀ n, (State.reset.ctx c i).getX n = 0)) ∧
  (∀ c, (State.reset.core c).mctxctl = 0x1000 ∧ (State.reset.core c).mtmrcmp = 0xFFFFFFFFFFFFFFFF ∧ (State.reset.core c).mtmrctl = 0 ∧
    (State.reset.core c).l2 = [] ∧ (State.reset.core c).sb = [] ∧ (State.reset.core c).resv = [] ∧ (State.reset.core c).watch = [] ∧
    (State.reset.core c).readyQ = []) ∧
  (∀ p < 64, State.reset.partState p = 0) ∧
  (∀ n, State.reset.fget .hsTmoLimit n = 0x100000 ∧ State.reset.rget .hsMscway n 0 = 0xFFFF ∧
    (∀ p, p ≠ 0 → State.reset.rget .hsMscway n p = 0)) ∧
  (∀ n, State.reset.fget .irtRouteEn n = 0 ∧ State.reset.fget .irtRouteSent n = 0) ∧
  (∀ n, State.reset.rget .rptCtl n = 0x13C) ∧
  State.reset.rget .slpCfg = 0x10081F ∧ State.reset.rget .pwrWakecfg = 0x10FF ∧
  (∀ d, d < 12 → bits ((State.reset.die d).fuses.getD 0 0) 0 4 = d)

/-- R192, R239: From every state whose DRAM contents, check-symbol differences and mailbox memory are in canonical form (addresses strictly rising, no
entry equal to what an unlisted address reads as), a step that answers a next state leaves them so, whether it runs any command of the table or lets a
tick pass. -/
def Obligations.EveryStepKeepsMemoryCanonical : Prop :=
  ∀ s t : State, s.MemOk → step s = .next t → t.MemOk

/-- For every command and every state, exec answers a next state, never a fault and never a refusal; that state has the same queue, the same I/O-die fuses
and the same time, and its memories are in canonical form if they were. -/
def Obligations.EveryCommandCompletes : Prop :=
  ∀ (c : Instr) (s : State), ∃ t, exec c s = .next t ∧ t.pending = s.pending ∧ t.ioFuses = s.ioFuses ∧ t.now = s.now ∧ (s.MemOk → t.MemOk)

/-- R8, R9, R64, R74, R337: For every command that writes one register: the kiln's write does what the host's does, but for a mailbox doorbell; a core's
does nothing until its context's oldest device access is that write and has arrived; with the right and the width it does what the kiln's write does
and completes the access, and nothing where the register is GLB_RESET; without them the access ends with OUTSIDE_WINDOW and nothing else changes. -/
def Obligations.RegisterWritesOfEachRequester : Prop :=
  ∀ (s : State) (w : Req → Instr) (off sz : Nat) (v : W64), WritesRegister w off sz v →
    (exec (w .kiln) s = exec (w .host) s ∨ ∃ p b, w = (fun q => .mbxDoorbell q p b)) ∧
    ∀ c i,
      ((∀ d, s.devNextOf c i = some d → d.write = false ∨ d.pa ≠ s.ctlPa off ∨ d.val.toNat % 2 ^ (8 * 2 ^ d.sz) ≠ v.toNat ∨ s.fcyc < d.at_ + 3) →
        exec (w (.ctx c i)) s = .next s) ∧
      ∀ d, s.devNextOf c i = some d → d.write = true → d.pa = s.ctlPa off → d.val.toNat % 2 ^ (8 * 2 ^ d.sz) = v.toNat → d.at_ + 3 ≤ s.fcyc →
        ((d.sz ≠ sz ∨ ∀ p, s.corePart c = some p → s.plat p = false ∧ inMailbox p off = false) →
          exec (w (.ctx c i)) s = .next (s.devDone d.id rOutsideWindow 0)) ∧
        (∀ p, s.corePart c = some p → s.plat p = true ∨ inMailbox p off = true → d.sz = sz →
          ∃ t, exec (w .kiln) s = .next t ∧
            exec (w (.ctx c i)) s = .next ((if off = RegKind.glbReset.addr 0 0 then s else t).devDone d.id 0 0))

/-- R14: Of the two lanes, every instruction that issues in a cycle uses one that was free in it, so after two nothing issues or is cancelled in that
cycle; after an instruction of a slot has issued, no instruction of that slot issues or is cancelled in the same cycle; and an instruction issues only
from the bytes fetched at its context's pc, with no older access outstanding and in its turn. -/
def Obligations.AtMostTwoInstructionsIssue : Prop :=
  ∀ (k : Core) (t : Nat) (h : Ins) (q : IssQ),
    (t < k.lane0 → t < k.lane1 → k.issueOk t h q = false ∧ k.killed t h q = false) ∧
    (k.issueOk t h q = true →
      b2n (decide ((k.mark t h q).lane0 ≤ t)) + b2n (decide ((k.mark t h q).lane1 ≤ t)) + 1 =
        b2n (decide (k.lane0 ≤ t)) + b2n (decide (k.lane1 ≤ t)) ∧
      (∀ g p, k.slotOf g.ctx = k.slotOf h.ctx → (k.mark t h q).issueOk t g p = false ∧ (k.mark t h q).killed t g p = false) ∧
      fetched (k.ctx h.ctx).fbuf (k.ctx h.ctx).pc.toNat (insLen h) t = true ∧ (k.ctx h.ctx).acc = none ∧ (k.ctx h.ctx).nextIssue ≤ t)

/-- R14, R17, R18, R19, R21, R22, R54: An integer ALU instruction or a multiply that issues completes: rd gets the function of the operands read at issue,
the pc moves past the instruction, the result's latency is 1 or 3 core cycles, one more instruction retires, and no memory, no table and no other
register, CSR or context changes. A divide that issues with the divider free occupies it for the latency that R19 gives; when the divider ends, its
result, or the FP unit's result with its flags, is written to its context and nothing else changes. The arithmetic itself is the RISC-V instruction
set's (PRESUMED, log 5). A conditional branch that issues goes to pc + offset when its condition holds and else past the instruction; a direct jump
goes to pc + offset and an indirect one to rs1 + offset with bit 0 clear, both with the link in rd. The fetch of a branch and of an indirect jump
restarts two cycles later with an empty buffer. No other register, CSR, memory or context changes. -/
def Obligations.IntegerAndControlInstructions : Prop :=
  (∀ (s : State) (h : Ins) (rd rs1 rs2 : Nat),
     (∀ op b, Issues s h { lane := 2, regs := [rd, rs1] ++ src2Regs b, safe := true } →
       ∃ t, exec (.integerAlu h op rd rs1 b) s = .next t ∧ DoneIn s t h 1 rd ((s.ctx h.core h.ctx).setX rd
         (aluFn op (s.ctx h.core h.ctx).pc ((s.ctx h.core h.ctx).getX rs1) ((s.ctx h.core h.ctx).src2 b)))) ∧
     (∀ op, Issues s h { lane := 0, regs := [rd, rs1, rs2], safe := true } →
       ∃ t, exec (.multiply h op rd rs1 rs2) s = .next t ∧ DoneIn s t h 3 rd ((s.ctx h.core h.ctx).setX rd
         (mulFn op ((s.ctx h.core h.ctx).getX rs1) ((s.ctx h.core h.ctx).getX rs2)))) ∧
     (∀ op lat v, (s.core h.core).divu = none → Issues s h { lane := 0, regs := [rd, rs1, rs2] } →
       lat = divLatency op ((s.ctx h.core h.ctx).getX rs1) ((s.ctx h.core h.ctx).getX rs2) →
       v = divFn op ((s.ctx h.core h.ctx).getX rs1) ((s.ctx h.core h.ctx).getX rs2) →
       ∃ t, exec (.divide h op rd rs1 rs2) s = .next t ∧ DoneAs s t h lat rd
         { s.core h.core with divu := some { ctx := h.ctx, rd := rd, fp := false, val := v, flags := 0, free := s.cyc h.core + lat } }
         (s.ctx h.core h.ctx)) ∧
     (∀ core u, (s.core core).divu = some u → u.fp = false → u.free ≤ s.cyc core →
       ∃ t, exec (.dividerFree core false) s = .next t ∧ SameBesideCore s t core ∧ SameOthers (s.core core) (t.core core) u.ctx ∧
         t.ctx core u.ctx = (s.ctx core u.ctx).setX u.rd u.val ∧
         { t.core core with divu := (s.core core).divu, ctxs := (s.core core).ctxs } = s.core core ∧ (t.core core).divu = none) ∧
     (∀ core u, (s.core core).fdivu = some u → u.fp = true → u.free ≤ s.cyc core →
       ∃ t, exec (.dividerFree core true) s = .next t ∧ SameBesideCore s t core ∧ SameOthers (s.core core) (t.core core) u.ctx ∧
         t.ctx core u.ctx = ((s.ctx core u.ctx).setF u.rd u.val).accrue u.flags ∧
         { t.core core with fdivu := (s.core core).fdivu, ctxs := (s.core core).ctxs } = s.core core ∧ (t.core core).fdivu = none)) ∧
  (∀ (s : State) (h : Ins) (rd rs1 rs2 : Nat) (off link : W64),
     link = (s.ctx h.core h.ctx).pc + BitVec.ofNat 64 (insLen h) →
     (∀ c, Issues s h { lane := 0, regs := [rs1, rs2] } →
       ∃ t, exec (.conditionalBranch h c rs1 rs2 off) s = .next t ∧ TransfersTo s t h
         (if brCond c ((s.ctx h.core h.ctx).getX rs1) ((s.ctx h.core h.ctx).getX rs2) then (s.ctx h.core h.ctx).pc + off else link)
         (s.core h.core) (s.ctx h.core h.ctx)) ∧
     (Issues s h { lane := 0, regs := [rd] } →
       ∃ t, exec (.directJump h rd off) s = .next t ∧ LeavesCtx s t h ((s.ctx h.core h.ctx).setX rd link) ∧
         (t.ctx h.core h.ctx).pc = (s.ctx h.core h.ctx).pc + off) ∧
     (Issues s h { lane := 0, regs := [rd, rs1] } →
       ∃ t, exec (.indirectJump h rd rs1 off) s = .next t ∧ TransfersTo s t h (setBits ((s.ctx h.core h.ctx).getX rs1 + off) 0 1 0)
         (s.core h.core) ((s.ctx h.core h.ctx).setX rd link)))

/-- R18, R19, R41, R54: With FS on and the FP part in the slot, an FP operation that issues with a valid rounding mode writes its integer or FP
destination with its function's value, ORs its flags into fflags, and changes nothing else; a divide or square root occupies the FP divider for its
latency. The arithmetic is the RISC-V instruction set's (PRESUMED, log 5). -/
def Obligations.FpInstructions : Prop :=
  ∀ (s : State) (h : Ins) (fmt : FpFmt) (rm r : RoundMode) (rd rs1 rs2 rs3 : Nat) (x : Ctx), x = s.ctx h.core h.ctx → x.fs ≠ 0 →
    (∀ (op : FpOp) o, x.fpHere = true → roundModeOf (if op.rounds then rm else .rne) (bits x.fcsr 5 3) = some r →
      Issues s h { lane := 0, regs := fpRegs op rd rs1 rs2 rs3, safe := true } →
      o = fpFn op fmt r (if op.fromX then x.getX rs1 else x.getF rs1) (x.getF rs2) (x.getF rs3) →
      ∃ t, exec (.fpOperation h op fmt rm rd rs1 rs2 rs3) s = .next t ∧
        DoneIn s t h op.latency (if op.toX then rd else rd + 32) ((if op.toX then x.setX rd o.1 else x.setF rd o.1).accrue o.2)) ∧
    (∀ sqrt o, x.fpHere = true → roundModeOf rm (bits x.fcsr 5 3) = some r → (s.core h.core).fdivu = none →
      Issues s h { lane := 0, regs := [rd + 32, rs1 + 32] ++ (if sqrt then [] else [rs2 + 32]) } →
      o = fpDivFn sqrt fmt r (x.getF rs1) (x.getF rs2) →
      ∃ t, exec (.fpDivide h sqrt fmt rm rd rs1 rs2) s = .next t ∧ DoneAs s t h o.2.2 (rd + 32)
        { s.core h.core with fdivu := some { ctx := h.ctx, rd := rd, fp := true, val := o.1, flags := o.2.1, free := s.cyc h.core + o.2.2 } } x)

/-- R6, R8, R25, R28, R60, R61, R63, R75: A data access is checked in this order, and the first that fails takes the trap with the access's cause and
address and enters the handler three cycles later: alignment, translation, PMP for the effective privilege, an atomic at an address that is not
cacheable, the physical window of the core's partition, whose reason code goes with the trap. An access that passes them all has the physical address
and memory type of the translation. -/
def Obligations.DataAccessCheck : Prop :=
  ∀ (s : State) (t : Nat) (h : Ins) (old : Ctx) (kind : AKind) (va size : Nat) (atomic : Bool) (mis pa mt : Nat) (traps : Trap → State),
    (∀ tr, traps tr = s.modCore h.core (fun k => k.syncTrap t h tr (t + 3))) →
    (va % size ≠ 0 → mis ≠ 0 →
      s.check t h old kind va size atomic mis = .stop (traps { cause := mis, tval := BitVec.ofNat 64 va })) ∧
    (va % size = 0 ∨ mis = 0 →
      (∀ tr, s.xlate h.core h.ctx kind va = .fault tr → s.check t h old kind va size atomic mis = .stop (traps tr)) ∧
      (s.xlate h.core h.ctx kind va = .ok pa mt → ∀ pa0, pa0 = (if mis = 0 then pa / size * size else pa) →
        ((s.core h.core).pmpOk ((s.ctx h.core h.ctx).effPrv kind) kind pa0 size = false →
          s.check t h old kind va size atomic mis = .stop (traps { cause := kind.accessFault, tval := BitVec.ofNat 64 va })) ∧
        ((s.core h.core).pmpOk ((s.ctx h.core h.ctx).effPrv kind) kind pa0 size = true →
          (atomic = true → mt ≠ 0 → s.check t h old kind va size atomic mis = .stop (traps { cause := 7, tval := BitVec.ofNat 64 va })) ∧
          (atomic = false ∨ mt = 0 →
            (∀ r, s.physReason (s.corePart h.core) pa0 size = some r →
              s.check t h old kind va size atomic mis = .stop (traps { cause := kind.accessFault, tval := BitVec.ofNat 64 va, reason := r })) ∧
            (s.physReason (s.corePart h.core) pa0 size = none → s.check t h old kind va size atomic mis = .ok pa mt)))))

/-- R25, R29, R32, R43: A load that issues and passes its check: covered by the youngest older store of its context in the store buffer, it takes that
store's bytes; else with the line in the L1D and in a state that serves a load, it takes the line's bytes; both complete with a latency of three
cycles and change nothing but rd. With the line absent from the L2 the context holds the access and the core adds a miss with a shared-read request;
pc and registers stay. -/
def Obligations.Loads : Prop :=
  ∀ (s : State) (h : Ins) (m : MemOp) (rd rs1 : Nat) (off : W64) (e : CoreErr) (x : Ctx) (k : Core) (reg pa mt : Nat),
    x = s.ctx h.core h.ctx → k = s.core h.core → reg = (if m.fp then rd + 32 else rd) → FpReady x m.fp → Issues s h (memQ [reg, rs1]) →
    Passes s h (memQ [reg, rs1]) .load (x.ea rs1 off).toNat (2 ^ m.sz) false 4 pa mt →
    (∀ b, k.sbHit h.ctx pa m.sz = some b → b.covers pa m.sz = true →
      ∃ t, exec (.load h m rd rs1 off e) s = .next t ∧ DoneIn s t h 3 reg (x.loaded m rd (b.forward pa m.sz m.sgn))) ∧
    (k.sbHit h.ctx pa m.sz = none → mt = 0 → e = .none → ∀ l, Tab.find k.l2 (pa / 64) = some l → AccOp.load.servedBy l.st = true →
      k.l1d.contains (pa / 64) = true →
      ∃ t, exec (.load h m rd rs1 off e) s = .next t ∧ DoneIn s t h 3 reg (x.loaded m rd (lineLoad l.data pa m.sz m.sgn))) ∧
    (k.sbHit h.ctx pa m.sz = none → mt = 0 → e = .none → Tab.find k.l2 (pa / 64) = none →
      ∃ t, exec (.load h m rd rs1 off e) s = .next t ∧
        (t.ctx h.core h.ctx).acc =
          some { op := .load, kind := 0, va := (x.ea rs1 off).toNat, pa := pa, rd := rd, fp := m.fp, sgn := m.sgn, sz := m.sz, rvc := h.rvc,
                 issued := s.cyc h.core, raw := h.raw } ∧
        (t.ctx h.core h.ctx).pc = x.pc ∧ (t.ctx h.core h.ctx).x = x.x ∧ (t.ctx h.core h.ctx).f = x.f ∧
        (t.core h.core).miss = (k.addMiss { line := pa / 64, req := .rdS, ctx := h.ctx, found := s.cyc h.core + 8 }).miss)

/-- R31, R33, R34, R36, R368: A store that issues and passes its check with room in the buffer appends one entry with its address, size, value and memory
type and completes, changing nothing else but what it may ask for its line. The oldest entry of a context drains to a line the L2 holds in M: the
entry's bytes are written to that line and the entry leaves. A load held for the drain starts once no entry overlaps it. A deferred store fault that
is due traps the active context at its next boundary with cause 7, the store's address and DFR set. The free way is an open value (log 44). -/
def Obligations.Stores : Prop :=
  (∀ (s : State) (h : Ins) (m : MemOp) (rs2 rs1 : Nat) (off : W64) (e : CoreErr) (x : Ctx) (reg pa mt : Nat) (ent : SbEnt),
    x = s.ctx h.core h.ctx → reg = (if m.fp then rs2 + 32 else rs2) → FpReady x m.fp → (s.core h.core).sb.length < 16 → e ≠ .sbUe →
    Issues s h (memQ [reg, rs1]) → Passes s h (memQ [reg, rs1]) .store (x.ea rs1 off).toNat (2 ^ m.sz) false 6 pa mt →
    ent = { ctx := h.ctx, va := (x.ea rs1 off).toNat, pa := pa, sz := m.sz, val := if m.fp then x.getF rs2 else x.getX rs2, mt := mt
            fp := m.fp, filled := s.cyc h.core + 2 } →
    ∃ t, exec (.store h m rs2 rs1 off e) s = .next t ∧ (t.core h.core).sb = (s.core h.core).sb ++ [ent] ∧ SameBesideCore s t h.core ∧
      SameOthers (s.core h.core) (t.core h.core) h.ctx ∧ SameBesideFlow x (t.ctx h.core h.ctx) ∧
      (t.ctx h.core h.ctx).pc = x.pc + BitVec.ofNat 64 (insLen h) ∧
      SameBesidePipe { s.core h.core with sb := (t.core h.core).sb, miss := (t.core h.core).miss } (t.core h.core)) ∧
  (∀ (s : State) (core ctx : Nat) (ent : SbEnt) (l : L2Line),
    (s.core core).sbHead ctx = some ent → ent.mt = 0 → (s.core core).sbNext ≤ s.cyc core → ent.filled ≤ s.cyc core → (s.core core).clockOn = true →
    Tab.find (s.core core).l2 (ent.pa / 64) = some l → l.st = .m →
    ∃ t, exec (.storeBufferDrain core ctx) s = .next t ∧ SameBesideCore s t core ∧ (t.core core).sb = (s.core core).sb.erase ent ∧
      (t.core core).sbNext = s.cyc core + 1 ∧
      (t.core core).l2 = Tab.ins (s.core core).l2 (ent.pa / 64) { l with data := lineStore l.data ent.pa ent.sz ent.val, performed := true }) ∧
  (∀ (s : State) (core ctx : Nat) (a : Acc),
    (s.ctx core ctx).acc = some a → a.stage = 3 → (s.core core).sbHit ctx a.pa a.sz = none → (s.core core).runs = true → a.dev = false →
    exec (.loadAfterDrain core ctx .none) s =
      .next ((s.modCore core (fun k => k.startAcc (s.cyc core) ctx (Config.freeWay s.free) a)).takeFree)) ∧
  (∀ (s : State) (core ctx d r : Nat) (va : W64) (x : Ctx),
    x = s.ctx core ctx → x.dfault = some (d, va, r) → x.st = .active → (s.core core).runs = true → d ≤ s.cyc core → x.acc = none →
    x.inflight ≤ s.cyc core → x.park = none → ((s.core core).slotOf ctx).isSome = true →
    ∃ t, exec (.deferredStoreFault core ctx) s = .next t ∧ SameBesideCore s t core ∧ SameOthers (s.core core) (t.core core) ctx ∧
      (t.core core).resv = (s.core core).resv.filter (fun r => r.ctx != ctx) ∧
      SameBesideFlow { x.trap false { cause := 7, tval := va, reason := r, dfr := true } (s.cyc core + 2) with dfault := none, dwait := false }
        (t.ctx core ctx) ∧
      (t.ctx core ctx).pc = (x.trap false { cause := 7, tval := va, reason := r, dfr := true } (s.cyc core + 2)).pc)

/-- R36, R53, R63, R114, R117, R118: An AMO, LR, SC, CBO.CLEAN, CBO.FLUSH, CBO.INVAL or CBO.ZERO that has waited for its context's stores to drain, issues
and passes its check starts the access of its kind at rs1 with its operand; the CBO instructions need their enable bits in the environment registers.
CBO.ZERO of device memory takes an access fault, and of non-cacheable memory sends a write of 64 zero bytes. -/
def Obligations.AtomicsAndCacheOperations : Prop :=
  ∀ (s : State) (h : Ins) (sz rd rs1 rs2 va pa mt : Nat) (x : Ctx) (k : Core), x = s.ctx h.core h.ctx → k = s.core h.core →
    va = (x.getX rs1).toNat →
    (∀ op, PassesDrained s h (memQ [rd, rs1, rs2]) .amo va (2 ^ sz) true 6 pa mt →
      exec (.amo h op sz rd rs1 rs2) s = .next ((s.issuedDrained h (memQ [rd, rs1, rs2])).accGo (s.cyc h.core) h
        { op := .amo op, kind := 2, va := va, pa := pa, rd := rd, sgn := true, sz := sz, arg := x.getX rs2, issued := s.cyc h.core, raw := h.raw })) ∧
    (PassesDrained s h (memQ [rd, rs1]) .load va (2 ^ sz) true 4 pa mt →
      exec (.lr h sz rd rs1) s = .next ((s.issuedDrained h (memQ [rd, rs1])).accGo (s.cyc h.core) h
        { op := .lr, kind := 1, va := va, pa := pa, rd := rd, sgn := true, sz := sz, issued := s.cyc h.core, raw := h.raw })) ∧
    (PassesDrained s h (memQ [rd, rs1, rs2]) .store va (2 ^ sz) true 6 pa mt →
      exec (.sc h sz rd rs1 rs2) s = .next ((s.issuedDrained h (memQ [rd, rs1, rs2])).accGo (s.cyc h.core) h
        { op := .sc, kind := 2, va := va, pa := pa, rd := rd, sgn := true, sz := sz, arg := x.getX rs2, issued := s.cyc h.core, raw := h.raw })) ∧
    (PassesDrained s h (memQ [rs1]) .cbo va 64 true 0 pa mt →
      (k.cboOk h.ctx 6 1 = true →
        exec (.cboClean h rs1) s = .next ((s.issuedDrained h (memQ [rs1])).accGo (s.cyc h.core) h
          { op := .clean, kind := 3, va := va, pa := pa, rd := 0, issued := s.cyc h.core, raw := h.raw }) ∧
        exec (.cboFlush h rs1) s = .next ((s.issuedDrained h (memQ [rs1])).accGo (s.cyc h.core) h
          { op := .flush, kind := 3, va := va, pa := pa, rd := 0, issued := s.cyc h.core, raw := h.raw })) ∧
      (k.cboOk h.ctx 4 2 = true →
        exec (.cboInval h rs1) s = .next ((s.issuedDrained h (memQ [rs1])).accGo (s.cyc h.core) h
          { op := .flush, kind := 3, va := va, pa := pa, rd := 0, issued := s.cyc h.core, raw := h.raw }))) ∧
    (PassesDrained s h (memQ [rs1]) .store va 64 false 0 pa mt → k.cboOk h.ctx 7 1 = true →
      (mt = 0 → exec (.cboZero h rs1) s = .next ((s.issuedDrained h (memQ [rs1])).accGo (s.cyc h.core) h
        { op := .zero, kind := 3, va := va, pa := pa / 64 * 64, rd := 0, issued := s.cyc h.core, raw := h.raw })) ∧
      (mt = 2 → exec (.cboZero h rs1) s = .next ((s.issuedDrained h (memQ [rs1])).modCore h.core (fun k =>
        k.syncTrap (s.cyc h.core) h { cause := 7, tval := BitVec.ofNat 64 va } (s.cyc h.core + 3)))) ∧
      (mt = 1 → exec (.cboZero h rs1) s = .next (((s.issuedDrained h (memQ [rs1])).modCtx h.core h.ctx (fun x => x.hold_ (s.cyc h.core)
        { op := .zero, kind := 3, va := va, pa := pa / 64 * 64, rd := 0, issued := s.cyc h.core, raw := h.raw, stage := 2, dev := true })).ncSend
          (.core h.core h.ctx) .plain true (pa / 64 * 64) 64 0 false 3).2))

/-- R53, R99, R114, R118: For an access that the line's state serves: a load gives the line's bytes and changes no line; LR gives the sign-extended bytes
and leaves the line reserved; SC with a reservation writes its bytes, gives 0 and ends its own and every other reservation of the line, and without
one gives 1 and writes nothing; an AMO gives the old bytes, writes the operation's result and ends the others' reservations; a zero writes 64 zero
bytes. No access changes another line. -/
def Obligations.AccessesOfAHeldLine : Prop :=
  ∀ (k : Core) (t i v : Nat) (a : Acc) (l : L2Line), Tab.find k.l2 (a.pa / 64) = some l → a.op.servedBy l.st = true →
    (a.op = .load → (k.perform t i v a l).val = loadReg a.fp a.sz (lineLoad l.data a.pa a.sz a.sgn) ∧
      (k.perform t i v a l).core.l2 = k.l2 ∧ (k.perform t i v a l).core.l1d.contains (a.pa / 64) = true) ∧
    (a.op = .lr → (k.perform t i v a l).val = lineLoad l.data a.pa a.sz true ∧ (k.perform t i v a l).core.l2 = k.l2 ∧
      (k.perform t i v a l).core.reserved i (a.pa / 64) = true) ∧
    (a.op = .sc → k.reserved i (a.pa / 64) = true → (k.perform t i v a l).val = 0 ∧
      Tab.find (k.perform t i v a l).core.l2 (a.pa / 64) = some { l with data := lineStore l.data a.pa a.sz a.arg } ∧
      (∀ line, (k.perform t i v a l).core.reserved i line = false) ∧ ∀ j, (k.perform t i v a l).core.reserved j (a.pa / 64) = false) ∧
    (a.op = .sc → k.reserved i (a.pa / 64) = false → (k.perform t i v a l).val = 1 ∧ (k.perform t i v a l).core.l2 = k.l2 ∧
      ∀ line, (k.perform t i v a l).core.reserved i line = false) ∧
    (∀ op, a.op = .amo op → (k.perform t i v a l).val = lineLoad l.data a.pa a.sz true ∧
      Tab.find (k.perform t i v a l).core.l2 (a.pa / 64) =
        some { l with data := lineStore l.data a.pa a.sz (amoFn op a.sz (lineLoad l.data a.pa a.sz true) a.arg) } ∧
      ∀ j, j ≠ i → (k.perform t i v a l).core.reserved j (a.pa / 64) = false) ∧
    (a.op = .zero → Tab.find (k.perform t i v a l).core.l2 (a.pa / 64) = some { l with data := 0 } ∧
      ∀ j, j ≠ i → (k.perform t i v a l).core.reserved j (a.pa / 64) = false) ∧
    (∀ line, line ≠ a.pa / 64 → Tab.find (k.perform t i v a l).core.l2 line = Tab.find k.l2 line)

/-- R20, R21, R35: FENCE completes when the context's stores have drained and changes nothing but the pc; FENCE.I moreover restarts the fetch. A fetch
whose address translates and passes PMP and the window, with its line in the L1I, adds one block of 16 bytes to the buffer; a fetch whose translation
faults records the fault and stops the stream; with the buffer empty and the context at its boundary the recorded fault traps. -/
def Obligations.FetchAndFences : Prop :=
  (∀ (s : State) (h : Ins) (x : Ctx), x = s.ctx h.core h.ctx → (s.core h.core).drained h.ctx = true →
    (Issues s h { lane := 1, regs := [], mem := true, serial := true } →
      ∃ t, exec (.fence h) s = .next t ∧ LeavesCtx s t h { x with dwait := false } ∧
        (t.ctx h.core h.ctx).pc = x.pc + BitVec.ofNat 64 (insLen h) ∧ (t.ctx h.core h.ctx).nextIssue = s.cyc h.core + 2) ∧
    (Issues s h { lane := 0, regs := [], serial := true } →
      ∃ t, exec (.fenceI h) s = .next t ∧
        TransfersTo s t h (x.pc + BitVec.ofNat 64 (insLen h)) (s.core h.core) { x with dwait := false })) ∧
  (∀ (s : State) (core ctx : Nat) (pd : Predecode) (x : Ctx) (k : Core), x = s.ctx core ctx → k = s.core core →
    (∀ pa l, x.ffault = none → k.fetchOk (s.cyc core) ctx = true → s.xlate core ctx .fetch x.fnext = .ok pa 0 →
      k.pmpOk x.prv .fetch (pa / 16 * 16) 16 = true → s.physReason (s.corePart core) (pa / 16 * 16) 16 = none →
      Tab.find k.l2 (pa / 64) = some l → AccOp.fetch.servedBy l.st = true → k.l1i.contains (pa / 64) = true →
      ∃ t, exec (.instructionFetch core ctx pd .none) s = .next t ∧ SameBesideCore s t core ∧ SameOthers k (t.core core) ctx ∧
        t.ctx core ctx = x.block x.fnext (s.cyc core + 3) (s.cyc core + 2) pd ∧ SameBesidePipe { k with if1 := (t.core core).if1 } (t.core core)) ∧
    (∀ tr, x.ffault = none → k.fetchOk (s.cyc core) ctx = true → s.xlate core ctx .fetch x.fnext = .fault tr →
      ∃ t, exec (.instructionFetch core ctx pd .none) s = .next t ∧ t.ctx core ctx = { x with ffault := some tr, fstop := true }) ∧
    (∀ tr, x.ffault = some tr → x.fbuf = [] → x.acc = none → x.nextIssue ≤ s.cyc core → x.inflight ≤ s.cyc core → x.park = none →
      x.dfault = none → x.st = .active → k.runs = true →
      ∃ t, exec (.instructionFetch core ctx pd .none) s = .next t ∧ SameBesideCore s t core ∧ SameOthers k (t.core core) ctx ∧
        SameBesideFlow (x.trap false tr (s.cyc core + 2)) (t.ctx core ctx) ∧ (t.ctx core ctx).pc = (x.trap false tr (s.cyc core + 2)).pc))

/-- R20, R56, R57, R58, R94, R367: For every command that is a CSR instruction: an access the CSR does not permit takes an illegal-instruction trap; a
permitted one reads the CSR into rd and writes it by the instruction's operation where the RISC-V rules say that it writes. The FP CSRs need FS on and
the FP part in the slot; sxltinv and the posts wait for the stores to drain, sxltinv for BUSY clear, and an S-level post of a vector below 16 is
illegal. -/
def Obligations.CsrInstructions : Prop :=
  ∀ (s : State) (c : Instr) (h : Ins) (op : CsrOp) (csr rd src : Nat) (x : Ctx) (q : IssQ), CsrCommand c h op csr rd src → x = s.ctx h.core h.ctx →
    q = serialQ (csrSrcRegs op src ++ [rd]) → Issues s h q →
    (s.csrOk h.core h.ctx csr (csrWrites op src) = false → exec c s = .next ((s.issued h q).modCore h.core (fun k => k.illegal (s.cyc h.core) h))) ∧
    (s.csrOk h.core h.ctx csr (csrWrites op src) = true →
      (3 < csr → csr ≠ 0x5C6 → csr ≠ 0x7D4 → csr ≠ 0x5D4 → exec c s = .next (CsrResult s (s.issued h q) h op csr rd src)) ∧
      (csr ≤ 3 → x.fs ≠ 0 → x.fpHere = true → exec c s = .next (CsrResult s (s.issued h q) h op csr rd src)) ∧
      (csr = 0x5C6 ∨ csr = 0x7D4 ∨ csr = 0x5D4 → csrWrites op src = false →
        exec c s = .next (CsrResult s (s.issued h q) h op csr rd src)) ∧
      (csr = 0x5C6 ∨ csr = 0x7D4 ∨ csr = 0x5D4 → csrWrites op src = true → (s.core h.core).drained h.ctx = true →
        (csr = 0x5C6 → x.xbusy = false) → (csr = 0x5D4 → 16 ≤ bits (csrOperand op x src) 0 6) →
        exec c s = .next (CsrResult s (s.issuedDrained h q) h op csr rd src)) ∧
      (csr = 0x5D4 → csrWrites op src = true → bits (csrOperand op x src) 0 6 < 16 →
        exec c s = .next ((s.issued h q).modCore h.core (fun k => k.illegal (s.cyc h.core) h))))

/-- R38, R46, R56, R59, R61, R66, R67, R68, R76, R370: The scratch, trap-value, timer and interrupt-file registers read back as written; sepc and mepc
with bit 0 clear, the trap vectors with bit 1 clear, the delegation, cause, context-control and base registers with their writable bits. A legal size
list reads back and an illegal one leaves sxlt and records SIZE_LIST_INVALID. A write of the claim registers clears the pending bit of the vector the
claim shows; a write of mctxhold holds the named slot and takes it off the ready queue, or lets it go. A locked PMP entry keeps its configuration and
address. -/
def Obligations.CsrWritesReadBack : Prop :=
  ∀ (s : State) (c i : Nat) (v ones : W64),
    (∀ csr, csr ∈ [0x340, 0x140, 0x343, 0x143, 0x7C8, 0x7D0, 0x7D1, 0x14D] → (s.csrPut c i csr v ones).csrRead c i csr = some v) ∧
    (∀ csr, csr ∈ [0x341, 0x141] → (s.csrPut c i csr v ones).csrRead c i csr = some (setBits v 0 1 0)) ∧
    (∀ csr, csr ∈ [0x305, 0x105] → (s.csrPut c i csr v ones).csrRead c i csr = some (setBits v 1 1 0)) ∧
    (s.csrPut c i 0x302 v ones).csrRead c i 0x302 = some (v &&& 0x0F00B3FF) ∧
    (s.csrPut c i 0x303 v ones).csrRead c i 0x303 = some (v &&& 0x2222) ∧
    (s.csrPut c i 0x5C0 v ones).csrRead c i 0x5C0 = some (v &&& 1) ∧
    (s.csrPut c i 0x7C9 v ones).csrRead c i 0x7C9 = some (v &&& 0x103FF) ∧
    (∀ csr, csr ∈ [0x342, 0x142] → (s.csrPut c i csr v ones).csrRead c i csr = some (BitVec.ofNat 64 (bits v 0 5 + bits v 63 1 * 2 ^ 63))) ∧
    (s.csrPut c i 0x5C1 v ones).csrRead c i 0x5C1 = some (BitVec.ofNat 64 (bits v 0 17)) ∧
    (sizeListOk v = true → (s.csrPut c i 0x5C4 v ones).csrRead c i 0x5C4 = some v) ∧
    (sizeListOk v = false → (s.csrPut c i 0x5C4 v ones).csrRead c i 0x5C4 = s.csrRead c i 0x5C4 ∧
      ((s.csrPut c i 0x5C4 v ones).ctx c i).xreason = BitVec.ofNat 16 rXltSizeListInvalid) ∧
    (∀ n, (s.ctx c i).topVector true = some n → ((s.csrPut c i 0x7D2 v ones).ctx c i).ipend = setBit (s.ctx c i).ipend n false) ∧
    (∀ n, (s.ctx c i).topVector false = some n → ((s.csrPut c i 0x5D2 v ones).ctx c i).ipend = setBit (s.ctx c i).ipend n false) ∧
    (bit v 16 = true → ((s.csrPut c i 0x7C3 v ones).ctx c (bits v 0 10)).hold = true ∧
      ∀ n, n ∈ ((s.csrPut c i 0x7C3 v ones).core c).readyQ → n ≠ bits v 0 10) ∧
    (bit v 16 = false → ((s.csrPut c i 0x7C3 v ones).ctx c (bits v 0 10)).hold = false) ∧
    (∀ n, n < 16 → bit (Tab.get 0 (s.core c).pmpcfg n) 7 = true →
      (s.csrPut c i (0x3B0 + n) v ones).csrRead c i (0x3B0 + n) = s.csrRead c i (0x3B0 + n) ∧
      Tab.get 0 ((s.csrPut c i (if n < 8 then 0x3A0 else 0x3A2) v ones).core c).pmpcfg n = Tab.get 0 (s.core c).pmpcfg n)

/-- R20, R28, R56, R59: ECALL traps with cause 8 plus the mode's code and EBREAK with cause 3, both with tval 0. MRET in M-mode, and SRET in M-mode or in
S-mode with TSR = 0, return; WFI in M-mode or in S-mode with TW = 0 completes and parks the context to IDLE where no enabled interrupt is pending. In
the other modes each takes an illegal-instruction trap with the instruction's bits. Nothing else changes. -/
def Obligations.TrapsAndReturns : Prop :=
  ∀ (s : State) (h : Ins) (x : Ctx) (t0 : Nat), x = s.ctx h.core h.ctx → t0 = s.cyc h.core →
    (Issues s h (serialQ []) →
      (∃ t, exec (.ecall h) s = .next t ∧ TrapsTo s t h { cause := 8 + x.prv.code, tval := 0 } (t0 + 2)) ∧
      (∃ t, exec (.ebreak h) s = .next t ∧ TrapsTo s t h { cause := 3, tval := 0 } (t0 + 2)) ∧
      (x.prv = .m →
        ∃ t, exec (.mret h) s = .next t ∧ LeavesCtx s t h (x.mret (t0 + 2)) ∧ (t.ctx h.core h.ctx).pc = x.mepc ∧ (t.ctx h.core h.ctx).fmin = t0 + 2) ∧
      (x.prv ≠ .m → ∃ t, exec (.mret h) s = .next t ∧ TrapsTo s t h { cause := 2, tval := h.raw.zeroExtend 64 } (t0 + 2)) ∧
      (x.prv = .m ∨ x.prv = .s ∧ bit x.mstatus 22 = false →
        ∃ t, exec (.sret h) s = .next t ∧ LeavesCtx s t h (x.sret (t0 + 2)) ∧ (t.ctx h.core h.ctx).pc = x.sepc ∧ (t.ctx h.core h.ctx).fmin = t0 + 2) ∧
      (x.prv = .u ∨ x.prv = .s ∧ bit x.mstatus 22 = true →
        ∃ t, exec (.sret h) s = .next t ∧ TrapsTo s t h { cause := 2, tval := h.raw.zeroExtend 64 } (t0 + 2)) ∧
      (x.prv = .m ∨ x.prv = .s ∧ bit x.mstatus 21 = false →
        ((s.core h.core).intPend h.ctx = true →
          ∃ t, exec (.wfi h) s = .next t ∧ TransfersTo s t h (x.pc + BitVec.ofNat 64 (insLen h)) (s.core h.core) x) ∧
        ((s.core h.core).intPend h.ctx = false →
          ∃ t, exec (.wfi h) s = .next t ∧
            TransfersTo s t h (x.pc + BitVec.ofNat 64 (insLen h)) (s.core h.core) { x with park := some { dest := .idle, trig := t0 } })) ∧
      (x.prv = .u ∨ x.prv = .s ∧ bit x.mstatus 21 = true →
        ∃ t, exec (.wfi h) s = .next t ∧ TrapsTo s t h { cause := 2, tval := h.raw.zeroExtend 64 } (t0 + 2))) ∧
    (Issues s h { lane := 0, regs := [] } →
      ∃ t, exec (.illegalInstruction h) s = .next t ∧ TrapsTo s t h { cause := 2, tval := h.raw.zeroExtend 64 } (t0 + 2))

/-- R45, R56, R58, R59, R370: A trap that is not delegated goes to M: mepc, mcause and mtval are set, MPIE takes MIE, MIE clears, MPP holds the old mode,
every other status bit and the S registers stay; a delegated one below M goes to S in the same way with SPIE, SIE and SPP. A bus error's reason and
DEF go to sbuserr, and no other trap changes it. MRET restores the mode of MPP and MIE from MPIE, sets MPIE, clears MPP, and clears MPRV unless it
returns to M; SRET does so from SPP and SPIE and clears MPRV. -/
def Obligations.TrapEntryAndReturn : Prop :=
  ∀ (x : Ctx) (b : Bool) (tr : Trap) (a : Nat),
    (x.prv = .m ∨ bit (if b then x.mideleg else x.medeleg) tr.cause = false →
      (x.trap b tr a).prv = .m ∧ (x.trap b tr a).mepc = x.pc ∧ (x.trap b tr a).mcause = causeByte b tr.cause ∧ (x.trap b tr a).mtval = tr.tval ∧
      (x.trap b tr a).pc = trapTarget x.mtvec b tr.cause ∧ bit (x.trap b tr a).mstatus 7 = bit x.mstatus 3 ∧
      bit (x.trap b tr a).mstatus 3 = false ∧ bits (x.trap b tr a).mstatus 11 2 = x.prv.code ∧
      (∀ n, n ≠ 3 → n ≠ 7 → n ≠ 11 → n ≠ 12 → bit (x.trap b tr a).mstatus n = bit x.mstatus n) ∧
      (x.trap b tr a).sepc = x.sepc ∧ (x.trap b tr a).scause = x.scause ∧ (x.trap b tr a).stval = x.stval) ∧
    (x.prv ≠ .m → bit (if b then x.mideleg else x.medeleg) tr.cause = true →
      (x.trap b tr a).prv = .s ∧ (x.trap b tr a).sepc = x.pc ∧ (x.trap b tr a).scause = causeByte b tr.cause ∧ (x.trap b tr a).stval = tr.tval ∧
      (x.trap b tr a).pc = trapTarget x.stvec b tr.cause ∧ bit (x.trap b tr a).mstatus 5 = bit x.mstatus 1 ∧
      bit (x.trap b tr a).mstatus 1 = false ∧ bit (x.trap b tr a).mstatus 8 = decide (x.prv = .s) ∧
      (∀ n, n ≠ 1 → n ≠ 5 → n ≠ 8 → bit (x.trap b tr a).mstatus n = bit x.mstatus n) ∧
      (x.trap b tr a).mepc = x.mepc ∧ (x.trap b tr a).mcause = x.mcause ∧ (x.trap b tr a).mtval = x.mtval) ∧
    (b = false → tr.cause = 1 ∨ tr.cause = 5 ∨ tr.cause = 7 ∨ tr.cause = 26 →
      (x.trap b tr a).sbuserr = BitVec.ofNat 16 tr.reason ∧ (x.trap b tr a).sbd = tr.dfr) ∧
    (b = true ∨ (tr.cause ≠ 1 ∧ tr.cause ≠ 5 ∧ tr.cause ≠ 7 ∧ tr.cause ≠ 26) →
      (x.trap b tr a).sbuserr = x.sbuserr ∧ (x.trap b tr a).sbd = x.sbd) ∧
    ((x.mret a).prv = Prv.ofCode (bits x.mstatus 11 2) ∧ (x.mret a).pc = x.mepc ∧ bit (x.mret a).mstatus 3 = bit x.mstatus 7 ∧
      bit (x.mret a).mstatus 7 = true ∧ bits (x.mret a).mstatus 11 2 = 0 ∧
      bit (x.mret a).mstatus 17 = (decide (bits x.mstatus 11 2 = 3) && bit x.mstatus 17)) ∧
    ((x.sret a).prv = (if bit x.mstatus 8 then Prv.s else Prv.u) ∧ (x.sret a).pc = x.sepc ∧ bit (x.sret a).mstatus 1 = bit x.mstatus 5 ∧
      bit (x.sret a).mstatus 5 = true ∧ bit (x.sret a).mstatus 8 = false ∧ bit (x.sret a).mstatus 17 = false)

/-- R20, R39, R48, R49, R51, R93: YIELD completes and parks to READY where another context is ready; EXIT empties its record, slot and reservation; SLEEP
takes a wake token, or completes where the deadline has passed, or parks to SLEEP with it; WAKE sends a WAKE to the core of the named context of this
package; WAIT takes a wake token, or parks to WAIT on a watched line; SPAWN with no slot asked waits for the reply of the SPAWN it sends; SFENCE.VMA
removes the named TLB entries of the core and discards its walks. The order of a SPAWN's words is a DESIGN CHOICE (log 11). -/
def Obligations.ContextInstructions : Prop :=
  ∀ (s : State) (h : Ins) (rd rs1 rs2 : Nat) (x : Ctx) (k : Core) (t0 : Nat) (next : W64), x = s.ctx h.core h.ctx → k = s.core h.core →
    t0 = s.cyc h.core → next = x.pc + BitVec.ofNat 64 (insLen h) →
    (Issues s h (serialQ []) →
      (k.readyQ = [] → ∃ t, exec (.ctxYield h) s = .next t ∧ TransfersTo s t h next k x) ∧
      (k.readyQ ≠ [] → ∃ t, exec (.ctxYield h) s = .next t ∧ TransfersTo s t h next k { x with park := some { dest := .ready, trig := t0 } }) ∧
      (k.ctxOk h.ctx = true → k.drained h.ctx = true →
        ∃ t, exec (.ctxExit h) s = .next t ∧ t.ctx h.core h.ctx = {} ∧ SameOthers k (t.core h.core) h.ctx ∧
          (∀ d, d ≠ h.core → t.core d = s.core d) ∧ (t.core h.core).slotOf h.ctx = none ∧ (t.core h.core).reserved h.ctx = fun _ => false)) ∧
    (Issues s h (serialQ [rs1]) →
      (x.wtok = true → ∃ t, exec (.ctxSleep h rs1) s = .next t ∧ TransfersTo s t h next k { x with wtok := false }) ∧
      (x.wtok = false → (x.getX rs1).toNat ≤ s.time → ∃ t, exec (.ctxSleep h rs1) s = .next t ∧ TransfersTo s t h next k x) ∧
      (x.wtok = false → s.time < (x.getX rs1).toNat → ∃ t, exec (.ctxSleep h rs1) s = .next t ∧
        TransfersTo s t h next k { x with park := some { dest := .sleep, trig := t0, deadline := (x.getX rs1).toNat } }) ∧
      (∀ c i, k.ctxOk h.ctx = true → k.drained h.ctx = true → (x.getX rs1).toNat < 2 ^ 21 → hartParts (x.getX rs1).toNat = some (s.pkg, c, i) →
        ∃ t, exec (.ctxWake h rs1) s = .next t ∧ TransfersTo s { t with fab := s.fab } h next k { x with dwait := false } ∧
          t.fab = { s.fab with net := s.fab.net ++ [{ kind := .wake, core := c, tag := i, part := (s.corePart h.core).getD 0, pkg := s.pkg
                                                      at_ := s.fcyc + 7 }] }) ∧
      (∀ pa mt, (s.issued h (serialQ [rs1])).check t0 h x .load (x.getX rs1).toNat 1 false 0 = .ok pa mt → x.wtok = true →
        ∃ t, exec (.ctxWait h rs1) s = .next t ∧ TransfersTo s t h next k { x with wtok := false }) ∧
      (∀ pa l, (s.issued h (serialQ [rs1])).check t0 h x .load (x.getX rs1).toNat 1 false 0 = .ok pa 0 → x.wtok = false →
        (∀ r ∈ k.resv, r.ctx = h.ctx → r.line ≠ pa / 64) → k.watch.length < 256 → Tab.find k.l2 (pa / 64) = some l →
        AccOp.watch.servedBy l.st = true →
        ∃ t, exec (.ctxWait h rs1) s = .next t ∧ (t.ctx h.core h.ctx).park = some { dest := .wait, trig := t0 } ∧ (t.ctx h.core h.ctx).pc = next ∧
          (∃ w ∈ (t.core h.core).watch, w.line = pa / 64 ∧ h.ctx ∈ w.ctxs) ∧ SameBesideCore s t h.core ∧
          SameBesideFlow { x with park := some { dest := .wait, trig := t0 } } (t.ctx h.core h.ctx))) ∧
    (Issues s h (serialQ [rd, rs1, rs2]) → k.ctxOk h.ctx = true → x.getX rs2 = -1 →
      ∃ t, exec (.ctxSpawn h rd rs1 rs2) s = .next t ∧ LeavesCtx s { t with fab := s.fab } h { x with spawnRd := some (rd + 32 * s.pkg) } ∧
        t.fab = { s.fab with net := s.fab.net ++ [{ kind := .spawn, core := h.core, tag := s.hartid h.core h.ctx
                                                    part := (s.corePart h.core).getD 0, pkg := s.pkg, flag := true
                                                    words := x.spawnWords (x.getX rs1), at_ := s.fcyc + 7 }] }) ∧
    (Issues s h (serialQ [rs1, rs2]) → k.drained h.ctx = true → x.prv = .m ∨ x.prv = .s ∧ bit x.mstatus 20 = false →
      exec (.sfenceVma h rs1 rs2) s = .next ((s.issuedDrained h (serialQ [rs1, rs2])).modCore h.core (fun k =>
        ((k.tlbInval (s.tlbPart h.core) (if rs1 = 0 then none else some (x.getX rs1).toNat)
          (if rs2 = 0 then none else some (bits (x.getX rs2) 0 16))).discardWalks t0).serialDone t0 h none id)))

/-- R39, R40, R41, R42, R44, R45, R369: A triggered park writes the record in 6 or 12 cycles and frees the slot; an active context that is held parks to
READY; the head of the ready queue unparks into a free slot and is eligible six cycles later; a context past its quantum parks to READY at its
boundary; a fill with data writes the parked record's register, moves its pc and makes it READY; a bus error leaves its reason and BERR; a deferred
store error leaves kind 5, its address and reason; a pending enabled interrupt traps the context at its boundary and ends its reservation. -/
def Obligations.ContextParksAndFills : Prop :=
  ∀ (s : State) (c i slot : Nat) (x : Ctx) (k : Core) (t0 : Nat), x = s.ctx c i → k = s.core c → t0 = s.cyc c →
    (∀ p, k.slotOf i = some slot → x.park = some p → x.st = .active → k.clockOn = true → p.trig < t0 → x.inflight < t0 → k.wrEnd ≤ t0 →
      k.chg ≤ t0 →
      ∃ t, exec (.contextPark c i) s = .next t ∧ SameBesideCore s t c ∧ t.core c = k.park t0 i slot p ∧ (t.core c).slots = k.slots.set slot none ∧
        (t.core c).wrEnd = t0 + (if x.fpDirty then 12 else 6)) ∧
    (k.slotOf i = some slot → x.park = none → x.hold = true → k.atBoundary i t0 = true → x.facc = none → x.st = .active → k.clockOn = true → 0 < t0 →
      k.wrEnd ≤ t0 → k.chg ≤ t0 →
      exec (.contextPark c i) s = .next (s.setCore c (k.park t0 i slot { dest := .ready, trig := t0 - 1 }))) ∧
    (∀ rest, k.readyQ = i :: rest → k.runs = true → slot < 8 → k.slots.getD slot none = none → k.rdEnd ≤ t0 → k.chg ≤ t0 →
      Tab.get 0 k.slotEnd slot ≤ t0 → x.dfault = none → x.runAt ≤ t0 → x.berr = false →
      ∃ t, exec (.contextUnpark c slot) s = .next t ∧ SameBesideCore s t c ∧ SameOthers k (t.core c) i ∧ (t.ctx c i).st = .active ∧
        (t.ctx c i).runAt = max (t0 + 6) (Tab.get 0 k.slotEnd slot) ∧ (t.ctx c i).pc = x.pc ∧ (t.ctx c i).x = x.x ∧ (t.ctx c i).f = x.f ∧
        (t.core c).slots = k.slots.set slot (some i) ∧ (t.core c).readyQ = k.readyQ.filter (· != i)) ∧
    (bits k.mctxctl 8 8 ≠ 0 → x.st = .active → x.since + bits k.mctxctl 8 8 * 256 ≤ t0 → k.readyQ ≠ [] → k.atBoundary i t0 = true →
      x.facc = none → k.runs = true → exec (.quantumExpiry c i) s = .next (s.modCtx c i (fun x => x.trigger .ready t0))) ∧
    (∀ f, k.fillFor i = some f → f.status = 0 → x.st = .miss → x.pact = true → k.recFree t0 i = true → x.pkind ≤ 2 →
      ∃ t, exec (.recordFill c i) s = .next t ∧ SameBesideCore s t c ∧ (t.ctx c i).st = .ready ∧ (t.ctx c i).pact = false ∧
        (t.ctx c i).pc = x.pc + (if x.pc2 then 2 else 4) ∧ (x.pfp = false → (t.ctx c i).x = (x.setX x.prd f.val).x ∧ (t.ctx c i).f = x.f) ∧
        (x.pfp = true → (t.ctx c i).f = Tab.put 0 x.f x.prd f.val ∧ (t.ctx c i).x = x.x ∧ bits (t.ctx c i).mstatus 13 2 = 3)) ∧
    (∀ f, k.fillFor i = some f → f.status ≠ 0 → x.dfault = none → x.st = .miss → k.recFree t0 i = true →
      ∃ t, exec (.recordBusError c i) s = .next t ∧ SameBesideCore s t c ∧ (t.ctx c i).st = .ready ∧ (t.ctx c i).berr = true ∧
        (t.ctx c i).preason = BitVec.ofNat 16 f.status ∧ (t.ctx c i).pkind = x.pkind ∧ (t.ctx c i).pc = x.pc ∧ (t.ctx c i).x = x.x) ∧
    (∀ d va r, x.dfault = some (d, va, r) → k.recFree t0 i = true → x.st = .wait ∨ x.st = .sleep ∨ x.st = .idle →
      ∃ t, exec (.parkedStoreError c i) s = .next t ∧ SameBesideCore s t c ∧ (t.ctx c i).st = .ready ∧ (t.ctx c i).berr = true ∧
        (t.ctx c i).pkind = 5 ∧ (t.ctx c i).preason = BitVec.ofNat 16 r ∧ (t.ctx c i).pva = va.truncate 48 ∧ (t.ctx c i).dfault = none) ∧
    (∀ n, k.pickInt i = some n → x.st = .active → k.runs = true → (k.slotOf i).isSome = true → k.atBoundary i t0 = true → x.dfault = none →
      x.runAt ≤ t0 → x.nextIssue ≤ t0 →
      ∃ t, exec (.interruptTaken c i) s = .next t ∧ SameBesideCore s t c ∧ SameOthers k (t.core c) i ∧
        SameBesideFlow { x.trap true { cause := n, tval := 0 } (t0 + 2) with dwait := false } (t.ctx c i) ∧
        (t.ctx c i).pc = (x.trap true { cause := n, tval := 0 } (t0 + 2)).pc ∧ (t.core c).resv = k.resv.filter (fun r => r.ctx != i))

/-- R39, R48, R51, R66: A WAKE of the core's own partition makes a waiting, sleeping or idle context READY and gives an active, ready or missing one its
wake token; of another partition, or of an EMPTY context, it does nothing. A SPAWN takes a free slot, writes its record, queues it and answers its
number; with no slot free it answers -1. The reply lands in the waiting context's register and its pc moves on. An expired heap entry wakes a sleeping
context or sets STIP; the compares set MTIP and STIP to what their registers and the time say. -/
def Obligations.WakesSpawnsAndTimers : Prop :=
  ∀ (s : State) (c i : Nat) (k : Core) (t0 : Nat), k = s.core c → t0 = s.cyc c →
    (∀ m, s.arrived (fun m => m.kind == .wake && m.core == c) = some m → s.corePart c = some m.part → (k.ctx m.tag).st ≠ .empty →
      ∃ t, exec (.wakeDelivery c) s = .next t ∧ SameBesideCore (s.takeMsg m) t c ∧ SameOthers k (t.core c) m.tag ∧
        ((k.ctx m.tag).st = .wait ∨ (k.ctx m.tag).st = .sleep ∨ (k.ctx m.tag).st = .idle → t.ctx c m.tag = { k.ctx m.tag with st := .ready }) ∧
        ((k.ctx m.tag).st = .active ∨ (k.ctx m.tag).st = .ready ∨ (k.ctx m.tag).st = .miss → t.ctx c m.tag = { k.ctx m.tag with wtok := true })) ∧
    (∀ m, s.arrived (fun m => m.kind == .wake && m.core == c) = some m → s.corePart c ≠ some m.part ∨ (k.ctx m.tag).st = .empty →
      ∃ t, exec (.wakeDelivery c) s = .next t ∧ SameBesideCore (s.takeMsg m) t c ∧ ∀ j, t.ctx c j = s.ctx c j) ∧
    (∀ m c' i', s.arrived (fun m => m.kind == .spawn && m.core == c) = some m → m.flag = true → k.emptySlot = some i → s.corePart c = some m.part →
      s.dieOut (dieOf c) = false → k.rst = false → s.fget .pwrStatusHosthold ≠ 1 → hartParts m.tag = some (s.pkg, c', i') →
      ∃ t, exec (.spawnRequest c) s = .next t ∧ SameOthers k (t.core c) i ∧ t.ctx c i = spawned m.words (s.hartid c i) m.tag ∧
        i ∈ (t.core c).readyQ ∧ (∀ d, d ≠ c → t.core d = s.core d) ∧ { t with cores := s.cores, fab := s.fab } = s ∧
        t.fab = { s.fab with net := s.fab.net.erase m ++ [{ kind := .spawnRsp, core := c', tag := i', val := BitVec.ofNat 64 (s.hartid c i)
                                                            part := m.part, pkg := s.pkg, at_ := s.fcyc + 7 }] }) ∧
    (∀ m c' i', s.arrived (fun m => m.kind == .spawn && m.core == c) = some m → m.flag = true → k.emptySlot = none →
      hartParts m.tag = some (s.pkg, c', i') →
      ∃ t, exec (.spawnRequest c) s = .next t ∧ { t with fab := s.fab } = s ∧
        t.fab = { s.fab with net := s.fab.net.erase m ++ [{ kind := .spawnRsp, core := c', tag := i', val := -1, part := m.part, pkg := s.pkg
                                                            at_ := s.fcyc + 7 }] }) ∧
    (∀ m rd, s.arrived (fun m => m.kind == .spawnRsp && m.core == c) = some m → (k.ctx m.tag).spawnRd = some rd →
      ∃ t, exec (.spawnResponse c) s = .next t ∧ SameBesideCore (s.takeMsg m) t c ∧ SameOthers k (t.core c) m.tag ∧
        SameBesideFlow { (k.ctx m.tag).setX (rd % 32) m.val with spawnRd := none } (t.ctx c m.tag) ∧ (t.ctx c m.tag).pc = (k.ctx m.tag).pc + 4) ∧
    (∀ e, heapFirst k.heap s.time = some e →
      ∃ t, exec (.deadlineExpiry c) s = .next t ∧ SameBesideCore s t c ∧ SameOthers k (t.core c) e.ctx ∧
        (e.timer = true → (t.ctx c e.ctx).stip = bit k.menvcfg 63) ∧
        (e.timer = false → (k.ctx e.ctx).st = .sleep → t.ctx c e.ctx = { k.ctx e.ctx with st := .ready }) ∧
        (e.timer = false → (k.ctx e.ctx).st ≠ .sleep → t.ctx c e.ctx = k.ctx e.ctx ∧ (t.core c).heap = k.heap.erase e)) ∧
    (∃ t, exec (.mtimerCompare c) s = .next t ∧ SameBesideCore s t c ∧
      (t.core c).mtip = (if bit k.mtmrctl 16 && decide (k.mtmrcmp.toNat ≤ s.time) then some (bits k.mtmrctl 0 10) else none) ∧
      SameOthers k (t.core c) (bits k.mtmrctl 0 10)) ∧
    ((k.ctx i).st ≠ .empty →
      ∃ t, exec (.stimerCompare c i) s = .next t ∧ SameBesideCore s t c ∧ SameOthers k (t.core c) i ∧
        (t.ctx c i).stip = (bit k.menvcfg 63 && decide ((k.ctx i).stimecmp.toNat ≤ s.time)))

/-- R43, R100, R104, R111, R114, R115, R142, R143, R374: A miss not yet sent allocates its line and sends RD_S or RD_M, or sends UPG from S, or drops an S
copy and sends AMO_H; the request carries its fields to the egress queue. The die launches the queue's pick, uses a credit of its slice and partition
and keeps the high-water mark; a credit that returns frees it. A LONG hint for the one active context's line parks it to MISS with what its access
needs, and so does a held fetch hint. A held snoop is answered once the line's access has been performed. -/
def Obligations.MissesAndHints : Prop :=
  (∀ (s : State) (c line : Nat) (k : Core) (m : Miss), k = s.core c → k.miss.find? (fun m => m.line == line && !m.sent && decide (m.found ≤ s.cyc c)) = some m →
    (∀ e ∈ k.evb, e.line ≠ line) →
    (∀ w, Tab.find k.l2 line = none → m.req = .rdS ∨ m.req = .rdM → k.freeL2Way line = some w →
      exec (.l2MissRequest c line) s = .next ((s.modCore c (fun k => k.setL2 line { st := if m.req = .rdS then .is else .im, way := w, performed := false })).request c m m.req w)) ∧
    (Tab.find k.l2 line = none → m.req = .amoH → exec (.l2MissRequest c line) s = .next (s.request c m .amoH 0)) ∧
    (∀ l, Tab.find k.l2 line = some l → l.st = .s → m.req = .upg →
      exec (.l2MissRequest c line) s = .next ((s.modCore c (fun k => k.setL2 line { l with st := .sm })).request c m .upg l.way)) ∧
    (∀ l, Tab.find k.l2 line = some l → l.st = .s → m.req = .amoH →
      exec (.l2MissRequest c line) s = .next ((s.modCore c (fun k => k.loseLine (s.cyc c) line)).request c m .amoH l.way))) ∧
  (∀ (s : State) (c way : Nat) (m : Miss) (kind : MsgKind), ∃ r : Msg,
    r = { kind := kind, line := m.line, core := c, tag := s.hartid c m.ctx, part := (s.corePart c).getD 0, slice := sliceOf m.line, pkg := s.pkg
          way := way, flag := m.zero, far := m.far, at_ := s.fcyc } ∧
    (s.request c m kind way).fab = { s.fab with egress := s.fab.egress ++ [r] } ∧
    (s.core c).miss.map (fun n => if n = m then { n with sent := true, req := kind } else n) = ((s.request c m kind way).core c).miss) ∧
  (∀ (s : State) (d : Nat) (m : Msg), pickQueue (s.launchable d) (Tab.get 0 s.fab.eptr d) = some m → m.kind ≠ .amoH →
    ∃ t, exec (.requestLaunch d) s = .next t ∧ t.used d m.part m.slice = s.used d m.part m.slice + 1 ∧
      t.fab.net = s.fab.net ++ [{ m with at_ := s.fcyc + 3 }] ∧ t.fab.egress = s.fab.egress.erase m ∧
      t.fget .cdCrgrantMaxuse d m.part = max (s.fget .cdCrgrantMaxuse d m.part) (s.used d m.part m.slice + 1) % 8192 ∧ t.cores = s.cores) ∧
  (∀ (s : State) (d : Nat) (m : Msg), s.arrived (fun m => m.kind == .credit && dieOf m.core == d) = some m →
    ∃ t, exec (.creditReturn d) s = .next t ∧ t.used d m.part m.slice = s.used d m.part m.slice - 1 ∧ t.fab.net = s.fab.net.erase m ∧
      { t with fab := s.fab } = s) ∧
  (∀ (s : State) (c : Nat) (m : Msg), s.arrived (fun m => m.kind == .long && m.core == c) = some m →
    (∀ i x a, (s.core c).slots.filterMap id = [i] → x = s.ctx c i → x.st = .active → x.park = none → x.acc = some a → a.pa / 64 = m.line →
      a.dev = false → a.stage = 2 → a.long = false →
      ∃ t, exec (.longHint c) s = .next t ∧ SameOthers (s.core c) (t.core c) i ∧
        (t.ctx c i).park = some { dest := .miss, trig := s.cyc c } ∧ (t.ctx c i).pkind = a.kind ∧ (t.ctx c i).pact = true ∧
        (t.ctx c i).prd = a.rd ∧ (t.ctx c i).pva = BitVec.ofNat 48 a.va ∧ (t.ctx c i).x = x.x ∧ (t.ctx c i).pc = x.pc)) ∧
  (∀ (s : State) (c i : Nat) (a : Acc) (x : Ctx), x = s.ctx c i → x.facc = some a → x.heldHint = true → x.st = .active → x.park = none → x.acc = none →
    x.iss + 2 ≤ s.cyc c →
    ∃ t, exec (.heldFetchHint c i) s = .next t ∧ SameOthers (s.core c) (t.core c) i ∧ (t.ctx c i).park = some { dest := .miss, trig := s.cyc c } ∧
      (t.ctx c i).pkind = a.kind ∧ (t.ctx c i).pact = true ∧ (t.ctx c i).heldHint = false ∧ (t.ctx c i).pc = x.pc) ∧
  (∀ (s : State) (c line : Nat) (l : L2Line) (m : Msg) (rest : List Msg), Tab.find (s.core c).l2 line = some l → l.held = m :: rest →
    l.performed = true → l.st = .s ∨ l.st = .m ∨ l.st = .sm →
    exec (.heldSnoopAnswer c line) s =
      .next ((s.setCore c ((s.core c).setL2 line { l with held := rest })).takeSnoop c line (decide (m.kind = .snpInv)) m))

/-- R99, R100, R103, R107, R108, R110, R116: DATA_S with success leaves the line in S with the message's data and with a failure drops it; DATA_M and
ACK_UPG leave it in M; AMO_RET completes the waiting AMO with the old value; WB_ACK and EVC_ACK free the eviction buffer. A snoop of a line the L2
does not hold is answered SNP_ACK; of a line in S SNP_ACK; of a performed line in M SNP_DATA with its data; SNP_INV leaves no copy and SNP_SHD one in
S. Which of equal free choices is taken is an open value (log 44). -/
def Obligations.CoherenceAtTheL2 : Prop :=
  ∀ (s : State) (c : Nat) (m : Msg) (k : Core), k = s.core c →
    (s.arrived (fun m => m.kind == .dataS && m.core == c) = some m → k.fills.length < 32 → k.l2St m.line = some .is →
      (m.status = 0 → ∃ t l, exec (.dataS c .none) s = .next t ∧ SameBesideCore { s.takeMsg m with free := s.free + 1 } t c ∧
        Tab.find (t.core c).l2 m.line = some l ∧ l.st = .s ∧ l.data = m.data) ∧
      (m.status ≠ 0 → ∃ t, exec (.dataS c .none) s = .next t ∧ SameBesideCore (s.takeMsg m) t c ∧ Tab.find (t.core c).l2 m.line = none)) ∧
    (∀ l0, s.arrived (fun m => m.kind == .dataM && m.core == c) = some m → k.fills.length < 32 → Tab.find k.l2 m.line = some l0 →
      l0.st = .im ∨ l0.st = .sm → m.status = 0 →
      ∃ t l, exec (.dataM c) s = .next t ∧ SameBesideCore { s.takeMsg m with free := s.free + 1 } t c ∧
        Tab.find (t.core c).l2 m.line = some l ∧ l.st = .m ∧ (k.waiting m.line = [] → l.data = if m.hasData then m.data else 0)) ∧
    (∀ l0, s.arrived (fun m => m.kind == .ackUpg && m.core == c) = some m → Tab.find k.l2 m.line = some l0 → l0.st = .sm →
      ∃ t l, exec (.ackUpg c) s = .next t ∧ SameBesideCore { s.takeMsg m with free := s.free + 1 } t c ∧
        Tab.find (t.core c).l2 m.line = some l ∧ l.st = .m ∧ (k.waiting m.line = [] → l.data = l0.data)) ∧
    (∀ n a op, s.arrived (fun m => m.kind == .amoRet && m.core == c) = some m →
      k.miss.find? (fun n => n.line == m.line && n.sent && n.req == .amoH) = some n → n.walker = none → (k.ctx n.ctx).acc = some a →
      a.pa / 64 = m.line → a.dev = false → a.op = .amo op → a.fp = false → m.status = 0 → (k.ctx n.ctx).inSlot a = true →
      ∃ t, exec (.amoRet c) s = .next t ∧ SameBesideCore (s.takeMsg m) t c ∧ SameOthers k (t.core c) n.ctx ∧ (t.ctx c n.ctx).acc = none ∧
        (t.ctx c n.ctx).x = ((k.ctx n.ctx).setX a.rd m.val).x ∧ (t.ctx c n.ctx).pc = (k.ctx n.ctx).pc + BitVec.ofNat 64 (if a.rvc then 2 else 4)) ∧
    (s.arrived (fun m => m.kind == .wbAck && m.core == c) = some m →
      k.miss.find? (fun n => n.line == m.line && n.sent && n.req == .wb) = none →
      ∃ t, exec (.wbAck c) s = .next t ∧ SameBesideCore (s.takeMsg m) t c ∧
        t.core c = { k with evb := k.evb.filter (fun e => e.line != m.line) }) ∧
    (s.arrived (fun m => m.kind == .evcAck && m.core == c) = some m →
      ∃ t, exec (.evcAck c) s = .next t ∧ SameBesideCore (s.takeMsg m) t c ∧
        t.core c = { k with evb := k.evb.filter (fun e => e.line != m.line) }) ∧
    (∀ inv, s.arrived (fun m => m.kind == (if inv then .snpInv else .snpShd) && m.core == c) = some m → m.flag = false →
      (∀ e ∈ k.evb, e.line ≠ m.line) →
      ∃ t a, exec (if inv then .snpInv c else .snpShd c) s = .next t ∧ (∀ j, j ≠ c → t.core j = s.core j) ∧
        a.line = m.line ∧ a.core = c ∧
        (Tab.find k.l2 m.line = none → t.fab.net = s.fab.net.erase m ++ [a] ∧ a.kind = .snpAck ∧ a.flag = false) ∧
        (∀ l, Tab.find k.l2 m.line = some l → l.st = .s → t.fab.net = s.fab.net.erase m ++ [a] ∧ a.kind = .snpAck ∧ a.flag = !inv ∧
          (t.core c).l2St m.line = if inv then none else some .s) ∧
        (∀ l, Tab.find k.l2 m.line = some l → l.st = .m → l.performed = true → t.fab.net = s.fab.net.erase m ++ [a] ∧ a.kind = .snpData ∧
          a.data = l.data ∧ a.flag = !inv ∧ (t.core c).l2St m.line = if inv then none else some .s))

/-- R70, R71, R72, R73, R139: An event of an enabled edge route sends DELIVER to the target's core, to arrive four F-cycles on, and sets SENT, or sets
PEND where SENT is set; a disabled route does nothing. A DELIVER to a context that is not EMPTY sets its pending bit. A COMPLETE clears SENT of the
one edge route it matches. Enabling a route that passes its check sets its fields and changes no other route; one that fails leaves it disabled with
NOT_PERMITTED and its number. A doorbell write that names a message route fires it. -/
def Obligations.InterruptRouting : Prop :=
  ∀ (s : State),
    (∀ r c i, levelRoute r = false → r < 428 → s.fget .irtRouteEn r ≠ 0 → s.fget .irtRouteSent r = 0 → s.member s.pkg = true →
      hartParts (s.fget .irtRouteTarget r) = some (s.pkg, c, i) →
      ∃ t, exec (.routeEvent r true) s = .next t ∧ t.fget .irtRouteSent r = 1 ∧ { t with cs := s.cs, fab := s.fab } = s ∧
        t.fab = { s.fab with net := s.fab.net ++ [{ kind := .deliver, core := c, tag := i, arg := s.fget .irtRouteVector r + 64 * r
                                                    part := s.fget .irtRoutePart r, pkg := s.pkg, at_ := s.fcyc + 4 }] }) ∧
    (∀ r, levelRoute r = false → r < 428 → s.fget .irtRouteEn r ≠ 0 → s.fget .irtRouteSent r ≠ 0 →
      ∃ t, exec (.routeEvent r true) s = .next t ∧ t.fget .irtRoutePend r = 1 ∧ { t with cs := s.cs } = s) ∧
    (∀ r a, levelRoute r = false → s.fget .irtRouteEn r = 0 → exec (.routeEvent r a) s = .next s) ∧
    (∀ c m i, s.arrived (fun m => m.kind == .deliver && m.core == c) = some m → i = m.tag % 1024 → (s.ctx c i).st ≠ .empty →
      ∃ t, exec (.deliver c) s = .next t ∧ SameBesideCore (s.takeMsg m) t c ∧ SameOthers (s.core c) (t.core c) i ∧
        (t.ctx c i).ipend = setBit (s.ctx c i).ipend (m.arg % 64) true) ∧
    (∀ m r, s.arrived (fun m => m.kind == .complete) = some m → (s.takeMsg m).sentRoutes m.tag m.arg = [r] → levelRoute r = false →
      s.fget .irtRoutePend r = 0 →
      ∃ t, exec .complete s = .next t ∧ t.fget .irtRouteSent r = 0 ∧ t.fget .irtRoutePend r = 0 ∧ { t with cs := s.cs } = s.takeMsg m) ∧
    (∀ m, s.arrived (fun m => m.kind == .complete) = some m → (s.takeMsg m).sentRoutes m.tag m.arg = [] → exec .complete s = .next (s.takeMsg m)) ∧
    (∀ n v, n < 4096 → s.routeInert n = false → levelRoute n = false → s.fget .irtRouteEn n = 0 → bit v 0 = true →
      s.routeOk n (bits v 8 6) (bits v 16 21) = true → n ∉ s.fab.level →
      ∃ t, exec (.irtRouteWrite .host n v) s = .next t ∧ t.fget .irtRouteEn n = 1 ∧ t.fget .irtRouteTarget n = bits v 16 21 ∧
        t.fget .irtRouteVector n = bits v 2 6 ∧ t.fget .irtRoutePart n = bits v 8 6 ∧ t.fget .irtRouteSent n = 0 ∧ t.fget .irtRoutePend n = 0 ∧
        (∀ i, i ≠ n → t.rget .irtRoute i = s.rget .irtRoute i) ∧ { t with cs := s.cs } = s) ∧
    (∀ n v, n < 4096 → s.routeInert n = false → levelRoute n = false → s.fget .irtRouteEn n = 0 → bit v 0 = true →
      s.routeOk n (bits v 8 6) (bits v 16 21) = false →
      ∃ t, exec (.irtRouteWrite .host n v) s = .next t ∧ t.fget .irtRouteEn n = 0 ∧ t.fget .irtReasonReason = rNotPermitted ∧
        t.fget .irtReasonRoute = n % 4096 ∧ { t with cs := s.cs } = s) ∧
    (∀ v, 512 ≤ bits v 0 12 → bits v 12 20 = 0 → exec (.msiDoorbell .host v) s = .next (s.fireRoute (bits v 0 12)))

/-- R68, R69: A CSR instruction on mifclaim or sifclaim that issues returns the lowest-numbered vector of its level that is pending and enabled, with V,
as it was before the instruction; where it writes it clears that vector's pending bit, whatever value it writes, and where it does not write it clears
nothing; with nothing pending and enabled it returns 0. A write of mifeoi or sifeoi sends COMPLETE of the context and vector, and of sifeoi with a
vector below 16 sends nothing. A COMPLETE that matches no route is ignored. -/
def Obligations.InterruptClaimsAndCompletions : Prop :=
  (∀ (s : State) (h : Ins) (op : CsrOp) (m : Bool) (rd src : Nat) (x : Ctx), x = s.ctx h.core h.ctx → Issues s h (serialQ (csrSrcRegs op src ++ [rd])) →
    (s.csrOk h.core h.ctx (if m then 0x7D2 else 0x5D2) (csrWrites op src) = true →
      (∀ n, (if m then n < 16 else 16 ≤ n ∧ n < 64) → bit x.ipend n = true → bit x.ien n = true →
        (∀ j, j < n → m = true ∨ 16 ≤ j → bit x.ipend j = false ∨ bit x.ien j = false) →
        ∃ t, exec (.ifClaim h op m rd src) s = .next t ∧
          LeavesCtx s t h ({ x with ipend := if csrWrites op src then setBit x.ipend n false else x.ipend }.setX rd (BitVec.ofNat 64 (n + 64)))) ∧
      ((∀ n, (if m then n < 16 else 16 ≤ n ∧ n < 64) → bit x.ipend n = false ∨ bit x.ien n = false) →
        ∃ t, exec (.ifClaim h op m rd src) s = .next t ∧ LeavesCtx s t h (x.setX rd 0))) ∧
    (∀ v, s.csrOk h.core h.ctx (if m then 0x7D3 else 0x5D3) (csrWrites op src) = true → csrWrites op src = true →
      v = bits (csrNew op 0 (csrOperand op x src)) 0 6 →
      ∃ t, exec (.ifEoi h op m rd src) s = .next t ∧ LeavesCtx s { t with fab := s.fab, reel := s.reel } h (x.setX rd 0) ∧
        (m = true ∨ 16 ≤ v → t.fab = { s.fab with net := s.fab.net ++
          [{ kind := .complete, tag := s.hartid h.core h.ctx, arg := v, pkg := s.pkg, at_ := s.fcyc + 3 }] }) ∧
        (m = false → v < 16 → t.fab = s.fab ∧ t.reel = s.reel))) ∧
  (∀ (s : State) (m : Msg), s.arrived (fun m => m.kind == .complete) = some m →
    (∀ r, s.fget .irtRouteSent r = 0 ∨ s.fget .irtRouteTarget r ≠ m.tag ∨ (m.arg ≠ 64 ∧ s.fget .irtRouteVector r ≠ m.arg)) →
    exec .complete s = .next (s.takeMsg m))

/-- R79: Of a bucket's entry, read as word0 and word1: with V = 0 it does not match; with V = 1 and SIZE outside 12 to 47, or word1 [63:52] not zero, or a
VPN bit below SIZE set, or W without R, or none of R, W and X, or MT = 11, it does not match; any other matches exactly where SIZE is the listed size,
the ASIDs are equal and the VPN bits equal the address's, and gives the physical address and the permissions of word0. -/
def Obligations.TableEntriesThatMatch : Prop :=
  ∀ (d : LineData) (pos part asid size va : Nat) (w0 w1 : W64), w0 = BitVec.ofNat 64 (bits d (128 * pos) 64) →
    w1 = BitVec.ofNat 64 (bits d (128 * pos + 64) 64) →
    (bit w0 0 = false → bucketEntry d pos part asid size va = none) ∧
    (bits w0 1 6 < 12 ∨ 47 < bits w0 1 6 ∨ bits w1 52 12 ≠ 0 ∨ bits w1 0 36 % 2 ^ (bits w0 1 6 - 12) ≠ 0 ∨ (bit w0 9 = true ∧ bit w0 8 = false) ∨
        (bit w0 8 = false ∧ bit w0 9 = false ∧ bit w0 10 = false) ∨ bits w0 14 2 = 3 →
      bucketEntry d pos part asid size va = none) ∧
    (bit w0 0 = true → 12 ≤ bits w0 1 6 → bits w0 1 6 ≤ 47 → bits w1 52 12 = 0 → bits w1 0 36 % 2 ^ (bits w0 1 6 - 12) = 0 →
        (bit w0 9 = true → bit w0 8 = true) → (bit w0 8 = true ∨ bit w0 10 = true) → bits w0 14 2 ≠ 3 →
      (size ≠ bits w0 1 6 ∨ asid ≠ bits w1 36 16 ∨ bits w1 0 36 / 2 ^ (size - 12) ≠ va % 2 ^ 48 / 2 ^ size → bucketEntry d pos part asid size va = none) ∧
      (size = bits w0 1 6 → asid = bits w1 36 16 → bits w1 0 36 / 2 ^ (size - 12) = va % 2 ^ 48 / 2 ^ size →
        ∃ e, bucketEntry d pos part asid size va = some (e, w0) ∧ e.pa va = bits w0 16 40 / 2 ^ (size - 12) * 2 ^ size + va % 2 ^ size ∧
          e.part = part ∧ e.asid = asid ∧ e.size = size ∧ e.vpn = va % 2 ^ 48 / 2 ^ size ∧ e.g = bit w0 7 ∧ e.r = bit w0 8 ∧ e.w = bit w0 9 ∧
          e.x = bit w0 10 ∧ e.u = bit w0 11 ∧ e.d = bit w0 13 ∧ e.mt = bits w0 14 2))

/-- R82, R83, R84, R85, R86, R88, R89, R91, R94, R371: A TLB miss that cannot share a walk starts one on a free walker with its round's buckets. A round
with an error ends the walk with that trap, with no match on the last list with the page fault, and with a match of a software-managed table by
filling the TLBs, each miss checked against the entry. The AD-flag OR that finds the entry unchanged fills them too. A SHOOT invalidates by its scope
and notes the core's open stores and accesses; when they are done the core answers; the last answer clears BUSY and sets DONE of the sender. Which way
a fill takes is an open value (log 44). -/
def Obligations.TranslationWalksAndShootdowns : Prop :=
  (∀ (s : State) (c i w : Nat) (fetch : Bool) (k : Core) (x : Ctx) (m : TlbMiss) (base : W64), k = s.core c → x = s.ctx c i → x.tmiss = some m →
    m.walk = false → (fetch = true ↔ m.kind = .fetch) → m.cycle + 3 ≤ s.cyc c →
    (∀ v, k.walk 0 = some v ∨ k.walk 1 = some v → v.shares x m = false) → k.walkQ.head? = some (i, fetch) →
    [0, 1].find? (fun w => (k.walk w).isNone) = some w → base = (s.part (s.tlbPart c)).xltbase →
    ∃ t v, exec (.walkStart c i fetch) s = .next t ∧ SameBesideCore s t c ∧ (t.core c).walk w = some v ∧ v.ctx = i ∧ v.kind = m.kind ∧ v.va = m.va ∧
      v.part = s.tlbPart c ∧ v.xlt = x.xlt ∧ v.round = 1 ∧ v.en = bit base 0 ∧ v.start = max (s.cyc c) (m.cycle + 5) ∧
      v.bks = (if bit base 0 then s.roundBks c (max (s.cyc c) (m.cycle + 5)) base x.xlt m.va (bits x.xlt 48 16) 1 else []) ∧
      (t.core c).walkQ = k.walkQ.erase (i, fetch)) ∧
  (∀ (s : State) (c w : Nat) (k : Core) (v : Walk) (tr : Trap), k = s.core c → k.walk w = some v → v.bks.any (fun b => decide (b.res = .waiting)) = false →
    v.orWord = none → (if v.en then v.bks.foldl (fun m b => max m b.done) v.start + 1 else v.start) ≤ s.cyc c →
    (v.outcome v.kind v.va = .err tr →
      exec (.walkRoundDecision c w) s =
        .next (s.setCore c (k.endWalk w v (s.cyc c + 1) (fun _ m => some { tr with tval := BitVec.ofNat 64 m.va })))) ∧
    (v.outcome v.kind v.va = .none → v.round ≠ 1 ∨ (sizeList v.xlt).length ≤ 4 →
      exec (.walkRoundDecision c w) s =
        .next (s.setCore c (k.endWalk w v (s.cyc c + 1) (fun _ m => some { cause := m.kind.pageFault, tval := BitVec.ofNat 64 m.va })))) ∧
    (∀ e w0 pa, v.outcome v.kind v.va = .hit e w0 pa → v.hw = false →
      entryFault (k.ctx v.ctx) { va := v.va, kind := v.kind, cycle := 0 } e w0 false = none →
      exec (.walkRoundDecision c w) s =
        .next ((s.setCore c ((k.tlbFill (decide (v.kind = .fetch)) (Config.freeWay s.free) e).endWalk w v (s.cyc c + 1)
          (fun y m => entryFault y m e w0 false))).takeFree))) ∧
  (∀ (s : State) (c w pa cyc : Nat) (k : Core) (v : Walk) (w0 mask old : W64) (e : TlbE), k = s.core c → k.walk w = some v →
    v.orWord = some (pa, w0, mask, e) → v.orBack = some (cyc, 0, old) → cyc < s.cyc c → old &&& 0x00FFFFFFFFFFCFFF = w0 &&& 0x00FFFFFFFFFFCFFF →
    exec (.adFlagOrReturn c w) s =
      .next ((s.setCore c ((k.tlbFill (decide (v.kind = .fetch)) (Config.freeWay s.free) e).endWalk w v (s.cyc c + 1)
        (fun y m => entryFault y m e w0 true))).takeFree)) ∧
  (∀ (k : Core) (fetch : Bool) (v : Nat) (e : TlbE), e ∈ (k.tlbFill fetch v e).stlb ∧
    e ∈ (if fetch then (k.tlbFill fetch v e).itlb else (k.tlbFill fetch v e).dtlb)) ∧
  (∀ (s : State) (c : Nat),
     (∀ m, s.arrived (fun m => m.kind == .shoot && m.core == c) = some m →
       ∃ t, exec (.shootdownReceipt c) s = .next t ∧ SameBesideCore (s.takeMsg m) t c ∧
         (t.core c).shoots = (s.core c).shoots ++ [{ tag := m.tag, pkg := m.pkg, stores := (s.core c).sb.map (fun e => (e.ctx, e.filled))
                                                     accs := (s.core c).openAccs }] ∧
         (∀ e ∈ (t.core c).itlb ++ (t.core c).dtlb ++ (t.core c).stlb, e.part = m.part → bits m.val 0 2 ≠ 0)) ∧
     (∀ h, (s.core c).shoots.find? (s.core c).shootDone = some h →
       exec (.shootdownLocalDone c) s = .next ((s.setCore c { s.core c with shoots := (s.core c).shoots.erase h }).send
         { kind := .shootAck, core := c, tag := h.tag, pkg := h.pkg } (s.fcyc + 7))) ∧
     (∀ m at_ q d i, s.arrived (fun m => m.kind == .shootAck) = some m → s.fab.shoots = [(m.tag, m.pkg, [m.core], at_)] → at_ + 60 ≤ s.fcyc →
       m.pkg = s.pkg → hartParts m.tag = some (q, d, i) → (s.ctx d i).st ≠ .empty →
       ∃ t, exec .shootdownAck s = .next t ∧ t.fab.shoots = [] ∧ (t.ctx d i).xbusy = false ∧ (t.ctx d i).xdone = true ∧
         SameOthers (s.core d) (t.core d) i ∧ { t with cores := s.cores, fab := s.fab } = s))

/-- R102, R104, R105, R106, R112, R115, R116, R136: RD_S, RD_M and UPG join the slice's arrivals while their source holds fewer than four there; an AMO_H
does so after dropping its sender's duplicate entry. A WB of a line whose entry is M writes the data to the MSC dirty, drops or downgrades the entry
and is acknowledged; of a line with no entry it is only acknowledged. EVC drops the entry and is acknowledged. A snoop answer drops or downgrades the
entry, and SNP_DATA writes the data to the MSC. -/
def Obligations.RequestsAndReleasesAtAHome : Prop :=
  ∀ (s : State) (n : Nat) (m : Msg),
    (∀ c k, (c, k) ∈ [(Instr.rdS n, MsgKind.rdS), (Instr.rdM n, MsgKind.rdM), (Instr.upg n, MsgKind.upg)] →
      s.arrived (fun m => m.kind == k && m.slice == n) = some m → ((s.slice n).arr.filter (fun a => s.srcOf a == s.srcOf m)).length < 4 →
      exec c s = .next ((s.takeMsg m).modSlice n (fun sl => { sl with arr := sl.arr ++ [m] }))) ∧
    (s.arrived (fun m => m.kind == .amoH && m.slice == n) = some m → ((s.slice n).arr.filter (fun a => s.srcOf a == s.srcOf m)).length < 4 →
      sliceOf m.line = n → (s.slice n).busy m.line = none →
      ∃ t, exec (.amoH n) s = .next t ∧ t.dupOf m.line m.core = none ∧ (t.slice n).arr = (s.slice n).arr ++ [m] ∧
        (∀ j, j ≠ n → t.slice j = s.slice j) ∧ { t with home := s.home, pmu := s.pmu } = s.takeMsg m) ∧
    (s.arrived (fun m => m.kind == .wb && m.slice == n) = some m → sliceOf m.line = n → m.core < 240 → m.pkg = s.pkg →
      (s.dupOf m.line m.core = none →
        exec (.wb n) s = .next (((s.takeMsg m).pev 0 13 n m.part 1).send { m with kind := .wbAck, slice := n } (s.fcyc + 3))) ∧
      (∀ e, s.dupOf m.line m.core = some e → e.m = true → s.homed m.line = true → s.slotAllows n s.fcyc m.part = true →
        (∀ k ∈ (s.slice n).trk, k.req.line ≠ m.line) → s.retiredPage m.line = false → m.poison = false →
        ∃ t x, exec (.wb n) s = .next t ∧ t.msc m.line = some x ∧ x.data = m.data ∧ x.d = true ∧ x.p = false ∧
          t.fab.net = s.fab.net.erase m ++ [{ m with kind := .wbAck, slice := n, at_ := s.fcyc + 3 }] ∧
          (m.flag = false → t.dupOf m.line m.core = none) ∧
          (m.flag = true → t.dupOf m.line m.core = some { line := m.line, core := m.core, m := false, way := e.way }) ∧
          { t with home := s.home, fab := s.fab, mem := s.mem, pmu := s.pmu, dmaCh := s.dmaCh, free := s.free } = s)) ∧
    (s.arrived (fun m => m.kind == .evc && m.slice == n) = some m → sliceOf m.line = n → m.core < 240 → (s.slice n).busy m.line = none →
      s.homed m.line = true →
      ∃ t, exec (.evc n) s = .next t ∧ t.dupOf m.line m.core = none ∧
        t.fab.net = s.fab.net.erase m ++ [{ m with kind := .evcAck, slice := n, at_ := s.fcyc + 3 }] ∧
        { t with home := s.home, fab := s.fab, pmu := s.pmu } = s) ∧
    (s.arrived (fun m => m.kind == .snpAck && m.slice == n) = some m → sliceOf m.line = n → m.arg = 0 → m.flag = false →
      (∀ k ∈ (s.slice n).trk, k.req.line ≠ m.line) → (∀ e, s.dupOf m.line m.core = some e → e.m = false) →
      ∃ t, exec (.snpAck n) s = .next t ∧ t.dupOf m.line m.core = none ∧ (t.slice n).rcOut = (s.slice n).rcOut.erase (m.line, m.core) ∧
        { t with home := s.home } = s.takeMsg m) ∧
    (∀ e, s.arrived (fun m => m.kind == .snpData && m.slice == n) = some m → sliceOf m.line = n → s.homed m.line = true →
      s.dupOf m.line m.core = some e → e.m = true → (∀ k ∈ (s.slice n).trk, k.req.line ≠ m.line) → s.retiredPage m.line = false →
      m.poison = false →
      ∃ t x, exec (.snpData n) s = .next t ∧ t.msc m.line = some x ∧ x.data = m.data ∧ x.d = true ∧ x.p = false ∧
        (m.flag = false → t.dupOf m.line m.core = none) ∧
        (m.flag = true → t.dupOf m.line m.core = some { line := m.line, core := m.core, m := false, way := e.way }) ∧
        t.fab = (s.takeMsg m).fab ∧ { t with home := s.home, fab := s.fab, mem := s.mem, pmu := s.pmu, dmaCh := s.dmaCh, free := s.free } = s)

/-- R105, R107, R108, R109, R113, R116, R145: A slice admits at most one request in an F-cycle. One that the MSC holds and no other core has: RD_S gets
DATA_S and an S entry, RD_M DATA_M and an M entry, UPG from a holder ACK_UPG and an M entry, AMO_H the old value with the new one in the MSC; each
frees a credit. A request of an address that is refused answers with its reason and gets no entry; one that the MSC does not hold gets LONG and reads
DRAM, with a tracker open. -/
def Obligations.HomeAdmissionAndGrants : Prop :=
  ∀ (s : State) (n : Nat),
    (((s.tidy n).finishRemovals.slice n).lastAdmit = some (s.tidy n).finishRemovals.fcyc →
      exec (.homeAdmission n .none) s = .next (s.tidy n).finishRemovals) ∧
    (∀ m x, (s.slice n).trk = [] → (s.slice n).rdy = [] → (s.slice n).arr = [m] → (s.slice n).wbuf = [] → s.home.removals = [] →
      (s.slice n).lastAdmit ≠ some s.fcyc → s.slotAllows n s.fcyc m.part = true → m.pkg = s.pkg → m.core < 240 → s.dieOut (dieOf m.core) = false →
      sliceOf m.line = n → s.homed m.line = true → s.npkg ≤ 1 → s.vecOf m.line = 0 → s.homeReason m.line = none →
      (∀ d ∈ s.holders m.line, d.core = m.core) → s.msc m.line = some x → x.p = false →
      (m.kind = .rdS → ∃ t d, exec (.homeAdmission n .none) s = .next t ∧ t.dupOf m.line m.core = some d ∧ d.m = false ∧ t.msc m.line = some x ∧
        t.fab.net = s.fab.net ++
          [{ m with kind := .dataS, data := x.data, hasData := true, status := 0, val := 0, at_ := s.fcyc + 6 + s.lineDelay (dieOf m.core) 8 true },
            { kind := .credit, core := m.core, part := m.part, slice := n, at_ := s.fcyc + 6 }]) ∧
      (m.kind = .rdM → m.flag = false → ∃ t d, exec (.homeAdmission n .none) s = .next t ∧ t.dupOf m.line m.core = some d ∧ d.m = true ∧
        t.fab.net = s.fab.net ++
          [{ m with kind := .dataM, data := x.data, hasData := true, status := 0, val := 0, at_ := s.fcyc + 6 + s.lineDelay (dieOf m.core) 8 true },
            { kind := .credit, core := m.core, part := m.part, slice := n, at_ := s.fcyc + 6 }]) ∧
      (m.kind = .upg → (s.dupOf m.line m.core).isSome = true →
        ∃ t d, exec (.homeAdmission n .none) s = .next t ∧ t.dupOf m.line m.core = some d ∧ d.m = true ∧
        t.fab.net = s.fab.net ++
          [{ m with kind := .ackUpg, data := 0, hasData := false, status := 0, val := 0, at_ := s.fcyc + 4 },
            { kind := .credit, core := m.core, part := m.part, slice := n, at_ := s.fcyc + 4 }]) ∧
      (∀ op sz arg pa, m.kind = .amoH → s.holders m.line = [] → m.far = .amo op sz arg pa → s.retiredPage m.line = false →
        ∃ t y, exec (.homeAdmission n .none) s = .next t ∧ t.msc m.line = some y ∧
          y.data = lineStore x.data pa sz (amoFn op sz (lineLoad x.data pa sz true) arg) ∧ y.d = true ∧
          t.fab.net = s.fab.net ++
            [{ m with kind := .amoRet, data := 0, hasData := false, status := 0, val := lineLoad x.data pa sz true, at_ := s.fcyc + 7 },
              { kind := .credit, core := m.core, part := m.part, slice := n, at_ := s.fcyc + 7 }])) ∧
    (∀ m, (s.slice n).trk = [] → (s.slice n).rdy = [] → (s.slice n).arr = [m] → (s.slice n).wbuf = [] → s.home.removals = [] →
      (s.slice n).lastAdmit ≠ some s.fcyc → s.slotAllows n s.fcyc m.part = true → m.pkg = s.pkg → m.core < 240 →
      sliceOf m.line = n → s.homed m.line = true → s.npkg ≤ 1 → s.vecOf m.line = 0 → s.holders m.line = [] → m.kind = .rdS ∨ m.kind = .rdM ∧ m.flag = false →
      (∀ r, s.homeReason m.line = some r →
        ∃ t, exec (.homeAdmission n .none) s = .next t ∧ t.dupOf m.line m.core = none ∧
          t.fab.net = s.fab.net ++
            [{ m with kind := if m.kind = .rdS then .dataS else .dataM, data := 0, hasData := false, status := r, val := 0, at_ := s.fcyc + 4 },
              { kind := .credit, core := m.core, part := m.part, slice := n, at_ := s.fcyc + 4 }]) ∧
      (s.homeReason m.line = none → s.msc m.line = none →
        ∃ t k, exec (.homeAdmission n .none) s = .next t ∧ t.fab.net = s.fab.net ++ [{ m with kind := .long, at_ := s.fcyc + 4 }] ∧
          t.mem.reads = s.mem.reads ++ [{ slice := n, line := m.line, ready := s.fcyc + s.dramTime m.line }] ∧
          (t.slice n).busy m.line = some k ∧ k.dram = true ∧ k.req = m))

/-- R125, R127, R128, R129, R148: A reel request joins the arrivals with its package. A reel snoop snoops the cores that hold the line, or is answered at
once where none does. A reel snoop's answer clears the package's vector bit unless a copy stays, and with data writes the MSC and ends the package's
ownership. A relayed grant closes the forwarded request with its data and the entry. A forwarded WB or EVC updates vector and MSC and is acknowledged
over the reel; the acknowledgement goes on to the core (DEDUCED, log 10). A tracker that waits past its limit ends with DEVICE_ERROR, or where it is
remote takes the peer's bundle down. -/
def Obligations.HomesAcrossPackages : Prop :=
  ∀ (s : State) (n : Nat) (r : RMsg),
    (∀ k, s.reelFor n (fun o => (reqKindOf o).isSome) = some r → reqKindOf r.op = some k →
      exec (.reelRequest n) s =
        .next ((s.takeReel r).modSlice n (fun sl => { sl with arr := sl.arr ++ [{ r.m with kind := k, pkg := r.src, at_ := s.fcyc }] }))) ∧
    (∀ c inv hs, (c, inv) ∈ [(Instr.rsnpShd n, false), (Instr.rsnpInv n, true)] → s.reelFor n (· == if inv then .rsnpInv else .rsnpShd) = some r →
      hs = (s.holders r.m.line).filter (fun d => if inv then !(r.excl && d.core == r.m.core) else d.m) →
      (hs ≠ [] → ∃ t k, exec c s = .next t ∧ k ∈ (t.slice n).trk ∧ k.req = r.m ∧ k.rhome = r.src ∧ k.snp = hs.map (fun d => d.core) ∧
        t.fab.net = s.fab.net ++
          hs.map (fun d => { kind := if inv then .snpInv else .snpShd, line := r.m.line, core := d.core, slice := n, at_ := s.fcyc + 4 })) ∧
      (hs = [] → (∀ m ∈ (s.slice n).fwd, m.line ≠ r.m.line) →
        ∃ t, exec c s = .next t ∧ t.fab = s.fab ∧ { t with home := s.home, reel := s.reel } = s ∧
          t.reel = ((s.takeReel r).reelSend r.src
            { op := .rsnpAck, m := { r.m with data := 0, hasData := false, poison := false, flag := !(s.holders r.m.line).isEmpty } }).reel)) ∧
    (sliceOf r.m.line = n → (s.slice n).busy r.m.line = none →
      (s.reelFor n (· == .rsnpAck) = some r →
        ∃ t, exec (.rsnpAck n) s = .next t ∧ { t with home := s.home } = s.takeReel r ∧
          bit (t.vecOf r.m.line) r.src = (decide (r.src < 8) && r.m.flag)) ∧
      (s.reelFor n (· == .rsnpData) = some r → s.owned r.m.line = true → bit (s.vecOf r.m.line) r.src = true → r.src ≠ s.pkg →
        s.pkg < 8 → s.retiredPage r.m.line = false → r.m.poison = false →
        ∃ t x, exec (.rsnpData n) s = .next t ∧ t.msc r.m.line = some x ∧ x.data = r.m.data ∧ x.d = true ∧ t.owned r.m.line = false ∧
          bit (t.vecOf r.m.line) r.src = r.m.flag)) ∧
    (∀ k d, s.reelFor n (fun o => (respKindOf o).isSome) = some r → sliceOf r.m.line = n → r.m.status = 0 → r.m.hasData = true →
      (s.slice n).busy r.m.line = some k → k.remote = true → k.req.pkg = s.pkg → k.req.core < 240 → k.req.line = r.m.line → k.closed = false →
      k.snp = [] → k.rsnp = [] → k.reel = false → k.noReq = false → s.dieOut (dieOf k.req.core) = false → s.homed r.m.line = false →
      d = s.fcyc + 4 + s.lineDelay (dieOf k.req.core) 8 true →
      r.op = .dataS ∨ r.op = .dataM →
      ∃ t e, exec (.relayedResponse n) s = .next t ∧ t.dupOf r.m.line k.req.core = some e ∧ e.m = decide (r.op = .dataM) ∧
        t.fab.net = s.fab.net ++
          [{ k.req with kind := if r.op = .dataM then .dataM else .dataS, data := r.m.data, hasData := true, status := 0, val := r.m.val, at_ := d },
            { kind := .credit, core := k.req.core, part := k.req.part, slice := n, at_ := s.fcyc + 4 }]) ∧
    (s.reelFor n (fun o => o == .wb || o == .evc) = some r → sliceOf r.m.line = n → (s.slice n).busy r.m.line = none →
      (r.op = .wb → s.owned r.m.line = true → bit (s.vecOf r.m.line) r.src = true → r.m.flag = false → r.src ≠ s.pkg →
        s.slotAllows n s.fcyc r.m.part = true → s.retiredPage r.m.line = false → r.m.poison = false →
        ∃ t x, exec (.forwardedRelease n) s = .next t ∧ t.msc r.m.line = some x ∧ x.data = r.m.data ∧ x.d = true ∧ t.vecOf r.m.line = 0 ∧
          t.fab = s.fab ∧ t.reel = ((s.takeReel r).reelSend r.src { op := .wbAck, m := { r.m with pkg := r.src, kind := .wb } }).reel) ∧
      (r.op = .evc → s.owned r.m.line = false →
        ∃ t, exec (.forwardedRelease n) s = .next t ∧ bit (t.vecOf r.m.line) r.src = false ∧ t.fab = s.fab ∧
          t.reel = ((s.takeReel r).reelSend r.src { op := .evcAck, m := { r.m with pkg := r.src, kind := .evc } }).reel)) ∧
    (∀ m, s.reelFor n (fun o => o == .wbAck || o == .evcAck) = some r → (s.slice n).fwd.find? (fun m => m.line == r.m.line) = some m →
      m.core < 240 →
      exec (.remoteReleaseAck n) s = .next (((s.takeReel r).modSlice n (fun sl => { sl with fwd := sl.fwd.erase m })).send
        { m with kind := if m.kind = .wb then .wbAck else .evcAck, slice := n } (s.fcyc + 3))) ∧
    (∀ line k, sliceOf line = n → (s.slice n).trk = [k] → k.req.line = line → k.active = true → k.rhome = 8 → k.timer + s.tmoLimit n ≤ s.fcyc →
      k.snp = [] → k.rsnp = [] → k.granted = false → k.noReq = false → k.req.pkg = s.pkg → k.req.kind ∈ [MsgKind.rdS, .rdM, .amoH] →
      (k.remote = false → k.dram = true →
        ∃ t a, exec (.trackerTimeout n line) s = .next t ∧ a ∈ t.fab.net ∧ a.kind = (refuseKind k.req.kind).1 ∧ a.core = k.req.core ∧ a.line = line ∧
          a.status = rDeviceError ∧ a.hasData = false ∧
          t.fget .hsTmoLastkind n = 3 ∧ t.fget .hsTmoExpired n = min (s.fget .hsTmoExpired n + 1) 0xFFFF) ∧
      (k.remote = true → exec (.trackerTimeout n line) s = .next ((s.tmoCount n line 2).bundleTimeout (pkgOf (line * 64)))))

/-- R120, R178, R184, R186, R188: A non-coherent read or write of a line that is refused completes with the reason; a read the MSC holds completes with
its data, or with POISONED and no data; a write of a whole line, or of part of a line the MSC holds unpoisoned, merges its bytes dirty and completes;
a part of a poisoned line completes with POISONED; what the MSC does not hold is read from DRAM. A DRAM read decodes its line: clean data fills the
MSC and completes the access or grants the waiting read; poisoned or uncorrectable data completes with that reason. -/
def Obligations.NonCoherentAccessesAndDram : Prop :=
  ∀ (s : State) (n : Nat) (r : NcReq) (p : Nat), p = (s.linePart (r.pa / 64)).getD 64 → (∀ q, r.agent ≠ .peer q) → r.agent ≠ .kiln →
    (s.ncFront n false = some r →
      (∀ e, s.homeReason (r.pa / 64) = some e →
        ∃ t, exec (.ncRead n) s = .next t ∧ { t with home := s.home } = s.pev 0 14 n p 1 ∧
          t.home = { s.home with ncq := s.home.ncq.filter (fun q => q.id != r.id)
                                 ncDone := s.home.ncDone ++ [{ r with val := if r.write then r.val else 0, status := e, at_ := s.fcyc + 2, dram := false }] }) ∧
      (∀ m, s.homeReason (r.pa / 64) = none → s.msc (r.pa / 64) = some m →
        ∃ t a, exec (.ncRead n) s = .next t ∧ { t with home := s.home } = (s.pev 0 14 n p 1).pev 0 6 n p 1 ∧
          t.home = { s.home with ncq := s.home.ncq.filter (fun q => q.id != r.id), ncDone := s.home.ncDone ++ [a] } ∧ a.id = r.id ∧
          a.status = (if m.p then rPoisoned else 0) ∧ a.val = (if m.p then 0 else m.data) ∧ a.at_ = s.fcyc + 4) ∧
      (s.homeReason (r.pa / 64) = none → s.msc (r.pa / 64) = none →
        ∃ t, exec (.ncRead n) s = .next t ∧ t.home.ncDone = s.home.ncDone ∧
          t.mem.reads = s.mem.reads ++ [{ slice := n, line := r.pa / 64, nc := some r.id, ready := s.fcyc + s.dramTime (r.pa / 64) }])) ∧
    (s.ncFront n true = some r → r.poison = false →
      (∀ e, s.homeReason (r.pa / 64) = some e →
        ∃ t a, exec (.ncWrite n) s = .next t ∧ t.home.ncDone = s.home.ncDone ++ [a] ∧ a.id = r.id ∧ a.status = e ∧ t.mem = s.mem ∧
          t.home.msc = s.home.msc) ∧
      (s.homeReason (r.pa / 64) = none → s.retiredPage (r.pa / 64) = false →
        (∀ m, r.len = 64 ∧ m = 0 ∨ r.len < 64 ∧ (s.msc (r.pa / 64)).map (fun x => (x.data, x.p)) = some (m, false) →
          ∃ t x a, exec (.ncWrite n) s = .next t ∧ t.msc (r.pa / 64) = some x ∧ x.data = r.merge m ∧ x.d = true ∧ x.p = false ∧
            t.home.ncDone = s.home.ncDone ++ [a] ∧ a.id = r.id ∧ a.status = 0 ∧ a.at_ = s.fcyc + 4 ∧
            { t with home := s.home, mem := s.mem, pmu := s.pmu, dmaCh := s.dmaCh, free := s.free } = s) ∧
        (∀ m, r.len < 64 → s.msc (r.pa / 64) = some m → m.p = true →
          ∃ t a, exec (.ncWrite n) s = .next t ∧ t.msc (r.pa / 64) = some m ∧ t.home.ncDone = s.home.ncDone ++ [a] ∧ a.id = r.id ∧ a.status = rPoisoned) ∧
        (r.len < 64 → s.msc (r.pa / 64) = none →
          ∃ t, exec (.ncWrite n) s = .next t ∧ t.home.ncDone = s.home.ncDone ∧
            t.mem.reads = s.mem.reads ++ [{ slice := n, line := r.pa / 64, nc := some r.id, ready := s.fcyc + s.dramTime (r.pa / 64) }]))) ∧
    (∀ mc rd d errs, Tab.find s.mem.retrain mc = none → s.mem.reads = [rd] → mcOf (rd.line * 64) = mc → rd.ready ≤ s.fcyc → d = s.decodeLine rd.line errs →
      rd.nc = some r.id → s.home.ncq = [r] → r.write = false → rd.line = r.pa / 64 → s.msc rd.line = none →
      (d.out = .clean → ∃ t x a, exec (.dramReadComplete mc errs) s = .next t ∧ t.mem.reads = [] ∧ t.msc rd.line = some x ∧ x.data = d.data ∧ x.d = false ∧
        t.home.ncDone = s.home.ncDone ++ [a] ∧ a.id = r.id ∧ a.val = d.data ∧ a.status = 0 ∧
        a.at_ = s.fcyc + 1 + (if s.markOf rd.line = none then 0 else 4)) ∧
      (d.out = .poisoned → ∃ t a, exec (.dramReadComplete mc errs) s = .next t ∧ t.mem.reads = [] ∧ t.msc rd.line = none ∧
        t.home.ncDone = s.home.ncDone ++ [a] ∧ a.id = r.id ∧ a.val = 0 ∧ a.status = rPoisoned ∧ a.at_ = s.fcyc + 5 ∧
        t.fget .mcEccstatPois mc = min (s.fget .mcEccstatPois mc + 1) (2 ^ Fld.mcEccstatPois.len - 1))) ∧
    (∀ mc rd d errs k, Tab.find s.mem.retrain mc = none → s.mem.reads = [rd] → mcOf (rd.line * 64) = mc → rd.ready ≤ s.fcyc → d = s.decodeLine rd.line errs →
      rd.nc = none → rd.slice = n → sliceOf rd.line = n → (s.slice n).trk = [k] → k.req.line = rd.line → k.active = true → k.rhome = 8 → k.dram = true →
      k.req.kind = .rdS → k.data = none → k.fail = 0 → k.snp = [] → k.rsnp = [] → k.granted = false → k.remote = false → k.redo = false →
      k.closed = false → k.noReq = false → k.reel = false → k.req.pkg = s.pkg → k.req.core < 240 → s.dieOut (dieOf k.req.core) = false →
      s.npkg ≤ 1 → s.msc rd.line = none →
      (d.out = .clean → ∃ t x e a, exec (.dramReadComplete mc errs) s = .next t ∧ t.mem.reads = [] ∧ t.msc rd.line = some x ∧ x.data = d.data ∧
        t.dupOf rd.line k.req.core = some e ∧ e.m = false ∧ a ∈ t.fab.net ∧ a.kind = .dataS ∧ a.core = k.req.core ∧ a.line = rd.line ∧ a.data = d.data ∧ a.status = 0) ∧
      (d.out = .uncorrectable → s.home.removals = [] → ∃ t a, exec (.dramReadComplete mc errs) s = .next t ∧ t.mem.reads = [] ∧ a ∈ t.fab.net ∧ a.kind = .dataS ∧
        a.core = k.req.core ∧ a.line = rd.line ∧ a.hasData = false ∧ a.status = rEccUncorrectable))

/-- R171, R185, R187, R189, R280, R344: A due refresh closes the bank group's rows, moves to the next and sets the next time by the temperature. A first
ALERT_N retries the command and a second retrains the channel for 1 ms; a retrain that succeeds ends it, and one that fails takes the channel down and
poisons its dirty lines in the MSC. The patrol reads the next line and moves on, leaving DRAM, homes and cores alone where the line is clean. The RAS
window clears its counters. A hot DIMM halves activation and doubles refresh until every DIMM is cool. The order of the refreshed banks is a DESIGN
CHOICE (log 56). -/
def Obligations.MemoryControllers : Prop :=
  ∀ (s : State) (mc : Nat),
    (s.fget .mcCfgUp mc = 1 → Tab.get 0 s.mem.refNext mc ≤ s.now → s.fget .pwrStatusState ≤ 1 →
      ∃ t, exec (.refresh mc) s = .next t ∧ { t with mem := s.mem } = s.pev 1 8 mc 64 1 ∧
        t.mem.rows = s.mem.rows.filter (fun e => !(decide (e.1 / 2048 = mc) && decide (e.1 % 4 = Tab.get 0 s.mem.refBank mc))) ∧
        Tab.get 0 t.mem.refBank mc = (Tab.get 0 s.mem.refBank mc + 1) % 4 ∧
        Tab.get 0 t.mem.refNext mc = s.now + (if s.mem.hot then 6240 else 12480) ∧
        { t.mem with rows := s.mem.rows, refBank := s.mem.refBank, refNext := s.mem.refNext } = s.mem) ∧
    (s.fget .mcCfgUp mc = 1 → Tab.find s.mem.retrain mc = none →
      (mc ∉ s.mem.caRetry → exec (.alertN mc) s = .next { s with mem := { s.mem with caRetry := s.mem.caRetry ++ [mc] } }) ∧
      (mc ∈ s.mem.caRetry → ∃ t, exec (.alertN mc) s = .next t ∧ Tab.find t.mem.retrain mc = some (s.now + 3200000) ∧ mc ∉ t.mem.caRetry ∧
        { t with mem := { t.mem with caRetry := s.mem.caRetry, retrain := s.mem.retrain } } = s)) ∧
    (Tab.find s.mem.retrain mc ≠ none →
      (∃ t, exec (.channelRetrainDone mc true) s = .next t ∧ Tab.find t.mem.retrain mc = none ∧
        { t with mem := { t.mem with retrain := s.mem.retrain } } = s) ∧
      (s.mem.reads = [] → ∃ t, exec (.channelRetrainDone mc false) s = .next t ∧ Tab.find t.mem.retrain mc = none ∧ t.fget .mcCfgUp mc = 0 ∧
        t.home.msc = s.home.msc.map (fun e => (e.1, if e.2.d && mcOf (e.1 * 64) == mc then { e.2 with p := true } else e.2)))) ∧
    (∀ errs l line, s.fget .mcPatrolPeriod mc ≠ 0 → s.hwMode 0 = true → s.fget .mcCfgUp mc = 1 → Tab.get 0 s.mem.patNext mc ≤ s.now →
      l = s.fget .mcPatrolNext mc → line = s.lineAt mc l → l + 1 < s.dramBytes / 1024 → (s.decodeLine line errs).out = .clean →
      ∃ t, exec (.patrolRead mc errs) s = .next t ∧ t.fget .mcPatrolNext mc = (l + 1) % 2 ^ Fld.mcPatrolNext.len ∧ t.mem.dram = s.mem.dram ∧
        Tab.get 0 t.mem.patNext mc = s.now + s.fget .mcPatrolPeriod mc * 3600 * 1000000 * 3200 / (s.dramBytes / 1024) ∧
        t.home = s.home ∧ t.cores = s.cores) ∧
    (s.mem.winStart + 2 ^ min 48 (max 30 (s.fget .glbMemrasWindow)) ≤ s.fcyc →
      exec .memrasWindow s = .next { s with mem := { s.mem with devEv := [], pageCe := [], winStart := s.fcyc } }) ∧
    (∀ dimm, s.hwMode 7 = true → dimm ∉ s.mem.dimmHot →
      ∃ t, exec (.spdSensorPoll [(dimm, 86)]) s = .next t ∧ dimm ∈ t.mem.dimmHot ∧ t.mem.hot = true ∧ t.mem.actHalf = true ∧
        { t with mem := { t.mem with dimmHot := s.mem.dimmHot, hot := s.mem.hot, actHalf := s.mem.actHalf } } = s) ∧
    (s.mem.dimmHot = [] → s.fget .pwrThermMemhot ≠ 1 →
      exec (.spdSensorPoll [(mc, 85)]) s = .next { s with mem := { s.mem with hot := false, actHalf := s.hwMode 7 && s.pwr.ioHot } })

/-- R191, R192, R193, R372: A write of ECT_CMD that the check refuses leaves the reason in ECT_STATUS; one it admits sets BUSY and removes the line from
every L2. When the removal is done, WRITE_RAW writes the data and check symbols, WRITE_ENC the data with its code XOR the symbols, READ_RAW gives
both, READ_DEC the decoded data with its outcome, the reads changing no memory. A unit that is fired reads as zeros throughout, no other unit changes. -/
def Obligations.MemoryTestAndFiring : Prop :=
  ∀ (s : State) (line : Nat), line = s.fget .ectAddrLine →
    (∀ c op, (c, op) ∈ [(Instr.ectWriteRaw .host, 1), (Instr.ectWriteEnc .host, 2), (Instr.ectReadRaw .host, 3), (Instr.ectReadDec .host, 4)] →
      (∀ r, s.ectReason line = some r →
        ∃ t, exec c s = .next t ∧ t.fget .ectStatusReason = r % 2 ^ Fld.ectStatusReason.len ∧ { t with cs := s.cs } = s) ∧
      (s.ectReason line = none →
        ∃ t, exec c s = .next t ∧ t.fget .ectStatusBusy = 1 ∧ t.fget .ectStatusDone = 0 ∧ t.mem = { s.mem with ect := some (op, line, s.fcyc + 400) } ∧
          (∀ m ∈ s.heldLines line 1, ∃ a ∈ (t.slice (sliceOf m)).arr, a.kind = .amoH ∧ a.far = .flush ∧ a.line = m) ∧
          { t with cs := s.cs, home := s.home, mem := s.mem } = s)) ∧
    (∀ op l x, s.mem.ect = some (op, l, x) → s.removing l 1 = false → (∀ e ∈ s.home.msc, e.1 ≠ l) →
      ∃ t, exec .ectOpDone s = .next t ∧ t.mem.ect = none ∧ t.fget .ectStatusBusy = 0 ∧ t.fget .ectStatusDone = 1 ∧
        (op = 1 → t.dramLine l = s.ectLine ∧ t.dramDelta l = (xorSyms s.ectChecks (rsEncode s.ectLine)).map (· % 256)) ∧
        (op = 2 → t.dramLine l = s.ectLine ∧ t.dramDelta l = s.ectChecks) ∧
        (op = 3 → t.ectLine = s.dramLine l ∧ t.ectChecks = (xorSyms (s.dramDelta l) (rsEncode (s.dramLine l))).map (· % 256) ∧ t.mem.dram = s.mem.dram ∧ t.mem.chk = s.mem.chk) ∧
        (op = 4 → t.mem.dram = s.mem.dram ∧ t.mem.chk = s.mem.chk ∧
          ((s.decodeLine l []).out = .clean → t.ectLine = (s.decodeLine l []).data ∧ t.fget .ectStatusOutcome = 0) ∧
          ((s.decodeLine l []).out = .corrected → t.ectLine = (s.decodeLine l []).data ∧ t.fget .ectStatusOutcome = 1) ∧
          ((s.decodeLine l []).out = .poisoned → t.ectLine = 0 ∧ t.fget .ectStatusOutcome = 2) ∧
          ((s.decodeLine l []).out = .uncorrectable → t.ectLine = 0 ∧ t.fget .ectStatusOutcome = 3))) ∧
    (∀ u id, s.mem.fireQ = [(u, [id])] → s.kfind id = none →
      ∃ t, exec .fireGranuleDone s = .next t ∧ t.mem.fireQ = [] ∧ t.fired u = true ∧ (∀ v, v ≠ u → t.fired v = s.fired v) ∧
        (∀ a, u * 2 ^ 30 ≤ a → a < (u + 1) * 2 ^ 30 → Memory.get t.mem.dram a = 0) ∧
        (∀ a, a < u * 2 ^ 30 ∨ (u + 1) * 2 ^ 30 ≤ a → Memory.get t.mem.dram a = Memory.get s.mem.dram a) ∧
        { t with cs := s.cs, mem := s.mem } = s)

/-- R119, R185, R189, R190, R194, R195, R197, R251, R372: Each memory command refuses a misaligned or out-of-range argument with its reason. MEM_FIRE
marks its units unfired, queues them and drops their lines; MEM_SCRUB_RANGE starts the scrub and its end replies the counts; MEM_SET_PATROL sets every
controller's period and gives the old; MEM_RETIRE_PAGE retires a page with no copies; MEM_MARK_DEVICE sets or clears a rank's mark and gives the old;
MEM_BANK_ACCEPT clears the masked suspect banks and counts them; MEM_CLEAN_RANGE scans every slice's duplicate tags, snoops the lines in range, and
ends when every slice has. -/
def Obligations.MemoryCommands : Prop :=
  ∀ (s : State) (id : Nat) (c : KCmd),
    (s.kready id 0x0300 = some c →
      ((c.p 0).toNat % 2 ^ 30 ≠ 0 ∨ (c.p 1).toNat % 2 ^ 30 ≠ 0 → exec (.memFire id) s = .next (s.kreply id rMemAlign)) ∧
      (∀ us, us = s.unitsOf (c.p 0).toNat (c.p 1).toNat → (c.p 0).toNat % 2 ^ 30 = 0 → (c.p 1).toNat % 2 ^ 30 = 0 →
        s.inDram (c.p 0).toNat (c.p 1).toNat = true → (c.p 0).toNat % 2 ^ 44 + (c.p 1).toNat ≤ s.carveBase →
        (∀ u ∈ us, ∀ p < 64, 2 ≤ s.partState p → s.inWindows p (s.pkg * 2 ^ 44 + u * 2 ^ 30) = false) → us ≠ [] →
        ∃ t, exec (.memFire id) s = .next t ∧ t.mem.fireQ.map (fun e => e.1) = s.mem.fireQ.map (fun e => e.1) ++ us ∧
          (∀ u ∈ us, t.fired u = false) ∧ (∀ u, u ∉ us → t.fired u = s.fired u) ∧ t.mem.dram = s.mem.dram ∧
          (∀ l, pkgOf (l * 64) = s.pkg → lineIn l / 2 ^ 24 ∈ us → Tab.find t.home.msc l = none ∧ t.holders l = []))) ∧
    (s.kready id 0x0301 = some c →
      ((c.p 0).toNat % 4096 ≠ 0 ∨ (c.p 1).toNat % 4096 ≠ 0 → exec (.memScrubRange id) s = .next (s.kreply id rMemAlign)) ∧
      ((c.p 0).toNat % 4096 = 0 → (c.p 1).toNat % 4096 = 0 → s.inDram (c.p 0).toNat (c.p 1).toNat = true →
        (s.outsideM c (c.p 0).toNat (c.p 1).toNat = true → exec (.memScrubRange id) s = .next (s.kreply id rNotPermitted)) ∧
        (s.outsideM c (c.p 0).toNat (c.p 1).toNat = false →
          ∃ t, exec (.memScrubRange id) s = .next t ∧ t.mem = { s.mem with scrub := some (id, (c.p 0).toNat, (c.p 1).toNat) } ∧
            { t with mem := s.mem, kiln := s.kiln } = s))) ∧
    (∀ base len, s.mem.scrub = some (id, base, len) → (∀ i < len / 64, s.scrubSkips (base / 64 + i) = true) →
      exec .scrubRangeDone s = .next ({ s with mem := { s.mem with scrub := none } }.kreply id 0 0
        [0, BitVec.ofNat 64 (len / 64 % 2 ^ 32 * 2 ^ 32), 0xFFFFFFFFFFFFFFFF])) ∧
    (s.kready id 0x0302 = some c →
      (168 < bits (c.p 0) 0 8 → exec (.memSetPatrol id) s = .next (s.kreply id rMemRateInvalid)) ∧
      (bits (c.p 0) 0 8 ≤ 168 →
        ∃ t : State, exec (.memSetPatrol id) s = .next (t.kreply id 0 (BitVec.ofNat 64 (s.fget .mcPatrolPeriod 0))) ∧
          (∀ mc < 16, t.fget .mcPatrolPeriod mc = bits (c.p 0) 0 8) ∧ (∀ k i j, k ≠ .mcPatrol → t.rget k i j = s.rget k i j) ∧
          { t with cs := s.cs } = s)) ∧
    (s.kready id 0x0303 = some c →
      ((c.p 0).toNat % 4096 ≠ 0 → exec (.memRetirePage id) s = .next (s.kreply id rMemAlign)) ∧
      ((c.p 0).toNat % 4096 = 0 → s.inDram (c.p 0).toNat 4096 = true → s.inCarve (c.p 0).toNat = false → s.canary (c.p 0).toNat = false →
        (1024 ≤ s.home.retired.length → (c.p 0).toNat / 4096 ∉ s.home.retired → exec (.memRetirePage id) s = .next (s.kreply id rMemRetireFull)) ∧
        (s.home.retired.length < 1024 → s.home.removals = [] → s.heldLines ((c.p 0).toNat / 4096 * 64) 64 = [] →
          s.removing ((c.p 0).toNat / 4096 * 64) 64 = false →
          ∃ t, exec (.memRetirePage id) s = .next t ∧ t.home.removals = [] ∧
            t.home.retired = (if (c.p 0).toNat / 4096 ∈ s.home.retired then s.home.retired else s.home.retired ++ [(c.p 0).toNat / 4096]) ∧
            (∀ l, l / 64 = (c.p 0).toNat / 4096 → t.msc l = none)))) ∧
    (s.kready id 0x0304 = some c → ∀ mc sub rank dev, mc = bits (c.p 0) 0 4 → sub = bits (c.p 0) 4 1 → rank = bits (c.p 0) 8 4 → dev = bits (c.p 0) 12 4 →
      (10 ≤ dev → dev ≤ 14 → exec (.memMarkDevice id) s = .next (s.kreply id rBadParameter)) ∧
      (dev ≤ 9 ∨ dev = 15 → s.rankUp mc rank = true →
        ∃ (t : State) (old : Nat), exec (.memMarkDevice id) s = .next (t.kreply id 0 (BitVec.ofNat 64 old)) ∧ { t with cs := s.cs } = s ∧
          (sub = 0 → t.fget .mcMarkAv mc rank = (if dev = 15 then 0 else 1) ∧ (dev ≠ 15 → t.fget .mcMarkAdev mc rank = dev) ∧
            old = (if s.fget .mcMarkAv mc rank = 1 then s.fget .mcMarkAdev mc rank else 15)) ∧
          (sub = 1 → t.fget .mcMarkBv mc rank = (if dev = 15 then 0 else 1) ∧ (dev ≠ 15 → t.fget .mcMarkBdev mc rank = dev) ∧
            old = (if s.fget .mcMarkBv mc rank = 1 then s.fget .mcMarkBdev mc rank else 15)))) ∧
    (s.kready id 0x0305 = some c → ∀ mc sub rank mask old, mc = bits (c.p 0) 0 4 → sub = bits (c.p 0) 4 1 → rank = bits (c.p 0) 8 4 →
      mask = bits (c.p 0) 32 32 → old = bits (s.rget .mcSuspect mc rank) (32 * sub) 32 →
      (s.rankUp mc rank = false → exec (.memBankAccept id) s = .next (s.kreply id rMemRangeInvalid)) ∧
      (s.rankUp mc rank = true →
        ∃ (t : State) (n : Nat), exec (.memBankAccept id) s = .next (t.kreply id 0 (BitVec.ofNat 64 n)) ∧ { t with cs := s.cs } = s ∧
          (∀ b < 32, bit (t.rget .mcSuspect mc rank) (32 * sub + b) = (old.testBit b && !mask.testBit b)) ∧
          n = ((List.range 32).filter (fun b => old.testBit b && mask.testBit b)).length)) ∧
    (s.kready id 0x0306 = some c →
      ((c.p 0).toNat % 64 ≠ 0 ∨ (c.p 1).toNat % 64 ≠ 0 → exec (.memCleanRange id) s = .next (s.kreply id rMemAlign)) ∧
      ((c.p 0).toNat % 64 = 0 → (c.p 1).toNat % 64 = 0 → s.member (pkgOf (c.p 0).toNat) = true →
        (c.p 0).toNat % 2 ^ 44 + (c.p 1).toNat ≤ s.dramOf (pkgOf (c.p 0).toNat) → s.outsideM c (c.p 0).toNat (c.p 1).toNat = false →
        ∃ t, exec (.memCleanRange id) s = .next t ∧ (∀ n < 16, (t.slice n).rcSet = some 0) ∧ (∀ n, (t.slice n).dup = (s.slice n).dup) ∧
          t.home.range = some { lo := (c.p 0).toNat / 64, hi := ((c.p 0).toNat + (c.p 1).toNat) / 64, flush := bit (c.p 2) 0, cmd := id })) ∧
    (∀ r n i, s.home.range = some r → (s.slice n).rcSet = some i → i < 64 → s.slotOwner n s.fcyc = none → (s.slice n).lastAdmit ≠ some s.fcyc →
      (s.slice n).rcOut = [] →
      (∀ d, (s.slice n).dup = [d] → d.line / 16 % 64 = i → r.lo ≤ d.line → d.line < r.hi → r.flush = true ∨ d.m = true →
        ∃ t, exec (.rangeCleanScan n) s = .next t ∧ (t.slice n).rcOut = [(d.line, d.core)] ∧ (t.slice n).rcSet = some (i + 1) ∧
          t.fab.net = s.fab.net ++ [{ kind := if r.flush then .snpInv else .snpShd, line := d.line, core := d.core, slice := n, at_ := s.fcyc + 4 }]) ∧
      ((∀ d ∈ (s.slice n).dup, d.line / 16 % 64 ≠ i ∨ d.line < r.lo ∨ r.hi ≤ d.line ∨ r.flush = false ∧ d.m = false) →
        ∃ t, exec (.rangeCleanScan n) s = .next t ∧ (t.slice n).rcSet = some (i + 1) ∧ { t with home := s.home } = s)) ∧
    (∀ r, s.home.range = some r → (∀ n < 16, (s.slice n).rcSet = some 64 ∧ (s.slice n).rcOut = []) → s.kfind r.cmd = none →
      ∃ t, exec .rangeCleanDone s = .next t ∧ t.home.range = none ∧ (∀ n < 16, (t.slice n).rcSet = none) ∧ { t with home := s.home } = s)

/-- R157: A beat of syndrome 0 is clean and gives its 64 payload bits. With any one of its 72 bits flipped it is corrected to those bits with that bit
named; with any two of them flipped it is uncorrectable. -/
def Obligations.SlipLaneCode : Prop :=
  ∀ (b : BitVec 72), beatSyndrome b = 0 →
    beatCheck b = .clean (b.truncate 64) ∧
    (∀ i, i < 72 → beatCheck (b ^^^ BitVec.ofNat 72 (2 ^ i)) = .fixed (b.truncate 64) i) ∧
    (∀ i j, i < j → j < 72 → beatCheck (b ^^^ BitVec.ofNat 72 (2 ^ i) ^^^ BitVec.ofNat 72 (2 ^ j)) = .bad)

/-- R158, R159, R160, R162, R163, R164, R165, R166: A clean frame delivers its payload; a frame with an uncorrectable beat is discarded and its replay
requested; the relaunch resumes with the named frame. The error window clears its counts. A repair that passes returns the group to service with the
failed position recorded and a spare used. The handover ends with MOVED as the group's state says. A clock failure retires the group, and where its
stream can no longer be carried fences the die with cause 1. A third missed sideband poll fences the die with cause 4, with every context EMPTY. The
delay of the replayed frame itself is left out (log 55). -/
def Obligations.SlipLanes : Prop :=
  ∀ (s : State) (d g : Nat),
    (s.dieUp d = true → s.slipOut d g = false → (s.slipG d g).discard = false → ∀ beats ds, 0 < beats.length → beats.length ≤ 2 →
      (beats.map beatCheck = ds.map BeatOut.clean →
        ∃ t, exec (.slipFrameReceive d g beats) s = .next t ∧ t.slipG d g = { s.slipG d g with payload := ds, rxFrame := (s.slipG d g).rxFrame + 1 } ∧
          { t with dies := s.dies, pmu := s.pmu } = s) ∧
      (BeatOut.bad ∈ beats.map beatCheck → (s.slipG d g).replays + 1 < max 1 (s.fget .slpCfgRplyLimit) →
        ((s.slipG d g).lastReplay.1 = (s.slipG d g).rxFrame → (s.slipG d g).lastReplay.2 < 3) →
        ∃ t, exec (.slipFrameReceive d g beats) s = .next t ∧ (t.slipG d g).discard = true ∧ (t.slipG d g).replayReq = some (s.slipG d g).rxFrame ∧
          (t.slipG d g).payload = (s.slipG d g).payload ∧ t.fget .slpGerrReplay d g = min (s.fget .slpGerrReplay d g + 1) (2 ^ Fld.slpGerrReplay.len - 1) ∧
          { t with dies := s.dies, cs := s.cs } = s)) ∧
    (∀ n, (s.slipG d g).replayReq = some n →
      ∃ t, exec (.slipReplayRequest d g n) s = .next t ∧ t.slipG d g = { s.slipG d g with discard := false, replayReq := none, rxFrame := n } ∧
        { t with dies := s.dies } = s) ∧
    ((s.slipG d g).winStart + 2 ^ min 40 (max 20 (s.fget .slpCfgWindow)) ≤ s.fcyc →
      ∃ t, exec (.slipErrorWindow d g) s = .next t ∧ t.slipG d g = { s.slipG d g with corr := [], replays := 0, winStart := s.fcyc } ∧
        { t with dies := s.dies } = s) ∧
    (∀ w, s.fget .slpGstatState d g = 1 → (s.slipG d g).repairEnd ≤ s.fcyc → w = s.fget .slpGstatDue d g → s.fget .slpGstatSpares d g < 2 →
      s.kiln.cmds = [] →
      ∃ t, exec (.slipRepairDone d g true) s = .next t ∧ t.fget .slpGstatState d g = 0 ∧ t.fget .slpGstatDue d g = 0x7F ∧ t.fget .slpGstatPending d g = 0 ∧
        t.fget .slpGstatSpares d g = s.fget .slpGstatSpares d g + 1 ∧
        (s.fget .slpGstatFailLo d g = 0x7F → t.fget .slpGstatFailLo d g = w) ∧
        (s.fget .slpGstatFailLo d g ≠ 0x7F → t.fget .slpGstatFailLo d g = min (s.fget .slpGstatFailLo d g) w ∧
          t.fget .slpGstatFailHi d g = max (s.fget .slpGstatFailLo d g) w) ∧
        (t.slipG d g).handEnd = s.fcyc + 8) ∧
    (0 < (s.slipG d g).handEnd → (s.slipG d g).handEnd ≤ s.fcyc →
      ∃ t, exec (.streamHandoverEnd d g) s = .next t ∧ t.fget .slpGstatMoved d g = b2n (s.slipOut d g) ∧ (t.slipG d g).handEnd = 0 ∧
        { t with cs := s.cs, dies := s.dies } = s) ∧
    (g < 16 → s.dieUp d = true → s.fget .slpGstatState d g = 0 →
      (((s.fput .slpGstatState d g 2).carried d = true →
        ∃ t, exec (.forwardedClockFailure d g) s = .next t ∧ t.fget .slpGstatState d g = 2 ∧ (t.fget .slpDstatRetired d).testBit g = true ∧
          t.fget .slpDstatState d = 1) ∧
      ((s.fput .slpGstatState d g 2).carried d = false →
        ∃ t, exec (.forwardedClockFailure d g) s = .next t ∧ t.fget .slpGstatState d g = 2 ∧ t.fget .slpDstatState d = 2 ∧ t.fget .slpDstatFenceCause d = 1))) ∧
    (s.dieUp d = true →
      (∃ t, exec (.sidebandPoll d true) s = .next t ∧ t.die d = { s.die d with polls := 0 } ∧ { t with dies := s.dies } = s) ∧
      ((s.die d).polls < 2 → ∃ t, exec (.sidebandPoll d false) s = .next t ∧ t.die d = { s.die d with polls := (s.die d).polls + 1 } ∧
        { t with dies := s.dies } = s) ∧
      ((s.die d).polls = 2 → ∃ t, exec (.sidebandPoll d false) s = .next t ∧ t.fget .slpDstatState d = 2 ∧ t.fget .slpDstatFenceCause d = 4 ∧
        (∀ c, c / 20 = d → (t.core c).rst = true ∧ (t.core c).clockOn = false ∧ ∀ i, (t.ctx c i).st = .empty)))

/-- R162, R166, R167, R169, R252: Each refuses a bad argument, a die in use or a link in service with its reason. DIE_OFFLINE resets the die's cores and
leaves it out of service; DIE_ONLINE of a die that matches brings every group and core back; LINK_REPAIR starts the repair window; LINK_QUERY gives
the group's or the reel link's registers and counts; LINK_TEST of a die out of service gives the wires that passed. The corners of DIE_ONLINE are
DEDUCED (log 18). -/
def Obligations.DieAndLinkCommands : Prop :=
  ∀ (s : State) (id : Nat) (c : KCmd) (d g : Nat), d = bits (c.p 0) 0 4 → g = bits (c.p 0) 8 4 →
    (s.kready id 0x0600 = some c →
      (12 ≤ d → exec (.dieOffline id) s = .next (s.kreply id rBadParameter)) ∧
      (d < 12 → (∃ k ∈ coresOf d, s.corePart k ≠ none) → exec (.dieOffline id) s = .next (s.kreply id rNotPermitted)) ∧
      (d < 12 → (∀ k ∈ coresOf d, s.corePart k = none) →
        ∃ t : State, exec (.dieOffline id) s = .next (t.kreply id 0) ∧ t.fget .slpDstatState d = 3 ∧ t.die d = { fuses := (s.die d).fuses, rstHeld := true } ∧
          (∀ k ∈ coresOf d, (t.core k).rst = true ∧ (t.core k).clockOn = false) ∧ (∀ k, k ∉ coresOf d → t.core k = s.core k) ∧
          { t with cs := s.cs, cores := s.cores, dies := s.dies } = s)) ∧
    (s.kready id 0x0601 = some c → ∀ bw rb,
      (12 ≤ d → exec (.dieOnline id bw rb) s = .next (s.kreply id rBadParameter)) ∧
      (d < 12 → s.dieUp d = true → exec (.dieOnline id bw rb) s = .next (s.kreply id 0)) ∧
      (d < 12 → s.dieUp d = false → s.fget .glbSetchkPass = 0 → exec (.dieOnline id bw rb) s = .next (s.kreply id rNotPermitted)) ∧
      (d < 12 → s.dieUp d = false → s.fget .glbSetchkPass = 1 → (∀ j < 16, s.fusedFails d j = []) →
        ∃ t : State, exec (.dieOnline id [] []) s = .next (t.kreply id 0) ∧ t.fget .slpDstatState d = 1 ∧ t.fget .slpDstatRetired d = 0 ∧
          (∀ j < 16, t.fget .slpGstatState d j = 0 ∧ t.fget .slpGstatSpares d j = 0) ∧ (t.die d).rstHeld = false ∧
          (∀ k ∈ coresOf d, (t.core k).rst = false ∧ ∀ i, (t.ctx k i).st = .empty) ∧ (∀ k, k ∉ coresOf d → t.core k = s.core k) ∧
          { t with cs := s.cs, cores := s.cores, dies := s.dies } = s)) ∧
    (s.kready id 0x0401 = some c →
      (d < 12 → s.fget .slpGstatSpares d g = 2 ∨ s.fget .slpGstatDue d g = 0x7F → exec (.linkRepair id) s = .next (s.kreply id rLinkNoSpare)) ∧
      (d < 12 → s.fget .slpGstatSpares d g ≠ 2 → s.fget .slpGstatDue d g ≠ 0x7F → s.fget .slpGstatState d g = 0 → (∀ j < 16, s.fget .slpGstatState d j = 0) →
        ∃ t, exec (.linkRepair id) s = .next t ∧ t.fget .slpGstatState d g = 1 ∧ (t.slipG d g).repairEnd = s.fcyc + 98304 ∧
          (t.slipG d g).handEnd = s.fcyc + 8 ∧ { t with cs := s.cs, dies := s.dies, kiln := s.kiln } = s)) ∧
    (s.kready id 0x0400 = some c →
      (bits (c.p 0) 0 6 < 12 → bits (c.p 0) 6 2 = 0 → exec (.linkQuery id) s = .next (s.kreply id 0 0
        ([s.rget .slpGstat (bits (c.p 0) 0 6) g, s.rget .slpGerr (bits (c.p 0) 0 6) g] ++ s.wireCounts (bits (c.p 0) 0 6) g))) ∧
      (bits (c.p 0) 0 6 < 10 → bits (c.p 0) 6 2 = 1 → exec (.linkQuery id) s = .next (s.kreply id 0 0
        [s.rget .reelStat (bits (c.p 0) 0 6), s.rget .reelErr (bits (c.p 0) 0 6)])) ∧
      (2 ≤ bits (c.p 0) 6 2 ∨ 12 ≤ bits (c.p 0) 0 6 → exec (.linkQuery id) s = .next (s.kreply id rBadParameter))) ∧
    (s.kready id 0x0402 = some c → ∀ passed x16 g64,
      (bits (c.p 0) 6 2 = 0 → bits (c.p 0) 0 6 < 12 →
        exec (.linkTest id passed x16 g64) s =
          .next (if s.dieOut (bits (c.p 0) 0 6) then s.kreply id 0 (passed.zeroExtend 64) else s.kreply id rNotPermitted)) ∧
      (bits (c.p 0) 6 2 = 1 → bits (c.p 0) 0 6 < 10 → s.fget .reelStatState (bits (c.p 0) 0 6) = 2 ∨ s.fget .reelStatState (bits (c.p 0) 0 6) = 3 →
        exec (.linkTest id passed x16 g64) s = .next (s.kreply id rNotPermitted)))

/-- R229, R231, R232, R233, R234, R249, R339: Each command answers PART_STATE, BUSY_DRAINING, NOT_PERMITTED or its check's reason where the state does not
admit it. PART_CREATE makes an empty partition with its ways; PART_ENABLE makes it ACTIVE and starts its first context at the entry with its
arguments; PART_DISABLE resets its cores, clears its routes, blocks its ports and drains; the end of the drain makes it DEFINED; PART_DESTROY releases
every resource; PART_QUERY gives its registers. A core reset whose requests have ended zeroes the context store and then leaves the core as reset. -/
def Obligations.PartitionLifecycle : Prop :=
  ∀ (s : State) (id : Nat) (c : KCmd) (p : Nat), p = bits (c.p 0) 0 6 →
    (s.kfind id = some c → c.started = true → c.running = false → pktOp c.pkt = 0x0100 →
      ((∃ q, q < 8 ∧ q ≠ s.pkg ∧ s.createSpan c / 2 ^ q % 2 = 1 ∧ s.member q = false) → exec (.partCreate id) s = .next (s.kreply id rLinkPeerAbsent)) ∧
      (s.createSpan c = 2 ^ s.pkg →
        (s.partState p = 3 → exec (.partCreate id) s = .next (s.kreply id rBusyDraining)) ∧
        (s.partState p = 1 ∨ s.partState p = 2 → exec (.partCreate id) s = .next (s.kreply id rPartState)) ∧
        (s.partState p = 0 →
          ∃ t : State, exec (.partCreate id) s = .next (t.kreply id 0 (BitVec.ofNat 64 (2 ^ s.pkg))) ∧ t.partState p = 1 ∧ t.isot p = bit (c.p 0) 8 ∧
            t.plat p = bit (c.p 0) 9 ∧ t.spanOf p = [s.pkg] ∧ t.part p = {} ∧ (∀ n < 16, t.fget .hsMscwayWays n p = s.openWays p) ∧
            (∀ q, q ≠ p → t.partState q = s.partState q) ∧ { t with cs := s.cs, parts := s.parts, kiln := s.kiln } = s))) ∧
    (s.kfind id = some c → c.started = true → c.running = false → pktOp c.pkt = 0x0105 → c.here = false →
      (∀ r, s.enableReason p = r → r ≠ 0 → exec (.partEnable id) s = .next (s.kreply id r)) ∧
      (s.enableReason p = 0 → s.firstCtx c p = none → exec (.partEnable id) s = .next (s.kreply id rBadParameter)) ∧
      (∀ k i, s.enableReason p = 0 → s.firstCtx c p = some (s.pkg, k, i) → s.isot p = false → s.spanOthers p = [] → s.home.scan = none → s.relaysOut id = false →
        s.kiln.got = [] → s.fget .pwrStatusHosthold = 0 → i ∉ (s.core k).readyQ →
        ∃ t : State, exec (.partEnable id) s = .next (t.kreply id 0) ∧ t.partState p = 2 ∧ (t.ctx k i).st = .ready ∧ (t.ctx k i).prv = .m ∧
          (t.ctx k i).pc = c.p 1 ∧ (t.ctx k i).getX 10 = c.p 2 ∧ (t.ctx k i).getX 11 = c.p 3 ∧ (t.core k).readyQ = (s.core k).readyQ ++ [i] ∧
          (∀ j, j ≠ k → t.core j = s.core j) ∧ { t with cs := s.cs, cores := s.cores, kiln := s.kiln } = s)) ∧
    (s.kready id 0x0106 = some c →
      (p = 0 → exec (.partDisable id) s = .next (s.kreply id rNotPermitted)) ∧
      (p ≠ 0 → s.partState p = 0 → exec (.partDisable id) s = .next (s.kreply id rPartState)) ∧
      (p ≠ 0 → s.partState p = 1 → exec (.partDisable id) s = .next (s.kreply id 0)) ∧
      (p ≠ 0 → s.partState p = 3 → exec (.partDisable id) s = .next (s.kreply id rBusyDraining)) ∧
      (p ≠ 0 → s.partState p = 2 →
        ∃ t, exec (.partDisable id) s = .next t ∧ t.partState p = 3 ∧ (t.part p).disableCmd = some id ∧
          (∀ k < 240, s.partHasCore p k = true → (t.core k).rst = true) ∧
          (∀ r, s.fget .irtRoutePart r = p → r ∈ (s.regsOf .irtRoute).map (fun e => e.1) → t.fget .irtRouteEn r = 0) ∧
          (∀ n < 20, s.partHasPort p n = true → t.fget .rptCtlBmblk n = 1))) ∧
    (s.partState p = 3 → s.drained p = true → (s.part p).disableCmd = some id →
      ∃ t : State, exec (.partitionDrainDone p) s = .next (t.kreply id 0) ∧ t.partState p = 1 ∧ (t.part p).disableCmd = none ∧
        { t with cs := s.cs, parts := s.parts } = s) ∧
    (s.kready id 0x0107 = some c →
      (p = 0 → exec (.partDestroy id) s = .next (s.kreply id rNotPermitted)) ∧
      (p ≠ 0 → s.partState p = 0 ∨ s.partState p = 2 → exec (.partDestroy id) s = .next (s.kreply id rPartState)) ∧
      (p ≠ 0 → s.partState p = 3 → exec (.partDestroy id) s = .next (s.kreply id rBusyDraining)) ∧
      (p ≠ 0 → s.partState p = 1 → s.spanOthers p = [] →
        ∃ t : State, exec (.partDestroy id) s = .next (t.kreply id 0) ∧ t.rget .prtCtl p = 0 ∧ t.part p = {} ∧ (∀ k < 240, t.partHasCore p k = false) ∧
          (∀ w < 16, bit (t.rget .prtWin p w) 0 = false) ∧ (∀ n < 20, t.partHasPort p n = false) ∧ (∀ n < 256, t.partHasDma p n = false) ∧
          (∀ n < 16, t.fget .hsMscwayWays n p = 0))) ∧
    (s.kready id 0x0108 = some c →
      (bits (c.p 0) 8 4 = 0 → exec (.partQuery id) s = .next (s.kreply id 0 0 ([s.rget .prtCtl p] ++ (List.range 4).map (fun i => s.rget .prtCore p i) ++
        (List.range 5).map (fun i => s.rget .prtIo p i) ++ [s.rget .hsMscway 0 p]))) ∧
      (bits (c.p 0) 8 4 = 1 → exec (.partQuery id) s = .next (s.kreply id 0 1 ((List.range 16).map (fun w => s.rget .prtWin p w)))) ∧
      (2 ≤ bits (c.p 0) 8 4 → exec (.partQuery id) s = .next (s.kreply id rBadParameter))) ∧
    (∀ k, (s.core k).rst = true → (s.core k).clockOn = true → (s.core k).sb = [] → (s.core k).miss = [] → s.fab.egress = [] → s.fab.devs = [] → s.home.ncDone = [] →
      s.home.ncq = [] → (s.core k).l2 = [] → (s.core k).evb = [] →
      ((s.core k).rstEnd = none → ∃ t, exec (.coreResetDone k) s = .next t ∧ t.core k = { s.core k with rstEnd := some (s.cyc k + 12288) } ∧ SameBesideCore s t k) ∧
      (∀ e, (s.core k).rstEnd = some e → e ≤ s.cyc k → (s.core k).exPart = none →
        ∃ t, exec (.coreResetDone k) s = .next t ∧ SameBesideCore s t k ∧
          t.core k = { cycBase := s.cyc k, cycRef := s.now, spill := (s.core k).spill, smpPi := (s.core k).smpPi }))

/-- R143, R180, R230, R232, R249: Each refuses a partition in the wrong state and an overlap with another partition with its reason. Cores that are free
join the partition and are reset; a fired granule range that overlaps no window fills the first free window register; free ports and channels join;
PART_SET_QOS that passes its check is applied and answered, after a scan of the MSC where an ISO-T partition gains ways. The scan leaves no line in
the partition's ways and none of its lines elsewhere. The order of the QoS checks is DEDUCED (log 28). -/
def Obligations.PartitionResources : Prop :=
  ∀ (s : State) (id : Nat) (c : KCmd) (p : Nat), p = bits (c.p 0) 0 6 →
    (∀ i op, (i, op) ∈ [(Instr.partAssignCores id, 0x0101), (Instr.partAssignMemory id, 0x0102), (Instr.partAssignIo id, 0x0103)] → s.kready id op = some c →
      (op = 0x0101 → ∀ n ∈ c.coreMask, n < 240) → (op = 0x0103 → ∀ n ∈ c.portMask, n < 20) →
      (s.partState p = 3 → exec i s = .next (s.kreply id rBusyDraining)) ∧
      (s.partState p = 0 → exec i s = .next (s.kreply id rPartState)) ∧
      (s.partState p = 2 → bit (c.p 0) 6 = true → exec i s = .next (s.kreply id rPartState))) ∧
    (s.kready id 0x0101 = some c → (∀ n ∈ c.coreMask, n < 240) → bit (c.p 0) 6 = false → s.partState p = 1 →
      ((∃ q n, q < 64 ∧ q ≠ p ∧ s.partState q ≠ 0 ∧ n ∈ c.coreMask ∧ s.partHasCore q n = true) →
        exec (.partAssignCores id) s = .next (s.kreply id rPartCoreOverlap)) ∧
      ((∀ q, q ≠ p → ∀ n ∈ c.coreMask, s.partHasCore q n = false) → (∀ n ∈ c.coreMask, s.partHasCore p n = false) → s.grantsFit p (s.grantsOf p) = true →
        (∀ n ∈ c.coreMask, s.fget .cdCrgrantGrant (dieOf n) p ≠ 0) → s.spanOthers p = [] →
        ∃ t : State, exec (.partAssignCores id) s = .next (t.kreply id 0 (BitVec.ofNat 64 (s.coresHeld p ++ c.coreMask).length)) ∧
          (∀ n, n < 240 → t.partHasCore p n = (s.partHasCore p n || c.coreMask.contains n)) ∧ (∀ n ∈ c.coreMask, (t.core n).rst = true))) ∧
    (s.kready id 0x0102 = some c → bit (c.p 0) 6 = false → s.partState p = 1 → ∀ u n, u = (c.p 1).toNat / 2 ^ 30 → n = (c.p 2).toNat → 0 < n →
      (c.p 1).toNat % 2 ^ 30 = 0 →
      (∀ w, (List.range 16).find? (fun w => !bit (s.rget .prtWin p w) 0) = some w → s.inDram (c.p 1).toNat (n * 2 ^ 30) = true →
        (c.p 1).toNat % 2 ^ 44 + n * 2 ^ 30 ≤ s.carveBase →
        ((∃ q v, q < 64 ∧ s.partState q ≠ 0 ∧ v ∈ s.windowsOf q ∧ v.1 < u + n ∧ u < v.1 + v.2) →
          exec (.partAssignMemory id) s = .next (s.kreply id rPartMemOverlap)) ∧
        ((∀ q < 64, s.partState q ≠ 0 → ∀ v ∈ s.windowsOf q, u + n ≤ v.1 ∨ v.1 + v.2 ≤ u) →
          ((∃ i < n, s.fired ((u + i) % 2 ^ 14) = false) → exec (.partAssignMemory id) s = .next (s.kreply id rPartMemNotFired)) ∧
          ((∀ i < n, s.fired ((u + i) % 2 ^ 14) = true) → s.spanOthers p = [] →
            ∃ t : State, exec (.partAssignMemory id) s = .next (t.kreply id 0 (BitVec.ofNat 64 w)) ∧
              t = s.rput .prtWin p w (BitVec.ofNat 64 (1 + u * 2 ^ 8 + n * 2 ^ 32)))))) ∧
    (s.kready id 0x0103 = some c → (∀ n ∈ c.portMask, n < 20) → bit (c.p 0) 6 = false → s.partState p = 1 →
      (∀ n ∈ c.portMask, bit s.kiln.cfg.reelMask (n / 2) = false) →
      ((∃ q n, q < 64 ∧ q ≠ p ∧ s.partState q ≠ 0 ∧ n ∈ c.portMask ∧ s.partHasPort q n = true) →
        exec (.partAssignIo id) s = .next (s.kreply id rPartIoOverlap)) ∧
      ((∀ q, q ≠ p → (∀ n ∈ c.portMask, s.partHasPort q n = false) ∧ ∀ n ∈ c.chanMask, s.partHasDma q n = false) →
        ∃ t : State, exec (.partAssignIo id) s = .next (t.kreply id 0) ∧
          (∀ n < 20, t.partHasPort p n = (s.partHasPort p n || c.portMask.contains n)) ∧
          (∀ n < 256, t.partHasDma p n = (s.partHasDma p n || c.chanMask.contains n)) ∧ { t with cs := s.cs } = s)) ∧
    (s.kready id 0x0104 = some c →
      (s.partState p = 0 → s.home.scan = none → exec (.partSetQos id) s = .next (s.kreply id rPartState)) ∧
      (∀ r, s.partState p = 1 → s.home.scan = none → s.qosReason c p = r → r ≠ 0 → exec (.partSetQos id) s = .next (s.kreply id r)) ∧
      (s.partState p = 1 → s.isot p = false → s.qosReason c p = 0 → exec (.partSetQos id) s = .next ((s.qosApply c p).kreply id 0)) ∧
      (s.partState p = 1 → s.isot p = true → s.qosReason c p = 0 → s.home.scan = none → bit (c.p 0) 10 = true →
        bits (c.p 4) 16 16 &&& (65535 ^^^ s.wayMask p) ≠ 0 →
        ∃ t, exec (.partSetQos id) s = .next t ∧ ∃ e, t.home.scan = some (p, id, e))) ∧
    (∀ e, s.home.scan = some (p, id, e) → e ≤ s.fcyc → s.kfind id = none →
      ∃ t, exec .mscScanDone s = .next t ∧ t.home.scan = none ∧
        (∀ l m, t.msc l = some m → s.wayMask p / 2 ^ m.way % 2 = 0 ∧ s.linePart l ≠ some p) ∧ t.cores = s.cores ∧ t.home.slices = s.home.slices)

/-- R238, R239, R240, R241, R242, R243, R244, R245: A doorbell of a busy slot leaves QUEUE_FULL; of a free one it takes the command and answers
BAD_LENGTH, BAD_OPCODE or BAD_PARAMETER, in that order of checks, or starts it; a command that must wait starts when it can. A reply has the command's
opcode, tag and status, RESULT and its words where it succeeds. Its write fills the slot's memory and shows REPLY, or writes the ring and raises its
bit; a notice fills the next entry of the page's notice area. -/
def Obligations.KilnCommandsAcceptedAndAnswered : Prop :=
  ∀ (s : State),
    (∀ p v n c s1, p < 64 → n = bits v 0 2 → c = ({ id := s.kiln.next, src := .mbx p n true, pkt := s.slotPkt p n, started := false } : KCmd) →
      s1 = { s.fput .mbxStatusBusy p 0 (s.fget .mbxStatusBusy p ||| 2 ^ n) with
               kiln := { s.kiln with cmds := s.kiln.cmds ++ [c], next := s.kiln.next + 1 } } →
      (s.partState p = 0 → exec (.mbxDoorbell .host p v) s = .next s) ∧
      (s.partState p ≠ 0 → (s.fget .mbxStatusBusy p).testBit n = true ∨ (s.fget .mbxStatusReply p).testBit n = true →
        exec (.mbxDoorbell .host p v) s = .next (s.fput .mbxStatusReason p 0 rQueueFull)) ∧
      (s.partState p ≠ 0 → (s.fget .mbxStatusBusy p).testBit n = false → (s.fget .mbxStatusReply p).testBit n = false → s.fget .pwrStatusState ≤ 1 →
        (pktLen c.pkt < 2 ∨ 64 < pktLen c.pkt → exec (.mbxDoorbell .host p v) s = .next (s1.kreply c.id rBadLength)) ∧
        (2 ≤ pktLen c.pkt → pktLen c.pkt ≤ 64 →
          (opLens (pktOp c.pkt) = none → exec (.mbxDoorbell .host p v) s = .next (s1.kreply c.id rBadOpcode)) ∧
          (∀ lo hi, opLens (pktOp c.pkt) = some (lo, hi) →
            (pktLen c.pkt < lo ∨ hi < pktLen c.pkt → exec (.mbxDoorbell .host p v) s = .next (s1.kreply c.id rBadLength)) ∧
            (lo ≤ pktLen c.pkt → pktLen c.pkt ≤ hi →
              (4 ≤ pktFlags c.pkt ∨ 8 ≤ pktTarget c.pkt ∧ pktTarget c.pkt ≠ 0xFF →
                exec (.mbxDoorbell .host p v) s = .next (s1.kreply c.id rBadParameter)) ∧
              (pktFlags c.pkt < 4 → pktTarget c.pkt = s.pkg → s.pkg < 8 → s.lost s.pkg = false → s.reel.relays = [] → s1.kcan c = true → (∀ o ∈ s.kiln.cmds, o.id ≠ s.kiln.next) →
                ∃ t, exec (.mbxDoorbell .host p v) s = .next t ∧ t.kiln = { s.kiln with cmds := t.kiln.cmds, next := s.kiln.next + 1 } ∧
                  t.kfind c.id = some { c with started := true } ∧ { t with cs := s.cs, kiln := s.kiln } = s)))))) ∧
    (∀ id c, s.kfind id = some c →
      (c.started = false → s.kcan c = true →
        ∃ t, exec (.deferredCommandStart id) s = .next t ∧ t.kfind id = some { c with started := true } ∧ { t with kiln := s.kiln } = s) ∧
      (s.kcan c = false → exec (.deferredCommandStart id) s = .next s)) ∧
    (∀ id c st res more, s.kfind id = some c → (∃ p n h, c.src = .mbx p n h) ∨ (∃ r, r < 4 ∧ c.src = .ring r) → s.reel.relays = [] → s.kiln.got = [] →
      (s.kreply id st res more).kiln.replies = s.kiln.replies ++ [{ src := c.src, notify := decide (pktFlags c.pkt % 2 = 1)
                                                                    pkt := replyPkt c st res more }] ∧
      (s.kreply id st res more).kiln.cmds.all (fun o => o.id != id) = true ∧ pktOp (replyPkt c st res more) = pktOp c.pkt ∧
      (st < 2 ^ 16 → more.length < 2 ^ 15 →
        replyStatus (replyPkt c st res more) = st ∧ pktLen (replyPkt c st res more) = (replyPkt c st res more).length) ∧
      (st = 0 → (replyPkt c st res more).drop 1 = res :: more) ∧ (st ≠ 0 → (replyPkt c st res more).drop 1 = [0])) ∧
    (∀ p n h nt pkt, s.kiln.replies = [{ src := .mbx p n h, notify := nt, pkt := pkt }] → p < 64 → n < 4 → pkt.length ≤ 32 →
      ∃ t, exec .replyWrite s = .next t ∧ t.kiln.replies = [] ∧ (∀ i w, pkt[i]? = some w → t.mbxWord (0x1000 * p + 0x900 + 0x100 * n + 8 * i) = w) ∧
        (t.fget .mbxStatusBusy p).testBit n = false ∧ (t.fget .mbxStatusReply p).testBit n = true ∧
        (nt = false → { t with kiln := s.kiln, cs := s.cs } = s)) ∧
    (∀ r nt w0 w1, s.kiln.replies = [{ src := .ring r, notify := nt, pkt := [w0, w1] }] → r < 4 → s.ringTakes r 2 = true → (∀ q < 4, s.ringState q ≠ 1) →
      s.fget .epRrpiIndex r + 2 < 2 ^ s.fget .epRingctlRk r → 2 ^ s.fget .epRingctlRk r ≤ 2 ^ 17 →
      ∃ t, exec .replyWrite s = .next t ∧ t.kiln.replies = [] ∧ bit (t.rget .epIstat) r = true ∧
        t.fget .epRrpiIndex r = s.fget .epRrpiIndex r + 2 ∧
        t.ep.host = s.ep.host ++ [(s.fget .epRrbaseBase r * 4096 + 8 * s.fget .epRrpiIndex r, [w0, w1])]) ∧
    (∀ p n i, s.kiln.mbxNotices = [(p, n)] → s.kiln.notices = [] → p < 64 → i = s.fget .mbxStatusNseq p →
      ∃ t, exec .noticeWrite s = .next t ∧ t.kiln.mbxNotices = [] ∧ t.fget .mbxStatusNseq p = (i + 1) % 256 ∧
        t.mbxWord (0x1000 * p + 0xD00 + 0x18 * (i % 32)) =
          BitVec.ofNat 64 (0xFFFF + n.tag * 2 ^ 16 + 3 * 2 ^ 32 + n.status * 2 ^ 48) ∧
        t.mbxWord (0x1000 * p + 0xD00 + 0x18 * (i % 32) + 8) = n.result ∧
        t.mbxWord (0x1000 * p + 0xD00 + 0x18 * (i % 32) + 16) = BitVec.ofNat 64 n.kind ∧ { t with kiln := s.kiln, cs := s.cs } = s)

/-- R218, R248, R252, R253, R254, R255, R256, R346: Each general command answers what its row says: ECHO its words; GET_INFO and GET_STATUS the package's
registers; SET_MODE sets one function's mode and gives it back, GET_MODE shows it; LOG_READ refuses a host that has cleared Bus Master Enable and
answers an empty log; LOG_CLEAR removes the records up to a sequence number; PMU_WINDOW_SET starts or stops a window; FW_STAGE takes an image that
verifies and is not older; FW_ACTIVATE waits for the switch, which runs the staged version. A kiln relay gives its reply, its command or its news to
this package. Alignment of a memory destination of LOG_READ is DEDUCED (log 31). -/
def Obligations.KilnGeneralCommands : Prop :=
  ∀ (s : State) (id : Nat) (c : KCmd),
    (s.kready id 0x0001 = some c → exec (.echo id) s = .next (s.kreply id 0 (c.p 0) (c.pkt.drop 2))) ∧
    (s.kready id 0x0002 = some c →
      (bits (c.p 0) 0 4 = 0 → ∃ carve ports : Nat, exec (.getInfo id) s = .next (s.kreply id 0 0
        [BitVec.ofNat 64 (s.ioRev + s.pkg * 2 ^ 16 + s.fget .reelSysMembers * 2 ^ 24 + s.setCode * 2 ^ 32), BitVec.ofNat 64 s.kiln.fwVersion,
          BitVec.ofNat 64 s.dramBytes, BitVec.ofNat 64 carve, BitVec.ofNat 64 (s.kiln.cfg.reelMask.toNat + ports * 2 ^ 10)]) ∧
        (s.npkg ≤ 1 → carve = 0) ∧ (∀ n < 20, ports.testBit n = s.portExists n) ∧ ports < 2 ^ 20) ∧
      (bits (c.p 0) 0 4 = 1 → exec (.getInfo id) s = .next (s.kreply id 0 1 [BitVec.ofNat 64 s.stripe, BitVec.ofNat 64 (s.fget .mcCfgLranks)])) ∧
      (2 ≤ bits (c.p 0) 0 4 → exec (.getInfo id) s = .next (s.kreply id rBadParameter))) ∧
    (s.kready id 0x0003 = some c → ∃ alarms : Nat, exec (.getStatus id) s = .next (s.kreply id 0 0
        [s.rget .glbSetchk, BitVec.ofNat 64 (s.mem.popReason + s.mem.popCh * 2 ^ 16 + s.mem.popSlot * 2 ^ 20), BitVec.ofNat 64 (s.fget .glbBootstatStage),
          BitVec.ofNat 64 s.firedUnits, BitVec.ofNat 64 s.kiln.log.length, BitVec.ofNat 64 alarms]) ∧
      alarms.testBit 0 = s.pins.hotN ∧ alarms.testBit 1 = s.pins.memhotN ∧ alarms / 4 % 4 = s.fget .glbErrstatPend ∧
      alarms / 16 % 16 = s.fget .glbErrstatFatal) ∧
    (s.kready id 0x0010 = some c → ∀ fn p, fn = bits (c.p 0) 0 8 → p = bits (c.p 0) 16 6 →
      (8 ≤ fn → exec (.setMode id) s = .next (s.kreply id rBadParameter)) ∧
      (fn < 8 → ∃ t : State, exec (.setMode id) s = .next (t.kreply id 0 (BitVec.ofNat 64 (b2n (s.modeOf fn p)))) ∧ t.modeOf fn p = bit (c.p 0) 8 ∧
        (∀ g q, g < 8 → (fn = 3 → q ≠ p ∨ g ≠ 3) → g ≠ fn ∨ fn = 3 → t.modeOf g q = s.modeOf g q) ∧
        { t with kiln := s.kiln, parts := s.parts, cs := s.cs } = s)) ∧
    (s.kready id 0x0011 = some c →
      (8 ≤ bits (c.p 0) 0 8 → exec (.getMode id) s = .next (s.kreply id rBadParameter)) ∧
      (bits (c.p 0) 0 8 < 8 →
        exec (.getMode id) s = .next (s.kreply id 0 (BitVec.ofNat 64 (b2n (s.modeOf (bits (c.p 0) 0 8) (bits (c.p 0) 16 6))))))) ∧
    (s.kfind id = some c → c.started = true → pktOp c.pkt = 0x0500 → c.running = false →
      ((s.srcPriv c.src).1 = 0 → s.bme = false → exec (.logRead id) s = .next (s.kreply id rEpBmeClear)) ∧
      ((s.srcPriv c.src).1 = 0 → s.bme = true → s.hostOn = true → s.logFor c = [] →
        ∃ t : State, exec (.logRead id) s = .next (t.kreply id 0 (BitVec.ofNat 64
          ((if bits (c.p 1) 32 16 = 0 then bits (c.p 1) 0 32 else s.fget .glbErrstatNextseq) * 2 ^ 32))) ∧ t.ep.host = s.ep.host) ∧
      ((s.srcPriv c.src).1 ≠ 0 → (c.p 0).toNat % 8 ≠ 0 → exec (.logRead id) s = .next (s.kreply id rNotPermitted))) ∧
    (s.kready id 0x0501 = some c → ∃ t : State, exec (.logClear id) s = .next (t.kreply id 0 (BitVec.ofNat 64 (s.kiln.log.length - t.kiln.log.length))) ∧
      t.kiln.log = s.kiln.log.filter (fun r => decide (bits (c.p 0) 0 32 < r.seq)) ∧ { t with kiln := { t.kiln with log := s.kiln.log } } = s) ∧
    (s.kready id 0x0700 = some c → ∀ w kind idx, w = bits (c.p 0) 0 5 → kind = bits (c.p 0) 8 3 → idx = bits (c.p 0) 16 5 → (s.srcPriv c.src).1 = 0 →
      (bwPorts kind ≤ idx → exec (.pmuWindowSet id) s = .next (s.kreply id rBadParameter)) ∧
      (idx < bwPorts kind → c.p 1 = 0 → exec (.pmuWindowSet id) s = .next ((s.fput .bwwCfgRun w 0 0).kreply id 0)) ∧
      (idx < bwPorts kind → c.p 1 ≠ 0 → (c.p 1).toNat < 2 ^ 40 →
        ∃ t : State, exec (.pmuWindowSet id) s = .next (t.kreply id 0) ∧ t.fget .bwwCfgRun w = 1 ∧ t.fget .bwwCfgKind w = kind ∧ t.fget .bwwCfgIndex w = idx ∧
          t.fget .bwwCfgFilter w = bits (c.p 0) 30 1 ∧ t.fget .bwwCfgPart w = bits (c.p 0) 24 6 ∧ t.fget .bwwCfgInterval w = max (c.p 1).toNat 1024 ∧
          Tab.get 0 t.pmu.bwA w = 0 ∧ Tab.get 0 t.pmu.bwB w = 0 ∧ { t with cs := s.cs, pmu := s.pmu } = s)) ∧
    (s.kready id 0x0800 = some c → ∀ img : Image,
      ((c.p 0).toNat % 8 ≠ 0 ∨ (c.p 1).toNat % 8 ≠ 0 ∨ 2 ^ 23 < (c.p 0).toNat + (c.p 1).toNat → exec (.fwStage id img) s = .next (s.kreply id rBadParameter)) ∧
      ((c.p 0).toNat % 8 = 0 → (c.p 1).toNat % 8 = 0 → (c.p 0).toNat + (c.p 1).toNat ≤ 2 ^ 23 →
        (img.sigOk = false → exec (.fwStage id img) s = .next (s.kreply id rFwSignatureInvalid)) ∧
        (img.sigOk = true → img.secLevel < s.kiln.fwLevel → exec (.fwStage id img) s = .next (s.kreply id rFwVersionRejected)) ∧
        (img.sigOk = true → s.kiln.fwLevel ≤ img.secLevel → exec (.fwStage id img) s =
          .next (({ s with kiln := { s.kiln with staged := some (img.version, img.secLevel) } }).kreply id 0 (BitVec.ofNat 64 img.version))))) ∧
    (s.kready id 0x0801 = some c →
      (s.kiln.staged = none → exec (.fwActivate id) s = .next (s.kreply id rFwNotStaged)) ∧
      (s.kiln.staged ≠ none → s.enginesRun = true → exec (.fwActivate id) s = .next (s.kreply id rBusyDraining)) ∧
      (s.kiln.staged ≠ none → s.enginesRun = false → s.reel.relays = [] →
        ∃ t, exec (.fwActivate id) s = .next t ∧ t.kiln.fwSwitch = some id ∧ t.kilnOpen = false ∧ t.kiln.fwVersion = s.kiln.fwVersion ∧
          { t with kiln := s.kiln } = s)) ∧
    (∀ v l, s.kiln.fwSwitch = some id → s.kiln.staged = some (v, l) → (∀ k ∈ s.kiln.cmds, k.started = true → k.id = id) → s.ep.rings = [] →
      ∃ t, exec .fwSwitch s = .next t ∧ t.kiln.fwVersion = v ∧ t.kiln.fwLevel = l ∧ t.kiln.fwSwitch = none ∧ t.kiln.staged = none ∧ t.cores = s.cores ∧
        t.home = s.home ∧ t.mem = s.mem) ∧
    (∀ src x rid pkt, s.reelCtl (fun x => x.msg.op == .krelay && x.msg.src == src) = some x →
      exec (.krelay src (.reply rid pkt)) s = .next ((s.takeReel x.msg).kreplied rid pkt) ∧
      (∀ priv part here, exec (.krelay src (.command pkt priv part rid here)) s =
        .next ((s.takeReel x.msg).kreceive (.peer src rid priv part here) pkt)) ∧
      (∀ q, exec (.krelay src (.expel q)) s =
        .next { s.takeReel x.msg with reel := { (s.takeReel x.msg).reel with told := (s.takeReel x.msg).reel.told ++ [.expel q] } }) ∧
      (∀ p q wins cores w, p < 64 → wins[w]? ≠ none → wins.length ≤ 32 →
        ∃ t, exec (.krelay src (.windowCopy p q wins cores)) s = .next t ∧ wins[w]? = some (Tab.get 0 (t.part p).remWin (q * 32 + w)) ∧
          { t with parts := s.parts } = s.takeReel x.msg))

/-- R289, R290, R291, R294, R295, R296: A ring that fails its check stays disabled with the reason; one that passes is enabled with its sizes and zero
indices; clearing EN drops its replies and drains its reads. A producer index starts the read of the new units. A good completion stores the units;
another halts the ring with its reason, sets its event and the AER bit; one with an unknown tag is unexpected; a read past its timeout is quarantined,
halts the ring and sets the AER bit. -/
def Obligations.EndpointRings : Prop :=
  ∀ (s : State) (r : Nat), r < 4 →
    (∀ v s1, s.barOn = true → s.fget .epRingctlEn r = 0 → bit v 0 = true → s1 = s.epUse.rwrite .epRingctl r 0 (setBit v 0 false) →
      (∀ e, s1.ringReason r = some e → ∃ t, exec (.ringEnable r v) s = .next t ∧ t.fget .epRingctlEn r = 0 ∧
        t.fget .epReasonReason = e % 2 ^ Fld.epReasonReason.len ∧ t.fget .epReasonRing = r ∧ t.fget .epRingstatState r = s.fget .epRingstatState r ∧
        { t with cs := s.cs } = s.epUse) ∧
      (s1.ringReason r = none → ∃ t, exec (.ringEnable r v) s = .next t ∧ t.fget .epRingctlEn r = 1 ∧ t.ringState r = 1 ∧ t.fget .epRingctlCk r = bits v 8 5 ∧
        t.fget .epRingctlRk r = bits v 16 5 ∧ t.rget .epCrpi r = 0 ∧ t.rget .epCrci r = 0 ∧ t.rget .epRrpi r = 0 ∧ t.rget .epRrci r = 0 ∧ t.ring r = {}) ∧
      (s.ringState r = 3 → s1.ringReason r = some rBusyDraining) ∧
      (s.ringState r ≠ 3 → bits v 8 5 < 9 ∨ 17 < bits v 8 5 ∨ bits v 16 5 < 9 ∨ 17 < bits v 16 5 → s1.ringReason r = some rEpRingSize) ∧
      (s1.ringReason r = none → s.bme = true ∧ s.fget .epCrbaseBase r * 4096 % (8 * 2 ^ bits v 8 5) = 0 ∧
        s.fget .epRrbaseBase r * 4096 % (8 * 2 ^ bits v 16 5) = 0)) ∧
    (∀ v, s.barOn = true → s.fget .epRingctlEn r = 1 →
      (bit v 0 = true → exec (.ringEnable r v) s = .next s.epUse) ∧
      (bit v 0 = false → ∃ t, exec (.ringDisable r v) s = .next t ∧ t.fget .epRingctlEn r = 0 ∧ t.ring r = {} ∧
        t.ringState r = (if s.ringReads r = 0 then 0 else 3) ∧ (∀ p ∈ t.kiln.replies, p.src ≠ .ring r) ∧ t.ep.reads = s.ep.reads)) ∧
    (∀ v, s.barOn = false → exec (.ringEnable r v) s = .next s ∧ exec (.ringDisable r v) s = .next s ∧ exec (.crpiWrite r v) s = .next s) ∧
    (∀ v x, s.barOn = true → s.bme = true → s.ep.reads = [] → s.ringState r = 1 → (∀ q < 4, q ≠ r → s.ringState q ≠ 1) → s.ringHeld r = false → (s.ring r).reqd = 0 →
      s.fget .epRingctlCk r = 9 → 0 < bits v 0 17 → bits v 0 17 ≤ 16 → x = ({ tag := 0, ring := r, unit := 0, n := bits v 0 17, issued := s.now } : EpRead) →
      ∃ t, exec (.crpiWrite r v) s = .next t ∧ t.ep.reads = [x] ∧ (t.ring r).reqd = bits v 0 17 ∧ t.fget .epCrpiIndex r = bits v 0 17 ∧
        t.fget .epRingstatTags r = 1 ∧ t.fget .epStatusBusy = 1) ∧
    (∀ x units, s.ep.perst = false → s.ep.link ≠ 0 → s.ep.reads = [x] → x.ring = r → x.quar = false → s.hostOn = false →
      (s.ringState r = 1 → (s.ring r).gap = none → units.length = x.n → s.kilnOpen = false →
        ∃ t, exec (.ringReadCompletion x.tag .ok units) s = .next t ∧ t.ep.reads = [] ∧ t.ringState r = 1 ∧
          (∀ i < x.n, Tab.find (t.ring r).got (x.unit + i) = units[i]?)) ∧
      (s.ringState r = 1 → ∀ st, st ≠ .ok →
        ∃ t, exec (.ringReadCompletion x.tag st units) s = .next t ∧ t.ep.reads = [] ∧ t.ringState r = 2 ∧
          t.fget .epRingstatReason r = (if st = .ep then rPoisoned else rDeviceError) ∧ bit (t.rget .epIstat) (8 + r) = true ∧
          (st = .ur → bit (t.cfgW 0x04) 29 = true) ∧ (st = .ca → bit (t.cfgW 0x04) 28 = true) ∧ (st = .ep → bit (t.cfgW 0x104) 12 = true))) ∧
    (∀ tag st units, s.ep.perst = false → s.ep.link ≠ 0 → (∀ x ∈ s.ep.reads, x.tag ≠ tag) →
      exec (.ringReadCompletion tag st units) s = .next (s.setCfg 0x104 (setBit (s.cfgW 0x104) 16 true))) ∧
    (∀ x n, s.ep.reads = [x] → x.quar = false → x.ring = r → s.cplTimeout = some n → x.issued + n ≤ s.now →
      ∃ t, exec (.ringReadTimeout x.tag) s = .next t ∧ t.ep.reads = [{ x with quar := true }] ∧ bit (t.cfgW 0x104) 14 = true ∧
        bit (t.rget .epIstat) 17 = true ∧ t.fget .epStatusQuar = 1 ∧ t.fget .epStatusBusy = 0 ∧
        (s.ringState r = 1 → t.ringState r = 2 ∧ t.fget .epRingstatReason r = rTimeout))

/-- R283, R284, R293, R297, R298, R299, R300, R301: MSI-X enable and unmask send what was pending; Bus Master Enable and PMCSR take effect; an FLR clears
the function, quarantines its reads, keeps its link and its sticky registers, and holds configuration for 10 us; PERST# and link down reset the link
and drop every read; neither touches cores, homes or memory. The link comes up, enters L0s or L1 where it is idle and enabled, and answers
PME_Turn_Off. The configuration defaults are PRESUMED from PCIe (log 29). -/
def Obligations.EndpointFunctionAndLink : Prop :=
  ∀ (s : State),
    (∀ on, s.ep.perst = false → bit (s.cfgW 0xA0) 31 ≠ on →
      ∃ t, exec (.msixEnableChange on) s = .next t ∧ bit (t.cfgW 0xA0) 31 = on ∧ (on = false → t.ep.pba = 0)) ∧
    (∀ v, s.hostOn = true → bit s.ep.pba v = true → s.ep.pba = BitVec.ofNat 64 (2 ^ v) → bit (s.cfgW 0xA0) 31 = true → bit (s.cfgW 0xA0) 30 = false →
      v < 64 → s.barOn = true → s.ep.link = 1 →
      ∃ t, exec (.msixUnmask (some v)) s = .next t ∧ t.ep.pba = 0 ∧
        t.ep.sent = s.ep.sent ++ [((s.msixW (v * 4)).zeroExtend 64 + (s.msixW (v * 4 + 1)).zeroExtend 64 * 2 ^ 32, s.msixW (v * 4 + 2))]) ∧
    (exec .busMasterEnableClear s = .next (s.setCfg 0x04 (setBit (s.cfgW 0x04) 2 false))) ∧
    (s.ep.perst = false → s.ep.pba = 0 → (∀ r < 4, s.ringState r ≠ 1) →
      exec .busMasterEnableSet s = .next (s.setCfg 0x04 (setBit (s.cfgW 0x04) 2 true))) ∧
    (∀ v, s.ep.perst = false → s.ep.cfgHeld = none → bits v 0 2 = 3 →
      ∃ t, exec (.pmcsrWrite v) s = .next t ∧ t.d3 = true ∧ bit (t.cfgW 0x44) 8 = bit v 8 ∧
        bit (t.cfgW 0x44) 15 = (bit (s.cfgW 0x44) 15 && !bit v 15) ∧ { t with ep := s.ep, pins := s.pins } = s) ∧
    (s.ep.perst = false → s.ep.link ≠ 0 →
      ∃ t, exec .flr s = .next t ∧ t.ep.cfgHeld = some (s.now + 32000) ∧ t.ep.link = s.ep.link ∧ t.ep.pba = 0 ∧ t.ep.msix = [] ∧ t.ep.rings = [] ∧
        (∀ x ∈ t.ep.reads, x.quar = true) ∧ (∀ r < 4, t.fget .epRingctlEn r = 0 ∧ t.ringState r = 0) ∧
        (∀ p ∈ t.kiln.replies, ∀ r < 4, p.src ≠ .ring r) ∧ t.bme = false ∧ bits (t.cfgW 0x58) 5 3 = bits (s.cfgW 0x58) 5 3 ∧
        t.cores = s.cores ∧ t.home = s.home ∧ t.mem = s.mem) ∧
    (∀ u, s.ep.cfgHeld = some u → u ≤ s.now → exec .flrComplete s = .next { s with ep := { s.ep with cfgHeld := none } }) ∧
    (s.ep.perst = false →
      ∃ t, exec (.perstChange true) s = .next t ∧ t.ep.perst = true ∧ t.ep.link = 0 ∧ t.ep.reads = [] ∧ bit (t.cfgW 0x44) 8 = false ∧ t.bme = false ∧
        (∀ r < 4, t.ringState r = 0) ∧ t.cores = s.cores ∧ t.home = s.home ∧ t.mem = s.mem) ∧
    (s.ep.perst = true → exec (.perstChange false) s = .next { s with ep := { s.ep with perst := false } }) ∧
    (s.ep.link ≠ 0 →
      ∃ t, exec .endpointLinkDown s = .next t ∧ t.ep.link = 0 ∧ t.ep.reads = [] ∧ t.ep.cfgHeld = none ∧ (∀ r < 4, t.ringState r = 0) ∧ t.cores = s.cores ∧
        t.home = s.home ∧ t.mem = s.mem) ∧
    (s.ep.perst = false → s.kiln.aonHeld = false → s.ep.pba = 0 → s.bme = false →
      ∃ t, exec .endpointLinkUp s = .next t ∧ t.ep.link = 1 ∧ t.pins.wakeN = false ∧ { t with ep := s.ep, pins := s.pins } = s) ∧
    (s.epQuiet = true →
      (s.ep.link = 1 → bit (s.cfgW 0x60) 0 = true → s.ep.idleSince + 3200 ≤ s.now →
        exec .aspmL0sEntry s = .next { s with ep := { s.ep with link := 2 } }) ∧
      (s.ep.link = 1 ∨ s.ep.link = 2 → bit (s.cfgW 0x60) 1 = true → s.ep.idleSince + 102400 ≤ s.now →
        exec .aspmL1Entry s = .next { s with ep := { s.ep with link := 3 } })) ∧
    (s.ep.link ≠ 0 → s.ep.perst = false →
      ∃ t, exec .pmeTurnOff s = .next t ∧ t.ep = { s.ep with link := 4, pmeAck := true } ∧ { t with ep := s.ep, pins := s.pins } = s ∧
        (bit (s.cfgW 0x44) 8 = true → bit (s.cfgW 0x44) 15 = true → t.pins.wakeN = true))

/-- R258, R259, R262, R263, R264, R272: A core enters the deepest state it may choose: CS1 stops its clock, CS2 drops its L1s and TLBs, CS3 its L2,
reservations and watches after the L2 has been flushed; contexts stay. An exit that is due leaves the core or die in its target state. A die enters
DS2 or DS1 where its cores and deadlines allow. The control registers set the deepest state and start an exit where the unit is deeper; PWR_SPILL runs
its check. The spilled copy is modelled as state kept in place (log 61). -/
def Obligations.CoreAndDiePowerStates : Prop :=
  ∀ (s : State) (c d : Nat),
    (s.dieUp (dieOf c) = true → (s.core c).rst = false → (s.core c).exitDue = none → (s.core c).cst = .cs0 →
      (s.coreChoice c = 1 → ∃ t, exec (.coreStateEntry c) s = .next t ∧ (t.core c).cst = .cs1 ∧ (t.core c).clockOn = false ∧
        t.fget .pwrCorectlState c = 1 ∧ (t.core c).l2 = (s.core c).l2 ∧ (t.core c).ctxs = (s.core c).ctxs ∧ (t.core c).resv = (s.core c).resv ∧
        { t with cs := s.cs, cores := s.cores } = s) ∧
      (s.coreChoice c = 2 → ∃ t, exec (.coreStateEntry c) s = .next t ∧ (t.core c).cst = .cs2 ∧ (t.core c).l1d = [] ∧ (t.core c).l1i = [] ∧
        (t.core c).itlb = [] ∧ (t.core c).dtlb = [] ∧ (t.core c).stlb = [] ∧ (t.core c).l2 = (s.core c).l2 ∧ (t.core c).ctxs = (s.core c).ctxs) ∧
      (s.coreChoice c = 3 → (s.core c).l2 = [] → ∃ t, exec (.coreStateEntry c) s = .next t ∧ (t.core c).cst = .cs3 ∧ (t.core c).resv = [] ∧
        (t.core c).watch = [] ∧ (t.core c).ctxs = (s.core c).ctxs) ∧
      (s.coreChoice c = 3 → (s.core c).l2 ≠ [] → exec (.coreStateEntry c) s = .next (s.flushL2 c)) ∧
      (s.coreChoice c = 0 → exec (.coreStateEntry c) s = .next s)) ∧
    (∀ e due, (s.core c).exitDue = some (e, due) →
      (due ≤ s.now → (s.die (dieOf c)).dst = 0 → s.fget .pwrStatusHosthold = 0 →
        ∃ t, exec (.coreExitDone c) s = .next t ∧ (t.core c).cst = e ∧ (t.core c).clockOn = decide (e = .cs0) ∧ (t.core c).exitDue = none ∧
          (t.core c).cycRef = s.now ∧ t.fget .pwrCorectlState c = e.num ∧ (t.core c).ctxs = (s.core c).ctxs ∧ (∀ j, j ≠ c → t.core j = s.core j) ∧
          { t with cs := s.cs, cores := s.cores } = s) ∧
      (s.now < due → exec (.coreExitDone c) s = .next s)) ∧
    (s.dieUp d = true → (s.die d).exitDue = none → (s.die d).dst = 0 →
      (2 ≤ s.fget .pwrDiectlDeepest d → s.dieMay d 2 = true → tMeets (s.dieT d) 500000 = true →
        ∃ t, exec (.dieStateEntry d) s = .next t ∧ (t.die d).dst = 2 ∧ t.fget .pwrDiectlState d = 2 ∧ { t with cs := s.cs, dies := s.dies } = s) ∧
      (s.fget .pwrDiectlDeepest d = 1 → s.dieMay d 1 = true → tMeets (s.dieT d) 1000 = true →
        ∃ t, exec (.dieStateEntry d) s = .next t ∧ (t.die d).dst = 1 ∧ t.fget .pwrDiectlState d = 1 ∧ { t with cs := s.cs, dies := s.dies } = s) ∧
      (s.dieMay d 1 = false → s.dieMay d 2 = false → exec (.dieStateEntry d) s = .next s)) ∧
    (∀ e due, (s.die d).exitDue = some (e, due) → due ≤ s.now → e < 4 →
      ∃ t, exec (.dieExitDone d) s = .next t ∧ t.die d = { s.die d with dst := e, exitDue := none } ∧ t.fget .pwrDiectlState d = e % 2 ^ Fld.pwrDiectlState.len ∧
        { t with cs := s.cs, dies := s.dies } = s) ∧
    (∀ v, c < 240 →
      ((s.core c).cst.num ≤ bits v 0 2 → exec (.pwrCorectlWrite .host c v) s = .next (s.fput .pwrCorectlDeepest c 0 (bits v 0 2))) ∧
      (bits v 0 2 < (s.core c).cst.num → (s.core c).exitDue = none → (s.core c).cst ≠ .cs1 →
        ∃ t, exec (.pwrCorectlWrite .host c v) s = .next t ∧ t.fget .pwrCorectlDeepest c = bits v 0 2 ∧
          (t.core c).exitDue = some (CState.ofNum (bits v 0 2), s.now))) ∧
    (∀ v, d < 12 →
      ((s.die d).dst ≤ bits v 0 2 → exec (.pwrDiectlWrite .host d v) s = .next (s.fput .pwrDiectlDeepest d 0 (bits v 0 2))) ∧
      (bits v 0 2 < (s.die d).dst → (s.die d).exitDue = none →
        ∃ t, exec (.pwrDiectlWrite .host d v) s = .next t ∧ t.fget .pwrDiectlDeepest d = bits v 0 2 ∧
          (t.die d).exitDue = some (0, s.now + if (s.die d).dst = 1 then 3200 else 624000))) ∧
    (∀ v, c < 240 →
      ((s.core c).cst = .cs3 → exec (.pwrSpillWrite .host c v) s = .next s) ∧
      ((s.core c).cst ≠ .cs3 → s.fget .pwrSpillEn c = 0 → bit v 0 = true →
        (∀ r, s.spillReason c (bits v 20 32 * 2 ^ 20) = some r →
          ∃ t, exec (.pwrSpillWrite .host c v) s = .next t ∧ t.fget .pwrSpillEn c = 0 ∧ t.fget .pwrReasonReason = r % 2 ^ Fld.pwrReasonReason.len ∧
            t.fget .pwrReasonIndex = c ∧ { t with cs := s.cs } = s) ∧
        (s.spillReason c (bits v 20 32 * 2 ^ 20) = none →
          ∃ t, exec (.pwrSpillWrite .host c v) s = .next t ∧ t.fget .pwrSpillEn c = 1 ∧ t.fget .pwrSpillBase c = bits v 20 32 ∧
            { t with cs := s.cs, home := s.home } = s)))

/-- R250, R260, R264, R265, R266, R267, R269, R270, R273, R275: PWR_SET_PACKAGE refuses a bad or unreachable state and else holds every context and starts
the entry; each step that has completed leads to the next, the self-refresh step marks every rank, and the last reaches the state. Exit undoes the
steps. A wake source that acts records itself and turns the package around; one that does not changes nothing. WAKE_IN routes, its stuck and unstuck
times and a mask's expiry follow the pins. A die or core that misses its restore times is fenced with the cause. -/
def Obligations.PackagePowerStates : Prop :=
  ∀ (s : State),
    (∀ id c, s.kready id 0x0200 = some c → ∀ a, a = bits (c.p 0) 0 4 →
      (4 ≤ a → a ≠ 15 → exec (.pwrSetPackage id) s = .next (s.kreply id rBadParameter)) ∧
      (1 ≤ a → a ≤ 3 → s.pkgUnreachable c a = true → exec (.pwrSetPackage id) s = .next (s.kreply id rPwrStateUnreachable)) ∧
      (1 ≤ a → a ≤ 3 → s.pkgUnreachable c a = false → s.pwr.cmd = none → s.inPs0 = true → s.pwr.woken = false →
        ∃ t, exec (.pwrSetPackage id) s = .next t ∧ t.pwr.step = 1 ∧ t.pwr.target = a ∧ t.pwr.cmd = some id ∧ t.fget .pwrStatusReq = a ∧
          t.fget .pwrStatusHosthold = 1 ∧
          (∀ k i, (k, s.core k) ∈ s.cores → (i, s.ctx k i) ∈ (s.core k).ctxs → (s.ctx k i).st ≠ .empty → i < 1024 → (s.core k).cst.num < 2 →
            (t.ctx k i).hold = true))) ∧
    (s.pwr.step = 1 → s.pwr.undo = false → s.pwr.woken = false → 1 ≤ s.pwr.target → s.pwr.target ≤ 3 →
      (∀ e ∈ s.cores, e.2.sb = [] ∧ ∀ x ∈ e.2.ctxs, x.2.st ≠ .miss ∧ x.2.st ≠ .active) →
      ∃ t, exec .pkgQuiesceDone s = .next t ∧ t.fget .pwrStatusStep = 1 ∧ t.pwr.step = 2 ∧ t.fget .pwrStatusExiting = 0) ∧
    (s.pwr.undo = false → s.pwr.woken = false →
      (s.pwr.step = 2 → s.pwr.target = 1 → s.pwr.cmd = none → (∀ d < 12, s.dieUp d = true → (s.die d).dst = 2) →
        ∃ t, exec .pkgEntryStepDone s = .next t ∧ t.fget .pwrStatusStep = 2 ∧ t.fget .pwrStatusState = 1 ∧ t.pwr.step = 0) ∧
      (s.pwr.step = 4 → 2 ≤ s.pwr.target → s.pwr.target ≤ 3 →
        ∃ t, exec .pkgEntryStepDone s = .next t ∧ t.fget .pwrStatusStep = 4 ∧ t.pwr.step = 5 ∧
          (∀ mc < 16, ∀ r < s.fget .mcCfgLranks mc, r < 16 → Tab.find t.mem.ranks (mc * 16 + r) = some { inSr := true, srClean := true, seed := s.tb })) ∧
      (s.pwr.step = 5 → s.pwr.target = 2 → s.pwr.cmd = none →
        ∃ t, exec .pkgEntryStepDone s = .next t ∧ t.fget .pwrStatusStep = 5 ∧ t.fget .pwrStatusState = 2 ∧ t.pwr.step = 0 ∧ t.home.msc = [])) ∧
    (s.pwr.undo = true → s.pwr.step = 4 → s.pwr.woken = true →
      ∃ t, exec .pkgExitStepDone s = .next t ∧ t.fget .pwrStatusStep = 3 ∧ t.pwr.step = 3 ∧ t.pwr.undo = true ∧ t.fget .pwrStatusExiting = 1 ∧ t.mem.ranks = []) ∧
    (∀ src port, s.wakeActs src = false → exec (.packageWake src port) s = .next s) ∧
    (∀ port, s.wakeActs 0 = true → s.pwr.step = 0 → s.fget .pwrStatusState = 2 → s.fget .pwrStatusStep = 5 → s.fget .pwrStatusReq ≠ 15 → s.pwr.cmd = none →
      s.pwr.undo = false → s.npkg ≤ 1 →
      ∃ t, exec (.packageWake 0 port) s = .next t ∧ (t.fget .pwrWakesrcPend).testBit 0 = true ∧ t.fget .pwrStatusReq = 0 ∧ t.pwr.woken = true ∧ t.pwr.step = 5 ∧
        t.pwr.undo = true ∧ t.fget .pwrStatusExiting = 1) ∧
    (s.fget .pwrStatusReq ≠ 15 → ∃ t, exec .pkgAutoEntry s = .next t ∧ t.fget .pwrStatusIsothold = 0 ∧ { t with cs := s.cs } = s) ∧
    (∀ c v, s.coreT c = some v →
      (s.exitLatency 0 c < v → exec (.deadlinePrewake 0 c) s = .next s) ∧
      (v ≤ s.exitLatency 0 c → exec (.deadlinePrewake 0 c) s = .next (s.startExit c 0))) ∧
    (∀ k n p, n < 8 ∨ p < 1750 ∨ 2250 < p → exec (.reelWakePattern k n p) s = .next s) ∧
    (∀ i, i < 2 → bit s.pwr.wakeHigh i = false → s.inPs0 = false → bit (BitVec.ofNat 2 (s.fget .pwrWakesrcStuck)) i = true →
      ∃ t, exec (.wakeInChange i true) s = .next t ∧ bit t.pwr.wakeHigh i = true ∧ Tab.get 0 t.pwr.wakeSince i = s.now ∧ 426 + i ∈ t.pwr.routeOnPs0 ∧
        t.pwr.step = s.pwr.step) ∧
    (∀ i, i < 2 →
      (bit s.pwr.wakeHigh i = true → (s.fget .pwrWakesrcStuck).testBit i = false → Tab.get 0 s.pwr.wakeSince i + 3200000000 ≤ s.now →
        ∃ t, exec (.wakeInStuck i) s = .next t ∧ (t.fget .pwrWakesrcStuck).testBit i = true) ∧
      (bit s.pwr.wakeHigh i = false → (s.fget .pwrWakesrcStuck).testBit i = true → Tab.get 0 s.pwr.wakeSince i + 32000000 ≤ s.now →
        ∃ t, exec (.wakeInUnstuck i) s = .next t ∧ (t.fget .pwrWakesrcStuck).testBit i = false)) ∧
    (∀ i, i < 2 → (s.fget .pwrWakesrcMasked).testBit i = true → (Tab.get (0, 0, 0) s.pwr.chat i).2.2 + 3200000000 ≤ s.now →
      ∃ t, exec (.wakeMaskExpiry 0 i) s = .next t ∧ (t.fget .pwrWakesrcMasked).testBit i = false) ∧
    (∀ d, d < 12 → s.dieUp d = true → (s.die d).exitDue ≠ none →
      (∃ t, exec (.restoreReadyTimeout 0 d) s = .next t ∧ t.fget .slpDstatState d = 2 ∧ t.fget .slpDstatFenceCause d = 5) ∧
      (∃ t, exec (.restoreReadyTimeout 1 d) s = .next t ∧ t.fget .slpDstatState d = 2 ∧ t.fget .slpDstatFenceCause d = 6) ∧
      (∃ t, exec (.restoreReadyTimeout 2 d) s = .next t ∧ t.fget .slpDstatState d = 2 ∧ t.fget .slpDstatFenceCause d = 3))

/-- R250, R276, R277, R279, R280: A transition's voltage and frequency phases follow one another at their times, with the clocks stopped during the
change. The commands refuse values out of range and else act and answer. A power sample over the limit lowers one die's cap by a step, and one within
the band leaves the caps. A die over its throttle temperature loses a P-state at most once a millisecond; HOT_N caps every die at the lowest P-state
and its release clears it; MEMHOT_N throttles memory. -/
def Obligations.VoltageFrequencyAndHeat : Prop :=
  ∀ (s : State) (d : Nat), d < 12 →
    (∀ g due ph, (s.die d).vf = some (g, due, ph) → g < 8 →
      (s.now < due → exec (.vfTransitionDone d) s = .next s) ∧
      (due ≤ s.now → ph = 0 →
        ∃ t, exec (.vfTransitionDone d) s = .next t ∧ t.fget .pwrDiectlVcode d = s.vCode d g ∧ (t.die d).vf = some (g, s.now + 3200, 1) ∧
          (∀ c ∈ s.fChanges d g, (t.core c).clockOn = false ∧ t.cyc c = s.cyc c) ∧ (∀ c, c ∉ s.fChanges d g → t.core c = s.core c) ∧
          t.fget .pwrDiectlPstate d = s.fget .pwrDiectlPstate d) ∧
      (due ≤ s.now → ph = 2 → g ≠ s.fget .pwrDiectlPstate d →
        ∃ t, exec (.vfTransitionDone d) s = .next t ∧ t.fget .pwrDiectlPstate d = g ∧
          (t.die d).vf = some (g, s.now + rampTicks (s.vCode d (s.fget .pwrDiectlPstate d)) (s.vCode d g), 3) ∧
          (∀ c ∈ s.fChanges d g, t.freq c = s.fGoal c g % 64 ∧ (t.core c).clockOn = (decide ((s.core c).cst = .cs0) && s.dieUp d))) ∧
      (due ≤ s.now → ph = 3 → s.pGoal d = g → s.fget .pwrDiectlPstate d = g → s.fChanges d g = [] → (s.die d).pcmd = none →
        ∃ t, exec (.vfTransitionDone d) s = .next t ∧ t.fget .pwrDiectlVcode d = s.vCode d g ∧ (t.die d).vf = none ∧
          { t with cs := s.cs, dies := s.dies } = s)) ∧
    (∀ id c, s.kready id 0x0201 = some c → bits (c.p 0) 0 4 = d →
      (8 ≤ bits (c.p 0) 4 4 → bits (c.p 0) 4 4 ≠ 15 → exec (.pwrSetPstate id) s = .next (s.kreply id rBadParameter)) ∧
      (bits (c.p 0) 4 4 < 8 → bits (c.p 1) 20 8 ≠ 0 → bits (c.p 1) 20 8 < 10 ∨ 32 < bits (c.p 1) 20 8 →
        exec (.pwrSetPstate id) s = .next (s.kreply id rPwrVfOutOfRange)) ∧
      (bits (c.p 0) 4 4 < 8 → bits (c.p 1) 20 8 = 0 → s.vCode d (bits (c.p 0) 4 4) = 0 →
        exec (.pwrSetPstate id) s = .next (s.kreply id rPwrVfOutOfRange)) ∧
      (∀ g, g = bits (c.p 0) 4 4 → g < s.fget .pwrDiectlPstate d → bits (c.p 1) 0 28 = 0 → s.vCode d g ≠ 0 → (s.die d).pcmd = none → (s.die d).vf = none →
        s.fget .pwrDiectlLcap d ≤ g → s.fget .pwrDiectlTcap d ≤ g →
        ∃ t, exec (.pwrSetPstate id) s = .next t ∧ t.fget .pwrDiectlPreq d = g ∧ (t.die d).pcmd = some id ∧
          (t.die d).vf = some (g, s.now + rampTicks (s.vCode d (s.fget .pwrDiectlPstate d)) (s.vCode d g), 0) ∧
          { t with cs := s.cs, dies := s.dies, kiln := s.kiln } = s)) ∧
    (∀ id c, s.kready id 0x0202 = some c →
      exec (.pwrQuery id) s = .next (s.kreply id 0 0 [BitVec.ofNat 64 (s.fget .pwrStatusState + 16 * s.fget .pwrStatusReq), nibbles (fun d => (s.die d).dst),
        nibbles (fun d => s.fget .pwrDiectlPstate d), BitVec.ofNat 64 (s.pwr.samples.headD 0 % 65536 + s.kiln.limit * 2 ^ 16 + s.hottestDie * 2 ^ 32)])) ∧
    (∀ id c w ms, s.kready id 0x0203 = some c → w = bits (c.p 0) 0 16 → ms = bits (c.p 0) 16 16 →
      (w < 450 ∨ 800 < w ∨ ms = 0 ∨ 10000 < ms → exec (.pwrSetLimit id) s = .next (s.kreply id rBadParameter)) ∧
      (450 ≤ w → w ≤ 800 → 1 ≤ ms → ms ≤ 10000 → exec (.pwrSetLimit id) s =
        .next (({ s with kiln := { s.kiln with limit := w, window := ms } }).kreply id 0 (BitVec.ofNat 64 s.kiln.limit)))) ∧
    (∀ w, s.pwr.samples = [] → s.kiln.window = 1 →
      (∀ x, s.kiln.limit < w → s.capDown = some x → (s.die x).vf = none → s.fget .pwrDiectlLcap x < 7 →
        (∃ y < 12, s.dieUp y = true ∧ s.fget .pwrDiectlPstate y < 7) →
        ∃ t, exec (.powerSample w []) s = .next t ∧ t.fget .pwrDiectlLcap x = s.fget .pwrDiectlLcap x + 1 ∧ t.pwr.samples = [w]) ∧
      (w ≤ s.kiln.limit → s.kiln.limit * 98 ≤ w * 100 → exec (.powerSample w []) s = .next { s with pwr := { s.pwr with samples := [w] } })) ∧
    (∀ temp, s.throt ≤ temp → temp < 256 → s.hwMode 7 = true → Tab.get 0 s.pwr.capAt d ≤ s.now → s.fget .pwrDiectlTcap d < 7 →
      ∃ t, exec (.thermalSample d temp) s = .next t ∧ t.fget .pwrDiectlTemp d = temp ∧ t.fget .pwrDiectlTcap d = s.fget .pwrDiectlTcap d + 1 ∧
        Tab.get 0 t.pwr.capAt d = s.now + 3200000 ∧ d ∈ t.pwr.exceed) ∧
    (s.fget .pwrThermHot = 0 → s.hwMode 7 = true →
      ∃ t, exec (.hotNChange true) s = .next t ∧ t.pins.hotN = true ∧ t.fget .pwrThermHot = 1 ∧ t.fget .pwrDiectlTcap d = 7) ∧
    (s.fget .pwrThermHot = 1 → s.hwMode 7 = true →
      ∃ t, exec (.hotNChange false) s = .next t ∧ t.pins.hotN = false ∧ t.fget .pwrThermHot = 0 ∧ { t with cs := s.cs, pins := s.pins } = s) ∧
    (∀ a, decide (s.fget .pwrThermHot = 1) = a → exec (.hotNChange a) s = .next s) ∧
    (s.fget .pwrThermMemhot = 0 → s.hwMode 7 = true →
      ∃ t, exec (.memhotNChange true) s = .next t ∧ t.pins.memhotN = true ∧ t.fget .pwrThermMemhot = 1 ∧ t.mem.hot = true ∧ t.mem.actHalf = true ∧
        { t with cs := s.cs, pins := s.pins, mem := s.mem } = s)

/-- R11, R12, R166, R281, R337, R338, R340, R345: AON reset leaves the state of reset but for the fuses, the time and the queue. A package reset clears
cores, partitions, homes, messages and commands, gives every package-domain register its reset value, keeps the AON registers but the fired units, and
keeps the contents of the ranks in self-refresh. GLB_RESET without its key does nothing. A kiln reset ends commands with TIMEOUT and touches no block.
A second watchdog expiry within 10 s is FATAL. A fall of a die's power-good fences it, of VDDQ clears SR_CLEAN. THERMTRIP at 115 degrees stops the
package. A lost byte reads as zero (DESIGN CHOICE, log 7). -/
def Obligations.Resets : Prop :=
  ∀ (s : State),
    (∃ t, exec .aonReset s = .next t ∧ t = { State.reset with pending := s.pending, now := s.now, free := s.free, ioFuses := s.ioFuses, dies := t.dies } ∧
      ∀ d, (s.die d).fuses = (t.die d).fuses) ∧
    (∀ c, c ∈ [Instr.packageReset, .glbResetPkg .host 0xA501, .pgFall 12] →
      ∃ t, exec c s = .next t ∧ t.cores = [] ∧ t.parts = [] ∧ t.home.slices = [] ∧ t.home.msc = [] ∧ t.home.retired = s.home.retired ∧ t.fab.net = [] ∧
        t.kiln.cmds = [] ∧ t.kiln.aonLog = s.kiln.aonLog ∧ t.fget .glbBootstatStage = 0 ∧ t.fget .glbErrstatNextseq = s.kiln.aonLog.length % 2 ^ 32 ∧
        t.tb = 0 ∧ t.now = s.now ∧ (∀ d, (t.die d).fuses = (s.die d).fuses ∧ (t.die d).rstHeld = true) ∧
        (∀ k i j, k.domain = .aon → k ≠ .glbFired → t.rget k i j = s.rget k i j) ∧
        (∀ k i j, k.domain = .package ∨ k.domain = .partition → k ≠ .glbErrstat → k ≠ .pwrTherm → t.rget k i j = k.resetVal i j) ∧
        (∀ a, s.rankKept (a / s.stripe) = true → Memory.get t.mem.dram a = Memory.get s.mem.dram a) ∧
        (∀ a, s.rankKept (a / s.stripe) = false → Memory.get t.mem.dram a = 0)) ∧
    (∀ c v, bits v 8 8 ≠ 0xA5 → c ∈ [Instr.glbResetPkg .host v, .glbResetKiln .host v] → exec c s = .next s) ∧
    (exec (.glbResetKiln .host 0xA502) s = .next (s.kilnReset (b2n (s.kiln.wdog.any (fun t => decide (s.now < t + 32000000000))))) ∧
      (s.kilnReset 0).kiln.cmds = [] ∧ (s.kilnReset 0).reel.relays = [] ∧ (s.kilnReset 0).mem.scrub = none ∧ (s.kilnReset 0).home.range = none ∧
      (s.kilnReset 0).cores = s.cores ∧ (s.kilnReset 0).parts = s.parts ∧ (s.kilnReset 0).home.msc = s.home.msc ∧
      (∀ c ∈ s.kiln.cmds, ∀ p n h, c.src = .mbx p n h →
        { src := c.src, notify := decide (pktFlags c.pkt % 2 = 1), pkt := replyPkt c rTimeout 0 [] } ∈ (s.kilnReset 0).kiln.replies)) ∧
    (s.kiln.aonHeld = false → s.pins.thermtrip = false → s.fget .glbBootstatStage ≠ 0 →
      (s.kiln.wdog = none → ∃ t, exec .kilnWatchdog s = .next t ∧ t.kiln.wdog = some s.now ∧ t.kiln.cmds = [] ∧ t.cores = s.cores) ∧
      (∀ w, s.kiln.wdog = some w → s.now < w + 32000000000 →
        ∃ t, exec .kilnWatchdog s = .next t ∧ t.fget .glbErrstatFatal = 1 ∧ ∀ d < 12, (t.die d).rstHeld = true ∧ t.fget .slpDstatState d = 0)) ∧
    (∀ d, d < 12 →
      (s.dieUp d = true → (s.die d).dst < 2 → ∃ t, exec (.pgFall d) s = .next t ∧ t.fget .slpDstatState d = 2 ∧ t.fget .slpDstatFenceCause d = 5) ∧
      ((s.die d).dst = 2 → exec (.pgFall d) s = .next s)) ∧
    (∃ t, exec (.pgFall 14) s = .next t ∧ ∀ k r, Tab.find t.mem.ranks k = some r → r.srClean = false) ∧
    (∀ blk temp, blk < 16 →
      (temp < 115 → exec (.thermtrip blk temp) s = .next s) ∧
      (115 ≤ temp → ∃ t, exec (.thermtrip blk temp) s = .next t ∧ t.pins.thermtrip = true ∧ t.cores = [] ∧ t.ep.link = 0))

/-- R154, R331, R332, R333, R334, R335, R336, R358: The release of AON reset latches the straps, the last sample deciding and a differing one marking it
unstable. An image that verifies is taken with its configuration and raises the first rail; copy B serves where copy A does not; none leaves
FW_NOT_STAGED. Each rail's power-good starts the next rails; a rail that misses its time fences its die or stops the boot FATAL. Each stage completes
into the next; a set check that fails stops the boot with its reason; the last stage before READY creates the platform partition. The order of the set
check's reasons is DEDUCED (log 35). -/
def Obligations.BootSequence : Prop :=
  ∀ (s : State),
    (∀ vs v, s.kiln.aonHeld = true →
      ∃ t, exec (.aonResetRelease (vs ++ [v])) s = .next t ∧ t.kiln.aonHeld = false ∧ t.kiln.bootSrcHeld = bit v 4 ∧ t.pkg = bits v 0 3 ∧
        t.fget .glbStrapsBootPkg = bits v 3 1 ∧ t.fget .glbStrapsBootSrc = bits v 4 1 ∧ t.fget .glbBootstatStage = 1 ∧
        (∀ i < 5, (t.fget .glbStrapsUnstable).testBit i = vs.any (fun x => bit x i != bit v i))) ∧
    (s.fget .glbBootstatStage = 2 → s.kiln.bootSrcHeld = true → s.fget .glbBootstatReason = 0 → ∀ a b : Option Image,
      (∀ i, a = some i → i.sigOk = true → cfgBad i.cfg = false →
        ∃ t, exec (.bootImageVerified a b) s = .next t ∧ t.kiln.cfg = i.cfg ∧ t.kiln.payload = i.payload ∧ t.kiln.fwVersion = i.version ∧ t.kiln.fwLevel = i.secLevel ∧
          t.fget .glbBootstatStage = 3 ∧ t.fget .glbBootstatSrchw = 1 ∧ t.fget .glbBootstatCopyb = 0 ∧ t.kiln.railDue = [(12, s.now + 32000000)]) ∧
      (∀ i, b = some i → i.sigOk = true → a.all (fun x => !x.sigOk) = true → cfgBad i.cfg = false →
        ∃ t, exec (.bootImageVerified a b) s = .next t ∧ t.kiln.cfg = i.cfg ∧ t.fget .glbBootstatStage = 3 ∧ t.fget .glbBootstatCopyb = 1) ∧
      (a = none → b = none → exec (.bootImageVerified a b) s = .next (s.fput .glbBootstatReason 0 0 rFwNotStaged))) ∧
    (∀ i : Image, s.fget .glbBootstatStage = 2 → i.sigOk = false →
      ∃ t, exec (.glbBootimgGo .host 1 (some i)) s = .next t ∧ t.fget .glbBootstatStage = 2 ∧ t.fget .glbBootstatReason = rFwSignatureInvalid % 2 ^ 16 ∧
        t.kiln = s.kiln) ∧
    (∀ t0, Tab.find s.kiln.railDue 12 = some t0 → t0 ≤ s.now + 32000000 →
      ∃ t, exec (.railPowerGood 12) s = .next t ∧ 12 ∈ t.kiln.railsUp ∧ Tab.find t.kiln.railDue 12 = none ∧
        Tab.find t.kiln.railDue 13 = some (s.now + 32000000) ∧ Tab.find t.kiln.railDue 14 = some (s.now + 32000000 + 25600) ∧
        ∀ d < 12, Tab.find t.kiln.railDue d = some (s.now + 32000000 + (2 + d) * 25600)) ∧
    (∀ d t0, d < 12 → Tab.find s.kiln.railDue d = some t0 → t0 ≤ s.now + 32000000 →
      ∃ t, exec (.railPowerGood d) s = .next t ∧ d ∈ t.kiln.railsUp ∧ Tab.find t.kiln.railDue d = none ∧ t.fget .pwrDiectlVcode d = s.vCode d 0) ∧
    (∀ r t0, Tab.find s.kiln.railDue r = some t0 → t0 ≤ s.now →
      (r < 12 → s.fget .slpDstatState r ≠ 2 → ∃ t, exec (.railPgTimeout r) s = .next t ∧ t.fget .slpDstatState r = 2 ∧ t.fget .slpDstatFenceCause r = 5) ∧
      (12 ≤ r → s.fget .glbBootstatStage = 3 → ∃ t, exec (.railPgTimeout r) s = .next t ∧ t.fget .glbBootstatStage = 0x83 ∧
        t.fget .glbBootstatReason = rTimeout % 2 ^ 16 ∧ t.fget .glbErrstatFatal = 1)) ∧
    (∀ o, s.kiln.aonHeld = false → s.pins.thermtrip = false →
      (s.fget .glbBootstatStage = 0 → 12 ∉ s.pins.pgDown → exec (.bootStageComplete o) s = .next (s.fput .glbBootstatStage 0 0 1)) ∧
      (s.fget .glbBootstatStage = 1 → exec (.bootStageComplete o) s = .next (s.fput .glbBootstatStage 0 0 2)) ∧
      (s.fget .glbBootstatStage = 2 → exec (.bootStageComplete o) s = .next s) ∧
      (s.fget .glbBootstatStage = 3 → s.kiln.railDue = [] → 14 ∈ s.kiln.railsUp → exec (.bootStageComplete o) s = .next (s.fput .glbBootstatStage 0 0 4)) ∧
      (s.fget .glbBootstatStage = 4 → s.setCheck o = none → ∃ t, exec (.bootStageComplete o) s = .next t ∧ t.fget .glbBootstatStage = 5 ∧
        t.fget .glbSetchkDone = 1 ∧ t.fget .glbSetchkPass = 1 ∧ { t with cs := s.cs } = s) ∧
      (∀ r d, s.fget .glbBootstatStage = 4 → s.fget .glbSetchkPass = 0 → s.setCheck o = some (r, d) →
        ∃ t, exec (.bootStageComplete o) s = .next t ∧ t.fget .glbBootstatStage = 0x84 ∧ t.fget .glbBootstatReason = r % 2 ^ 16 ∧
          t.fget .glbSetchkReason = r % 2 ^ 16 ∧ t.fget .glbSetchkDie = d % 16 ∧ t.fget .glbSetchkPass = 0 ∧ t.fget .glbErrstatFatal = 1) ∧
      (s.fget .glbBootstatStage = 8 → s.mem.fireQ = [] → s.kiln.cfg = {} →
        ∃ t, exec (.bootStageComplete o) s = .next t ∧ t.fget .glbBootstatStage = 9 ∧ t.kiln.p0 = 2 ∧ t.partState 0 = 1 ∧ t.plat 0 = true ∧ t.isot 0 = false) ∧
      (s.fget .glbBootstatStage = 9 → s.kiln.p0 = 2 → s.mem.fireQ = [] → exec (.bootStageComplete o) s = .next (s.fput .glbBootstatStage 0 0 10)))

/-- R9, R10, R64, R239, R286, R287, R288: A write of a plain register of control space stores its writable fields; one of a locked register does nothing;
an offset that names none does nothing; mailbox memory takes eight bytes and no other. A core's write acts through its device access where it has the
right and else ends with OUTSIDE_WINDOW. A window or BAR2 access without Memory Space Enable does nothing; a window read of memory goes to the MSC or
ends as a bus error; a read of control space gives the register's value. A device access that has completed leaves, and pops the store that made it.
The window's control-space access is performed at once (log 69). -/
def Obligations.HostAccessesAndRegisters : Prop :=
  ∀ (s : State),
    (∀ k i j v, k.has i j = true → k.width = 8 → ctlNamed (k.addr i j) 3 = some (some (k, i, j)) →
      (k = .mcPatrol ∨ k = .hsTmo ∨ k = .slpCfg ∨ k = .glbMemras ∨ k = .ectData ∨ k = .ectAddr ∨ k = .slpGerr →
        exec (.registerWrite .control .host (k.addr i j) 8 v) s = .next (s.rput k i j (k.writeVal (s.rget k i j) v))) ∧
      (k = .dmaChring ∨ k = .dmaChtrig ∨ k = .dmaChcpl → s.fget .dmaChctlEn i j = 1 → exec (.registerWrite .control .host (k.addr i j) 8 v) s = .next s)) ∧
    (∀ off v, ctlNamed off 3 = none → exec (.registerWrite .control .host off 8 v) s = .next s) ∧
    (∀ a v, a < 0x40000 → 0x100 ≤ a % 0x1000 → a % 8 = 0 →
      ∃ t, exec (.registerWrite .control .host (0xA000000 + a) 8 v) s = .next t ∧ t.mbxWord a = v ∧
        (∀ b, b < a ∨ a + 8 ≤ b → Memory.get t.kiln.mbx b = Memory.get s.kiln.mbx b) ∧ { t with kiln := { t.kiln with mbx := s.kiln.mbx } } = s) ∧
    (∀ c i d v k x y, s.devNextOf c i = some d → d.write = true → d.pa = s.ctlPa (k.addr x y) → d.val = v → d.sz = 3 → d.at_ + 3 ≤ s.fcyc →
      k = .mcPatrol → k.has x y = true → ctlNamed (k.addr x y) 3 = some (some (k, x, y)) →
      (s.mayReach (.ctx c i) (k.addr x y) = true →
        exec (.registerWrite .control (.ctx c i) (k.addr x y) 8 v) s = .next ((s.rput k x y (k.writeVal (s.rget k x y) v)).devDone d.id 0 0)) ∧
      (s.mayReach (.ctx c i) (k.addr x y) = false →
        exec (.registerWrite .control (.ctx c i) (k.addr x y) 8 v) s = .next (s.devDone d.id rOutsideWindow 0))) ∧
    (s.barOn = false → ∀ w off n data, exec (.windowAccess w off n data) s = .next s ∧ exec (.bar2Access w off n data) s = .next s) ∧
    (s.barOn = true → ∀ off pa, off + 8 ≤ 0x80000 → pa = s.fget .epWinbaseBase * 2 ^ 19 + off →
      (∀ q r, s.target pa = .mem q → q = s.pkg → off % 64 ≤ 56 → r = ({ id := s.fab.devNext + 1, agent := .ep s.fab.devNext, write := false, pa := pa, len := 8, at_ := s.fcyc + 3 } : NcReq) →
        (s.populated pa = true → s.lost q = false → s.inCarve pa = false →
          ∃ t, exec (.windowAccess false off 8 []) s = .next t ∧ t.home.ncq = s.home.ncq ++ [r] ∧
            t.ep.accs = s.ep.accs ++ [{ id := s.fab.devNext, write := false, rd := { len := 8, pieces := [(r.id, 0)] } }] ∧ t.ep.rdata = s.ep.rdata) ∧
        (s.populated pa = false → s.lost q = false →
          ∃ t, exec (.windowAccess false off 8 []) s = .next t ∧ t.fget .epWinerrReason = rOutsideWindow ∧ t.fget .epWinerrInbar2 = 0 ∧
            bit (t.rget .epIstat) 16 = true ∧ t.ep.rdata = s.ep.rdata ++ [(false, List.replicate 8 0xFF)])) ∧
      (∀ o v, s.target pa = .ctrl o → s.csRead o 3 = some v →
        ∃ t, exec (.windowAccess false off 8 []) s = .next t ∧ t.ep.rdata = s.ep.rdata ++ [(false, leBytes 8 v.toNat)] ∧ { t with ep := s.ep } = s)) ∧
    (s.barOn = true → ∀ off v, off + 8 ≤ 0x1000000 → s.csRead (0xA000000 + off) 3 = some v →
      ∃ t, exec (.bar2Access false off 8 []) s = .next t ∧ t.ep.rdata = s.ep.rdata ++ [(false, leBytes 8 v.toNat)] ∧ { t with ep := s.ep } = s) ∧
    (∀ d o, s.fab.devs = [d] → d.done = none → d.write = false → d.who = .host → s.target d.pa = .ctrl o → d.at_ + 13 ≤ s.fcyc → s.ep.accs = [] →
      ∃ t, exec (.deviceAccessCompletion d.id) s = .next t ∧ t.fab.devs = [] ∧ { t with fab := s.fab } = s) ∧
    (∀ d c i e, s.fab.devs = [d] → d.done = some 0 → d.who = .ctx c i → d.write = true → (s.core c).sbHead i = some e → e.devSent = true →
      ∃ t, exec (.deviceAccessCompletion d.id) s = .next t ∧ t.fab.devs = [] ∧ t.core c = (s.core c).sbPop (s.cyc c) i e ∧ { t with fab := s.fab } = s.setCore c (t.core c))

/-- R351, R353, R354, R355, R356, R357: Enabling a port without an owner, or that drains, is refused with its reason; else the port trains with its
settings. Link up sets width and the lower generation; L1 follows ASPML1. Link down and the end of a drain leave the port down or waiting. An upstream
read where bus mastering is blocked, or refused by its window, gets its completion status; one admitted reads at the MSC. A downstream completion
gives its data; an unsupported configuration read gives all ones and a retry status waits; a timeout ends with DEVICE_ERROR, or with all ones for
configuration space. -/
def Obligations.RootPorts : Prop :=
  ∀ (s : State) (n : Nat), n < 20 →
    (∀ v, bit v 0 = true → s.fget .rptCtlEn n = 0 → s.portExists n = true →
      (s.portOwner n = none → s.fget .rptStatState n ≠ 6 →
        ∃ t, exec (.rptEnable .host n v) s = .next t ∧ t.fget .rptCtlEn n = 0 ∧ t.fget .rptStatReason n = rNotPermitted ∧ { t with cs := s.cs } = s) ∧
      (s.fget .rptStatState n = 6 →
        ∃ t, exec (.rptEnable .host n v) s = .next t ∧ t.fget .rptCtlEn n = 0 ∧ t.fget .rptStatReason n = rBusyDraining ∧ { t with cs := s.cs } = s) ∧
      (s.portOwner n ≠ none → s.fget .rptStatState n ≠ 6 →
        ∃ t, exec (.rptEnable .host n v) s = .next t ∧ t.fget .rptCtlEn n = 1 ∧ t.fget .rptStatState n = 2 ∧ t.fget .rptCtlMaxgen n = bits v 1 3 ∧
          t.fget .rptCtlCto n = bits v 4 4 ∧ t.fget .rptCtlBmblk n = s.fget .rptCtlBmblk n ∧ { t with cs := s.cs } = s)) ∧
    (∀ v, s.portExists n = false → bit v 0 = false → exec (.rptLinkDown (some (.host, v)) n) s = .next s) ∧
    (s.portUp n = true → s.fab.devs = [] → s.home.ncDone = [] → s.home.ncq = [] → s.rpt n = {} →
      ∃ t, exec (.rptLinkDown none n) s = .next t ∧ t.fget .rptStatState n = (if s.fget .rptCtlEn n = 0 then 1 else 5) ∧ t.rpt n = {}) ∧
    (s.fget .rptStatState n = 6 → s.fab.devs = [] → s.home.ncDone = [] → s.home.ncq = [] → s.rpt n = {} →
      ∃ t, exec (.rptDrainDone n) s = .next t ∧ t.fget .rptStatState n = (if s.fget .rptCtlEn n = 0 then 1 else 5)) ∧
    (∀ gen w flit, s.fget .rptCtlEn n = 1 → s.fget .rptStatState n = 2 ∨ s.fget .rptStatState n = 5 → 1 ≤ gen → gen ≤ 6 → w < 32 → s.fab.devs = [] →
      ∃ t, exec (.rootPortLinkUp n gen w flit) s = .next t ∧ t.fget .rptStatState n = 3 ∧ t.fget .rptStatWidth n = w ∧
        (1 ≤ s.fget .rptCtlMaxgen n → s.fget .rptCtlMaxgen n ≤ 6 → t.fget .rptStatGen n = min gen (s.fget .rptCtlMaxgen n)) ∧
        { t with cs := s.cs } = s) ∧
    (s.fget .rptStatState n = 3 →
      (s.fget .rptCtlAspml1 n = 1 → ∃ t, exec (.rootPortL1Change n true) s = .next t ∧ t.fget .rptStatState n = 4) ∧
      (s.fget .rptCtlAspml1 n = 0 → exec (.rootPortL1Change n true) s = .next s)) ∧
    (s.fget .rptStatState n = 4 → s.inPs0 = true → ∃ t, exec (.rootPortL1Change n false) s = .next t ∧ t.fget .rptStatState n = 3) ∧
    (s.fget .rptStatState n = 3 → ∀ addr len data,
      (s.fget .rptCtlBmblk n = 1 → 0 < len → len ≤ 4096 →
        ∃ t, exec (.upstreamTlp n .read addr len data false) s = .next t ∧ (t.rpt n).cplOut = (s.rpt n).cplOut ++ [(.ur, [])] ∧ t.home = s.home ∧
          { t with rpts := s.rpts } = s) ∧
      (s.fget .rptCtlBmblk n = 0 → s.pwr.portsHeld = false → s.rpt n = {} → s.home.ncDone = [] → s.fab.devs = [] → 0 < len → addr % 64 + len ≤ 64 →
        (∀ q, s.target addr = .mem q → q = s.pkg → s.upReason n addr len = none →
          ∃ t r, exec (.upstreamTlp n .read addr len data false) s = .next t ∧ t.home.ncq = s.home.ncq ++ [r] ∧ r.agent = .port n ∧ r.pa = addr ∧ r.len = len ∧
            r.write = false ∧ r.at_ = s.fcyc + 3 ∧ (t.rpt n).reads = [{ len := len, pieces := [(r.id, 0)] }] ∧ (t.rpt n).cplOut = []) ∧
        (∀ q r, s.target addr = .mem q → s.upReason n addr len = some r →
          ∃ t, exec (.upstreamTlp n .read addr len data false) s = .next t ∧ (t.rpt n).cplOut = [(upStatus r, [])] ∧ t.home.ncq = s.home.ncq))) ∧
    (∀ d v, s.portUp n = true → s.fab.devs = [d] → d.done = none → d.write = false → s.rpt n = { down := [{ id := d.id, sent := s.now, first := s.now }] } →
      (isEcam d.pa = false →
        ∃ t, exec (.downstreamCompletion n d.id .ok v) s = .next t ∧ t.fab.devs = [{ d with done := some 0, rdata := v }] ∧ (t.rpt n).down = []) ∧
      (isEcam d.pa = true →
        (∃ t, exec (.downstreamCompletion n d.id .ur v) s = .next t ∧ t.fab.devs = [{ d with done := some 0, rdata := allOnes }]) ∧
        (∃ t, exec (.downstreamCompletion n d.id .crs v) s = .next t ∧ t.fab.devs = [d] ∧ ∃ x ∈ (t.rpt n).down, x.id = d.id ∧ x.retry = true))) ∧
    (∀ d x, s.fab.devs = [d] → d.done = none → s.rpt n = { down := [x] } → x.id = d.id →
      (x.retry = false → x.sent + s.ctoTicks n ≤ s.now →
        ∃ t, exec (.rootPortCplTimeout n d.id) s = .next t ∧
          t.fab.devs = [{ d with done := some (if isEcam d.pa then 0 else rDeviceError), rdata := if isEcam d.pa then allOnes else 0 }]) ∧
      (x.retry = true → x.sent + 3200000 ≤ s.now →
        (x.first + 3200000000 ≤ s.now → ∃ t, exec (.configRetry n d.id) s = .next t ∧ t.fab.devs = [{ d with done := some 0, rdata := allOnes }]) ∧
        (s.now < x.first + 3200000000 → ∃ t, exec (.configRetry n d.id) s = .next t ∧ t.fab.devs = [d] ∧
          (t.rpt n).down = [{ x with retry := false, sent := s.now }])))

/-- R303, R310, R311, R313, R314, R315, R316: An enable that fails its check leaves EN 0 with the reason; one that passes reads the trigger line. Clearing
EN drains. A trigger moves PI within the ring, halts the channel where it is out of range, and is ignored by a halted channel until RESUME changes. A
notice reads the trigger line once more. The line's value starts the channel or is taken as a trigger; its failure halts. A barrier releases when it
is ready. A completion record that is written raises its route's event where it asks for one. -/
def Obligations.DmaChannels : Prop :=
  ∀ (s : State) (ch e c k : Nat) (acc : NcUse → Bool → Nat → LineData → Nat → NcReq), ch < 256 → e = ch / 32 → c = ch % 32 → k = s.fget .dmaChctlK e c →
    acc = (fun use wr pa val way =>
      { id := s.fab.devNext, agent := .dma ch, use := use, write := wr, pa := pa, len := 64, val := val, at_ := s.fcyc + way }) →
    (∀ v s1, s.fget .dmaChctlEn e c = 0 → bit v 0 = true → s1 = s.rwrite .dmaChctl e c (setBit v 0 false) →
      (∀ r, s1.chReason ch = some r → ∃ t, exec (.dmaChannelEnable .host ch v) s = .next t ∧ t.fget .dmaChctlEn e c = 0 ∧
        t.fget .dmaChstatReason e c = r % 2 ^ 16 ∧ t.chState ch = s.chState ch ∧ { t with cs := s.cs } = s) ∧
      (s1.chReason ch = none → ∃ t, exec (.dmaChannelEnable .host ch v) s = .next t ∧ t.fget .dmaChctlEn e c = 1 ∧ t.fget .dmaChctlK e c = bits v 8 5 ∧
        t.chan ch = { enabling := true, trigRd := some s.fab.devNext } ∧
        t.home = { s.home with ncq := s.home.ncq ++ [acc .trigger false (s.fget .dmaChtrigAddr e c * 64) 0 2] }) ∧
      (s.chState ch = 4 → s1.chReason ch = some rBusyDraining) ∧
      (s.chState ch ≠ 4 → s.chPart ch = none → s1.chReason ch = some rNotPermitted) ∧
      (s.chState ch ≠ 4 → s.chPart ch ≠ none → bits v 8 5 < 4 ∨ 16 < bits v 8 5 ∨ s.fget .dmaChringAddr e c * 64 % 2 ^ (bits v 8 5 + 6) ≠ 0 →
        s1.chReason ch = some rBadParameter)) ∧
    (∀ v, s.fget .dmaChctlEn e c = 1 →
      (bit v 0 = true → exec (.dmaChannelEnable .host ch v) s = .next s) ∧
      (bit v 0 = false → ∃ t, exec (.dmaChannelDisable .host ch v) s = .next t ∧ t.fget .dmaChctlEn e c = 0 ∧ t.chState ch = 4 ∧ t.chan ch = {} ∧
        (∀ x ∈ (t.eng e).cur.toList ++ (t.eng e).xs, x.ch ≠ ch) ∧ t.home = s.home)) ∧
    (s.chState ch = 4 → s.chDrained ch = true →
      ∃ t, exec (.dmaDrainDone ch) s = .next t ∧ t.chState ch = 0 ∧ (∀ r ∈ t.home.ncDone, r.agent ≠ .dma ch) ∧ t.home.ncq = s.home.ncq) ∧
    (∀ v p ci f d, p = bits v 0 32 → ci = s.chCi ch → f = (s.chan ch).fIdx → d = idxSub p ci →
      (s.fget .dmaChctlEn e c = 0 → exec (.dmaChpiWrite .host ch v) s = .next s) ∧
      (s.fget .dmaChctlEn e c = 1 → s.chState ch ≠ 3 →
        (2 ^ k < d → d < 2 ^ 31 → ∃ t, exec (.dmaChpiWrite .host ch v) s = .next t ∧ t.chState ch = 3 ∧ t.fget .dmaChstatReason e c = rBadParameter ∧
          t.chPi ch = s.chPi ch) ∧
        (d ≤ 2 ^ k → d < 2 ^ 31 → idxSub f ci ≤ d → ∃ t, exec (.dmaChpiWrite .host ch v) s = .next t ∧ t.chPi ch = p ∧ (t.chan ch).fIdx = f ∧
          (t.chan ch).posted = s.postedOf ch) ∧
        (2 ^ 31 ≤ d ∨ d ≤ 2 ^ k ∧ d < idxSub f ci → ∃ t, exec (.dmaChpiWrite .host ch v) s = .next t ∧ t.chPi ch = f % 2 ^ 32 ∧ (t.chan ch) = s.chan ch)) ∧
      (s.fget .dmaChctlEn e c = 1 → s.chState ch = 3 → s.fget .dmaChpivalResume e c = (s.chan ch).haltResume →
        ∃ t, exec (.dmaChpiWrite .host ch v) s = .next t ∧ t.chState ch = 3 ∧ t.chPi ch = s.chPi ch)) ∧
    (∀ n, (s.chan ch).note = some n →
      (s.fcyc < n → exec (.dmaTriggerNotice ch) s = .next s) ∧
      (n ≤ s.fcyc → (s.chan ch).trigRd = none → pkgOf (s.fget .dmaChtrigAddr e c * 64) = s.pkg →
        ∃ t, exec (.dmaTriggerNotice ch) s = .next t ∧ t.chan ch = { s.chan ch with note := none, trigRd := some s.fab.devNext, trigAgain := false } ∧
          t.home.ncq = s.home.ncq ++ [acc .trigger false (s.fget .dmaChtrigAddr e c * 64) 0 2]) ∧
      (n ≤ s.fcyc → (s.chan ch).trigRd ≠ none →
        ∃ t, exec (.dmaTriggerNotice ch) s = .next t ∧ t.chan ch = { s.chan ch with note := none, trigAgain := true } ∧ t.home = s.home)) ∧
    (∀ id r s1 pi ci, (s.chan ch).trigRd = some id → s.ncTake id = some (r, s1) → (s.chan ch).trigAgain = false → pi = bits r.val 0 32 → ci = s.chCi ch →
      (r.status ≠ 0 → ∃ t, exec (.triggerLineReadDone ch) s = .next t ∧ t.chState ch = 3 ∧ t.fget .dmaChstatReason e c = r.status % 2 ^ 16 ∧
        t.chPi ch = s.chPi ch ∧ t.chCi ch = ci) ∧
      (r.status = 0 → (s.chan ch).enabling = true →
        ∃ t, exec (.triggerLineReadDone ch) s = .next t ∧ t.chState ch = 1 ∧ t.chCi ch = pi ∧ t.chPi ch = pi ∧
          t.fget .dmaChpivalResume e c = bits r.val 64 32 ∧ t.chan ch = { s.chan ch with trigRd := none, enabling := false, fIdx := pi }) ∧
      (r.status = 0 → (s.chan ch).enabling = false → idxSub pi ci ≤ 2 ^ k → idxSub pi ci < 2 ^ 31 → idxSub (s.chan ch).fIdx ci ≤ idxSub pi ci →
        s.fget .dmaChctlEn e c = 1 → s.chState ch < 3 ∨ s.chState ch = 3 ∧ bits r.val 64 32 ≠ (s.chan ch).haltResume →
        ∃ t, exec (.triggerLineReadDone ch) s = .next t ∧ t.chPi ch = pi ∧ t.fget .dmaChpivalResume e c = bits r.val 64 32 ∧
          (t.chState ch = 1 ∨ t.chState ch = 2)) ∧
      (r.status = 0 → (s.chan ch).enabling = false → s.chState ch = 3 → bits r.val 64 32 = (s.chan ch).haltResume →
        ∃ t, exec (.triggerLineReadDone ch) s = .next t ∧ t.chState ch = 3 ∧ t.chPi ch = s.chPi ch)) ∧
    ((s.chan ch).barPend = true → s.barReady ch = true →
      ∃ t, exec (.barrierRelease ch) s = .next t ∧ (t.chan ch).barPend = false ∧ t.fget .dmaChstatBarwait e c = 0 ∧ t.home = s.home) ∧
    ((s.chan ch).barPend = true → s.barReady ch = false → exec (.barrierRelease ch) s = .next s) ∧
    (∀ id fire r s1, (s.chan ch).recs = [(id, fire)] → s.ncTake id = some (r, s1) →
      (fire = false → ∃ t, exec (.completionRecordAck ch) s = .next t ∧ (t.chan ch).recs = [] ∧ t.fget .irtRoutePend ch = s.fget .irtRoutePend ch ∧ t.home = s1.home) ∧
      (fire = true → s.fget .irtRouteEn ch = 1 → s.fget .irtRouteSent ch = 1 →
        ∃ t, exec (.completionRecordAck ch) s = .next t ∧ (t.chan ch).recs = [] ∧ t.fget .irtRoutePend ch = 1 ∧ t.home = s1.home))

/-- R304, R305, R306, R307, R308, R309, R311, R312, R313, R315: An idle engine takes the next eligible channel in turn, or the chain it holds, and fetches
its descriptor, or halts the channel where the address is outside its windows. A descriptor that arrives with an error halts the channel; one with
BARRIER waits; a bad one completes its entry with its reason, advances CI and writes a record; a good one begins. A source read that returns is kept
for its writes; the last write's acknowledgement completes the entry, advances CI and writes the record; a write that fails leaves its reason. Corners
are DEDUCED (log 27). -/
def Obligations.DmaDescriptorsAndTransfers : Prop :=
  ∀ (s : State) (e ch c : Nat), e < 8 → ch < 256 → ch / 32 = e → c = ch % 32 →
    (∀ i addr, (s.eng e).cur = none → (s.eng e).held = none → i < 32 → c = ((s.eng e).rr + 1 + i) % 32 → s.chEligible ch = true →
      (∀ j < i, s.chEligible (e * 32 + ((s.eng e).rr + 1 + j) % 32) = false) → (s.chan ch).chain = none →
      addr = s.fget .dmaChringAddr e c * 64 + 64 * ((s.chan ch).fIdx % 2 ^ s.fget .dmaChctlK e c) →
      ((s.chPart ch).any (fun p => s.inWindows p addr) = true → pkgOf addr = s.pkg →
        ∃ t, exec (.dmaNextDescriptor e) s = .next t ∧
          (t.eng e).cur = some { ch := ch, addr := addr, fetch := some s.fab.devNext, ent := (s.chan ch).fIdx } ∧ (t.eng e).rr = c ∧ (t.eng e).row = 1 ∧
          t.home.ncq = s.home.ncq ++ [{ id := s.fab.devNext, agent := .dma ch, use := .desc, write := false, pa := addr, len := 64, at_ := s.fcyc + 2 }]) ∧
      ((s.chPart ch).any (fun p => s.inWindows p addr) = false →
        ∃ t, exec (.dmaNextDescriptor e) s = .next t ∧ t.chState ch = 3 ∧ t.fget .dmaChstatReason e c = rOutsideWindow ∧ t.home = s.home)) ∧
    (∀ addr p, (s.eng e).cur = none → (s.eng e).held = some ch → s.chEligible ch = true → (s.chan ch).chain = some addr → s.chPart ch = some p →
      s.inWindows p addr = true → pkgOf addr = s.pkg →
      ∃ t x, exec (.dmaNextDescriptor e) s = .next t ∧ (t.eng e).cur = some x ∧ x.ch = ch ∧ x.addr = addr ∧ x.chained = true ∧
        (t.eng e).row = (s.eng e).row + 1 ∧ (t.eng e).held = none) ∧
    (∀ x id r s1 y, (s.eng e).cur = some x → x.ch = ch → x.fetch = some id → s.ncTake id = some (r, s1) →
      y = { x with fetch := none, words := descWords r.val, began := r.at_ + 2 } →
      (r.status ≠ 0 → ∃ t, exec (.descriptorArrival e) s = .next t ∧ (t.eng e).cur = none ∧ t.chState ch = 3 ∧
        t.fget .dmaChstatReason e c = r.status % 2 ^ 16 ∧ t.chCi ch = s.chCi ch) ∧
      (r.status = 0 → y.ctrl 4 = true → s1.barReady ch = false →
        ∃ t, exec (.descriptorArrival e) s = .next t ∧ (t.eng e).cur = none ∧ (t.chan ch).barPend = true ∧ t.fget .dmaChstatBarwait e c = 1) ∧
      (r.status = 0 → y.ctrl 4 = false ∨ s1.barReady ch = true →
        (bits (y.words.getD 0 0) 0 4 ≠ 1 → bits (y.words.getD 0 0) 0 4 ≠ 2 → s1.descReason y = rBadParameter) ∧
        (s1.descReason y = 0 → 0 < y.dst.total ∧ (bits (y.words.getD 0 0) 0 4 = 1 → y.src.total = y.dst.total) ∧
          ∃ p, s.chPart ch = some p ∧ s.extentIn p y.dst = true ∧ (bits (y.words.getD 0 0) 0 4 = 1 → s.extentIn p y.src = true)) ∧
        (s1.descReason y = 0 → (s.eng e).xs = [] → s.fcyc < r.at_ + 2 →
          ∃ t, exec (.descriptorArrival e) s = .next t ∧ (t.eng e).cur = some { y with begun := true } ∧ t.home = s1.home) ∧
        (s1.descReason y ≠ 0 → x.chained = false → (s.chan ch).ents = [] → pkgOf (s.fget .dmaChcplAddr e c * 64) = s.pkg →
          ∃ t, exec (.descriptorArrival e) s = .next t ∧ (t.eng e).cur = none ∧ t.chState ch = 3 ∧
            t.fget .dmaChstatReason e c = s1.descReason y % 2 ^ 16 ∧ t.chCi ch = (s.chCi ch + 1) % 2 ^ 32 ∧ (t.chan ch).fIdx = ((s.chan ch).fIdx + 1) % 2 ^ 32 ∧
            (t.chan ch).ents = [] ∧ (t.chan ch).recs = (s.chan ch).recs ++ [(s.fab.devNext, true)] ∧
            ∃ v, t.home.ncq = s.home.ncq ++ [{ id := s.fab.devNext, agent := .dma ch, use := .record, write := true, pa := s.fget .dmaChcplAddr e c * 64,
                                               len := 64, val := v, at_ := s.fcyc + 3 }] ∧
              bits v 0 32 = (s.chCi ch + 1) % 2 ^ 32 ∧ bits v 48 16 = bits (y.words.getD 0 0) 16 16))) ∧
    (∀ r s1 x k n, s.dmaAnswer e .src = some (r, s1) → (s.eng e).cur = none → (s.eng e).xs = [x] → x.rdOut = [(r.id, k, n)] → s.fcyc < (s.eng e).wrAt →
      ∃ t, exec (.dmaReadReturn e) s = .next t ∧ t.home = s1.home ∧
        (t.eng e).xs = [{ x with rdOut := [], parts := x.parts ++ [(k, n, if r.status = 0 then some (r.val >>> (8 * (r.pa % 64))) else none, r.at_ + 1)] }] ∧
        (t.chan x.ch).ents = (s.chan x.ch).ents.map (fun a => if a.idx = x.ent then a.fail r.status r.pa else a)) ∧
    (∀ r s1 a, s.dmaAnswer e .dst = some (r, s1) → r.agent = .dma ch → (s.eng e).cur = none → (s.eng e).xs = [] → (s.chan ch).ents = [a] → a.wrs = [r.id] →
      a.last = true → a.reason = 0 → r.status = 0 → pkgOf (s.fget .dmaChcplAddr e c * 64) = s.pkg →
      ∃ t, exec (.dmaWriteAck e) s = .next t ∧ (t.chan ch).ents = [] ∧ t.chCi ch = (s.chCi ch + 1) % 2 ^ 32 ∧
        (t.chan ch).recs = (s.chan ch).recs ++ [(s.fab.devNext, a.int)] ∧
        t.home.ncq = s.home.ncq ++ [{ id := s.fab.devNext, agent := .dma ch, use := .record, write := true, pa := s.fget .dmaChcplAddr e c * 64, len := 64,
                                      val := a.record ((s.chCi ch + 1) % 2 ^ 32) (s.fget .dmaChpivalResume e c), at_ := s.fcyc + 3 }]) ∧
    (∀ r s1 a, s.dmaAnswer e .dst = some (r, s1) → r.agent = .dma ch → (s.eng e).cur = none → (s.eng e).xs = [] → (s.chan ch).ents = [a] → a.wrs = [r.id] →
      a.last = false → a.reason = 0 → r.status ≠ 0 →
      ∃ t, exec (.dmaWriteAck e) s = .next t ∧ (t.chan ch).ents = [{ a with wrs := [], reason := r.status, errAddr := r.pa }] ∧ t.chCi ch = s.chCi ch)

/-- R320, R321, R322, R323, R324, R325: A counter at 2^48 wraps, sets OF and where it samples picks the instruction by the rules; no other counter
changes. A sample is recorded with its fields, counted lost where the buffer is full, dropped where its instruction never ran. The ring's enable runs
its check and writes the header; clearing it empties the buffer. A half-full buffer spills: the consumer index is read, pairs of records are written
at the producer index as far as there is room, and the header follows. Details of the spill are DEDUCED (log 26). -/
def Obligations.CountersAndSamples : Prop :=
  ∀ (s : State) (core d l : Nat), core < 240 → d = dieOf core → l = core % 20 →
    (∀ n h, h = (s.core core).hpmOf n →
      (h.count < 2 ^ 48 → exec (.counterWrap core n) s = .next s) ∧
      (2 ^ 48 ≤ h.count → ∃ t, exec (.counterWrap core n) s = .next t ∧ SameBesideCore s t core ∧
        (t.core core).hpmOf n = { h with count := h.count - 2 ^ 48, sel := setBit h.sel 63 true, who := none, inst := none } ∧
        (∀ m, m ≠ n → (t.core core).hpmOf m = (s.core core).hpmOf m) ∧
        (bit h.sel 30 = false → (t.core core).smpDue = (s.core core).smpDue ∧ (t.core core).smpWait = (s.core core).smpWait) ∧
        (∀ r, bit h.sel 30 = true → h.inst = some r → (t.core core).smpDue = (s.core core).smpDue ++ [(n, some r)]) ∧
        (bit h.sel 30 = true → h.inst = none → h.who = none → (t.core core).smpWait = (s.core core).smpWait ++ [n]) ∧
        (∀ i, bit h.sel 30 = true → h.inst = none → h.who = some i → (s.ctx core i).st ≠ .empty →
          (t.ctx core i).smp = (s.ctx core i).smp ++ [n] ∧ (t.core core).smpDue = (s.core core).smpDue))) ∧
    (∀ n r, (s.core core).smpDue = [(n, r)] →
      (∀ x, r = some x → (s.core core).sbuf.length < 64 →
        ∃ t y, exec (.sampleRecord core n) s = .next t ∧ (t.core core).sbuf = (s.core core).sbuf ++ [y] ∧ (t.core core).smpDue = [] ∧ y.pc = x.pc ∧ y.addr = x.addr ∧
          y.insn = x.raw ∧ y.ctx = s.hartid core x.ctx ∧ y.ctr = n - 3 ∧ y.lat = min (x.done - x.issued) 65535 ∧
          y.event = bits ((s.core core).hpmOf n).sel 0 8 ∧ y.time = bits s.tb 0 32 ∧ t.fget .cdSmpstatBuffered d l = (s.core core).sbuf.length + 1) ∧
      (∀ x, r = some x → 64 ≤ (s.core core).sbuf.length →
        ∃ t, exec (.sampleRecord core n) s = .next t ∧ (t.core core).sbuf = (s.core core).sbuf ∧
          t.fget .cdSmpstatLost d l = min (s.fget .cdSmpstatLost d l + 1) (2 ^ 16 - 1)) ∧
      (r = none → ∃ t, exec (.sampleRecord core n) s = .next t ∧ (t.core core).sbuf = (s.core core).sbuf ∧
          t.fget .cdSmpstatDrop d l = min (s.fget .cdSmpstatDrop d l + 1) (2 ^ 16 - 1))) ∧
    (∀ v, s.fget .cdSmpringEn d l = 1 →
      (bit v 0 = true → exec (.smpRingEnable .host d l v) s = .next s) ∧
      (bit v 0 = false → ∃ t, exec (.smpRingEnable .host d l v) s = .next t ∧ t.fget .cdSmpringEn d l = 0 ∧ (t.core core).sbuf = [] ∧
        t.fget .cdSmpstatBuffered d l = 0)) ∧
    (∀ v s1, s.fget .cdSmpringEn d l = 0 → bit v 0 = true → s1 = s.rwrite .cdSmpring d l (setBit v 0 false) →
      (∀ r, s1.smpReason core = some r → ∃ t, exec (.smpRingEnable .host d l v) s = .next t ∧ t.fget .cdSmpringEn d l = 0 ∧
        t.fget .cdSmpstatReason d l = r % 2 ^ 16 ∧ { t with cs := s.cs } = s) ∧
      (s1.smpReason core = none → pkgOf (s.smpHdr core) = s.pkg →
        ∃ t, exec (.smpRingEnable .host d l v) s = .next t ∧ t.fget .cdSmpringEn d l = 1 ∧ t.fget .cdSmpringK d l = bits v 8 5 ∧ t.fget .cdSmpstatLost d l = 0 ∧
          (t.core core).smpPi = 0 ∧ (t.core core).spill = some { hdr := some s.fab.devNext } ∧
          t.home.ncq = s.home.ncq ++ [{ id := s.fab.devNext, agent := .smp core, use := .hdr, write := true, pa := s.smpHdr core, len := 12, at_ := s.fcyc + 3 }]) ∧
      ((s.core core).spill ≠ none → s1.smpReason core = some rBusyDraining) ∧
      ((s.core core).spill = none → s.corePart core = none → s1.smpReason core = some rNotPermitted) ∧
      ((s.core core).spill = none → s.corePart core ≠ none → bits v 8 5 < 6 ∨ 20 < bits v 8 5 → s1.smpReason core = some rBadParameter)) ∧
    ((s.core core).spill = none →
      (s.fget .cdSmpringEn d l = 1 → 32 ≤ (s.core core).sbuf.length ∨ 1 ≤ (s.core core).sbuf.length ∧ s.spillForCs3 core = true →
        pkgOf (s.smpHdr core + 64) = s.pkg →
        ∃ t, exec (.sampleSpill core) s = .next t ∧ (t.core core).spill = some { rd := some s.fab.devNext } ∧
          t.home.ncq = s.home.ncq ++ [{ id := s.fab.devNext, agent := .smp core, use := .hdr, write := false, pa := s.smpHdr core + 64, len := 4, at_ := s.fcyc + 3 }]) ∧
      (s.fget .cdSmpringEn d l = 0 ∨ (s.core core).sbuf.length < 32 ∧ s.spillForCs3 core = false → exec (.sampleSpill core) s = .next s)) ∧
    (∀ p id r used m, (s.core core).spill = some p → p.rd = some id → s.home.ncDone = [r] → r.id = id → r.dram = false → r.at_ ≤ s.fcyc →
      used = ((s.core core).smpPi + 2 ^ 32 - bits r.val 0 32) % 2 ^ 32 →
      m = min ((if r.status = 0 then 2 ^ s.fget .cdSmpringK d l - used else 0) / 2) (((s.core core).sbuf.length + b2n (s.spillForCs3 core)) / 2) →
      (s.fget .cdSmpringEn d l = 0 → ∃ t, exec (.sampleSpill core) s = .next t ∧ (t.core core).spill = none ∧ t.home.ncq = s.home.ncq) ∧
      (s.fget .cdSmpringEn d l = 1 → (∀ i < m, pkgOf (s.smpBase core + ((s.core core).smpPi + 2 * i) % 2 ^ s.fget .cdSmpringK d l * 32) = s.pkg) →
        ∃ t w, exec (.sampleSpill core) s = .next t ∧ (t.core core).sbuf = (s.core core).sbuf.drop (2 * m) ∧ (t.core core).smpPi = ((s.core core).smpPi + 2 * m) % 2 ^ 32 ∧
          (t.core core).spill = (if m = 0 then none else some { wrs := w.map (fun q => q.id) }) ∧ t.home.ncq = s.home.ncq ++ w ∧ w.length = m ∧
          (∀ i q, w[i]? = some q → q.agent = .smp core ∧ q.write = true ∧ q.len = 64 ∧ q.at_ = s.fcyc + 3 ∧
            q.pa = s.smpBase core + ((s.core core).smpPi + 2 * i) % 2 ^ s.fget .cdSmpringK d l * 32 ∧
            (∀ a b, (s.core core).sbuf[2 * i]? = some a → (s.core core).sbuf[2 * i + 1]? = some b → q.val = BitVec.ofNat 512 (a.num + b.num * 2 ^ 256))))) ∧
    (∀ p, (s.core core).spill = some p → p.rd = none →
      (∀ id r, p.hdr = some id → s.home.ncDone = [r] → r.id = id → r.dram = false → r.at_ ≤ s.fcyc →
        ∃ t, exec (.sampleSpillAck core) s = .next t ∧ (t.core core).spill = none ∧ t.home.ncDone = []) ∧
      (p.hdr = none → (∀ id ∈ p.wrs, ∃ r ∈ s.home.ncDone, r.id = id ∧ r.dram = false ∧ r.at_ ≤ s.fcyc) →
        (s.fget .cdSmpringEn d l = 0 → ∃ t, exec (.sampleSpillAck core) s = .next t ∧ (t.core core).spill = none ∧ t.home.ncq = s.home.ncq) ∧
        (s.fget .cdSmpringEn d l = 1 → pkgOf (s.smpHdr core) = s.pkg →
          ∃ t, exec (.sampleSpillAck core) s = .next t ∧ (t.core core).spill = some { hdr := some s.fab.devNext } ∧
            t.home.ncq = s.home.ncq ++ [{ id := s.fab.devNext, agent := .smp core, use := .hdr, write := true, pa := s.smpHdr core, len := 12, at_ := s.fcyc + 3
                                          val := BitVec.ofNat 512 ((s.core core).smpPi + s.fget .cdSmpstatLost d l * 2 ^ 64) }])) ∧
      (∀ id ∈ p.wrs, p.hdr = none → (∀ r ∈ s.home.ncDone, r.id ≠ id) → exec (.sampleSpillAck core) s = .next s))

/-- R326, R328, R329: A block counter that has wrapped sets OF and, with INT set, is an event of its kind's route; no other counter changes. A running
window whose interval has ended publishes its two counts, advances SEQ, restarts its counters, and with MBX set logs an INFO record of the counts for
its partition; else it changes nothing. -/
def Obligations.BlockCountersAndWindows : Prop :=
  ∀ (s : State),
    (∀ kind idx n sel b, kind < 5 → sel = (pmuKinds kind).1 → b = Tab.get {} s.pmu.banks (bankNo kind idx n) →
      (b.exceed = 0 → exec (.blockCounterWrap kind idx n) s = .next s) ∧
      (0 < b.exceed →
        (bit (s.rget sel idx n) 30 = false → ∃ t, exec (.blockCounterWrap kind idx n) s = .next t ∧ t.rget sel idx n = setBit (s.rget sel idx n) 63 true ∧
          Tab.get {} t.pmu.banks (bankNo kind idx n) = { b with exceed := b.exceed - 1 } ∧ { t with pmu := s.pmu, cs := s.cs } = s) ∧
        (bit (s.rget sel idx n) 30 = true → s.fget .irtRouteEn (420 + kind) = 1 → s.fget .irtRouteSent (420 + kind) = 1 →
          ∃ t, exec (.blockCounterWrap kind idx n) s = .next t ∧ t.rget sel idx n = setBit (s.rget sel idx n) 63 true ∧
            Tab.get {} t.pmu.banks (bankNo kind idx n) = { b with exceed := b.exceed - 1 } ∧ t.fget .irtRoutePend (420 + kind) = 1))) ∧
    (∀ w a b n, w < 32 → a = Tab.get 0 s.pmu.bwA w → b = Tab.get 0 s.pmu.bwB w → n = s.fget .bwwCfgInterval w →
      (s.fget .bwwCfgRun w = 0 ∨ s.fcyc < Tab.get 0 s.pmu.bwStart w + n → exec (.bwWindowInterval w) s = .next s) ∧
      (s.fget .bwwCfgRun w = 1 → Tab.get 0 s.pmu.bwStart w + n ≤ s.fcyc → ∃ t, exec (.bwWindowInterval w) s = .next t ∧
        t.rget .bwwA w = BitVec.ofNat 64 a ∧ t.rget .bwwB w = BitVec.ofNat 64 b ∧ t.fget .bwwSeqSeq w = (s.fget .bwwSeqSeq w + 1) % 2 ^ 32 ∧
        Tab.get 0 t.pmu.bwA w = 0 ∧ Tab.get 0 t.pmu.bwB w = 0 ∧ Tab.get 0 t.pmu.bwStart w = Tab.get 0 s.pmu.bwStart w + n ∧
        (s.fget .bwwCfgMbx w = 0 → t.kiln = s.kiln) ∧
        (s.fget .bwwCfgMbx w = 1 → s.kiln.log.length < 4096 → ∃ r, t.kiln.log = s.kiln.log ++ [r] ∧ r.cls = 0 ∧ r.event = 128 ∧ r.srcIdx = w ∧
          r.part = some (s.fget .bwwCfgPart w) ∧
          r.detail = a % 2 ^ 64 + b % 2 ^ 64 * 2 ^ 64 + (s.fget .bwwSeqSeq w + 1) % 2 ^ 32 * 2 ^ 128)))

/-- R204, R205, R206, R207, R209, R210, R219, R220: A flit leaves at its time with the last good sequence, one owed control and at most one class's
credits; it resends what is owed, is null where nothing may go, and else takes queued cells that have credit; in an owned slot every cell is the
owner's. A flit that fails its CRC or its sequence is dropped and one NAK asked for; a null flit frees what it acknowledges; a fourth resend retrains;
a good flit delivers its complete messages and keeps the parts of others. Silence retrains and a retrained link goes on. The retrain at a lower width
follows log 59. -/
def Obligations.ReelFlits : Prop :=
  ∀ (s : State) (k : Nat) (p : RPort), p = s.rport k →
    (s.linkUp k = false ∨ s.fcyc < p.nextTx → exec (.reelFlitTransmit k) s = .next s) ∧
    (s.linkUp k = true → p.nextTx ≤ s.fcyc →
      (∃ t f, exec (.reelFlitTransmit k) s = .next t ∧ (t.rport k).out = some f ∧ f.ackSeq = (p.rxSeq + 1023) % 1024 ∧
        f.cmd = (if p.nakOwed then 1 else if p.stopOwed then 2 else 0) ∧ (t.rport k).nakOwed = false ∧ (t.rport k).nextTx = s.fcyc + s.flitTime k ∧
        (t.rport k).flits = p.flits + 1 ∧ f.cells.length ≤ (if p.resend = [] then 14 else f.cells.length) ∧
        ((∀ c, 1 ≤ c → c ≤ 7 → Tab.get 0 p.owed c = 0) → f.crCls = 0) ∧
        (∀ c, 1 ≤ c → c ≤ 7 → 0 < Tab.get 0 p.owed c → (∀ x, x ≠ c → Tab.get 0 p.owed x = 0) →
          f.crCls = c ∧ f.crCnt = min 511 (Tab.get 0 p.owed c) ∧ Tab.get 0 (t.rport k).owed c = Tab.get 0 p.owed c - min 511 (Tab.get 0 p.owed c)) ∧
        (∀ o, p.resend = [] → s.flitOwner k (p.flits % 64) = some o → ∀ c ∈ f.cells, cellOwner c = some o)) ∧
      (∀ g rest, p.resend = g :: rest → ∃ t f, exec (.reelFlitTransmit k) s = .next t ∧ (t.rport k).out = some f ∧ f.fseq = g.fseq ∧ f.cells = g.cells ∧
        (t.rport k).resend = rest ∧ (t.rport k).retry = p.retry ∧ (t.rport k).txSeq = p.txSeq) ∧
      (p.resend = [] → p.txq = [] ∨ 128 ≤ p.retry.length → ∃ t f, exec (.reelFlitTransmit k) s = .next t ∧ (t.rport k).out = some f ∧ f.null = true ∧
        f.cells = [] ∧ f.fseq = 0 ∧ (t.rport k).txSeq = p.txSeq ∧ (t.rport k).retry = p.retry ∧ (t.rport k).txq = p.txq) ∧
      (∀ c, p.resend = [] → p.txq = [c] → p.retry.length < 128 →
        (p.mayTake c = false ∨ (∃ o, s.flitOwner k (p.flits % 64) = some o ∧ cellOwner c ≠ some o) →
          ∃ t f, exec (.reelFlitTransmit k) s = .next t ∧ (t.rport k).out = some f ∧ f.cells = [] ∧ (t.rport k).txq = [c]) ∧
        (p.mayTake c = true →
          (∃ o, s.flitOwner k (p.flits % 64) = some o ∧ cellOwner c = some o) ∨
            s.flitOwner k (p.flits % 64) = none ∧ (c.cls = 6 ∧ cellOwner c = none ∨ ∃ q, q < 64 ∧ cellOwner c = some q ∧ s.isot q = false) →
          ∃ t f, exec (.reelFlitTransmit k) s = .next t ∧ (t.rport k).out = some f ∧ f.null = false ∧ f.cells = [c] ∧ f.fseq = p.txSeq ∧
            (t.rport k).txq = [] ∧ (t.rport k).txSeq = (p.txSeq + 1) % 1024 ∧ (t.rport k).retry = p.retry ++ [f] ∧
            Tab.get 0 (t.rport k).used c.cls = Tab.get 0 p.used c.cls + 1))) ∧
    (∀ rx f, s.linkUp k = false → exec (.reelFlitReceive k rx f) s = .next s) ∧
    (∀ f, s.linkUp k = true →
      ∃ t, exec (.reelFlitReceive k .crcFail f) s = .next t ∧ { t with reel := s.reel } = s ∧ t.reel.rx = s.reel.rx ∧
        t.rport k = (if p.nakWait then p else { p with nakWait := true, nakOwed := true })) ∧
    (∀ rx f, s.linkUp k = true → rx ≠ .crcFail → f.null = false → f.fseq ≠ p.rxSeq →
      ∃ t, exec (.reelFlitReceive k rx f) s = .next t ∧ t.reel.rx = s.reel.rx ∧ (t.rport k).rxSeq = p.rxSeq ∧ (t.rport k).nakWait = true ∧
        (p.nakWait = false → (t.rport k).nakOwed = true) ∧ (t.rport k).retry = p.retry ∧ (t.rport k).used = p.used ∧
        t.fget .reelErrFeccorr k = (if rx = .corrected then min (s.fget .reelErrFeccorr k + 1) (2 ^ 32 - 1) else s.fget .reelErrFeccorr k)) ∧
    (∀ f keep, s.linkUp k = true → f.null = true → f.cells = [] → keep = p.retry.filter (fun x => decide (512 ≤ (f.ackSeq + 1024 - x.fseq) % 1024)) →
      p.resends < 3 → (f.cmd = 0 ∨ f.cmd = 1) →
      ∃ t, exec (.reelFlitReceive k .intact f) s = .next t ∧ { t with reel := s.reel } = s ∧ (t.rport k).retry = keep ∧ (t.rport k).rxSeq = p.rxSeq ∧
        (t.rport k).lastGood = s.fcyc ∧ (f.cmd = 1 → (t.rport k).resend = keep) ∧
        (1 ≤ f.crCls → Tab.get 0 (t.rport k).used f.crCls = Tab.get 0 p.used f.crCls - f.crCnt) ∧ (f.crCls = 0 → (t.rport k).used = p.used)) ∧
    (∀ f, s.linkUp k = true → f.null = true → f.cells = [] → f.cmd = 1 → p.resends = 3 → (∀ x ∈ p.retry, 512 ≤ (f.ackSeq + 1024 - x.fseq) % 1024) →
      ∃ t, exec (.reelFlitReceive k .intact f) s = .next t ∧ t.fget .reelStatState k = 3 ∧ (t.rport k).retrainEnd = s.now + 819200) ∧
    (∀ f c, s.linkUp k = true → f.null = false → f.fseq = p.rxSeq → f.cmd = 0 → f.cells = [c] → opQueued c.msg.op = true → (rmsgShape c.msg).2 = c.idx + 1 →
      p.resends < 4 → s.reel.rx = [] →
      ∃ t, exec (.reelFlitReceive k .intact f) s = .next t ∧ (t.rport k).rxSeq = (p.rxSeq + 1) % 1024 ∧ (t.rport k).nakWait = false ∧
        t.reel.rx = [{ port := k, at_ := s.fcyc + (if p.nakWait then 0 else (3 - c.phase) * (s.flitTime k / 4)), msg := c.msg }]) ∧
    (∀ f c, s.linkUp k = true → f.null = false → f.fseq = p.rxSeq → f.cmd = 0 → f.cells = [c] → c.idx + 1 < (rmsgShape c.msg).2 → p.resends < 4 →
      ∃ t, exec (.reelFlitReceive k .intact f) s = .next t ∧ (t.rport k).rxSeq = (p.rxSeq + 1) % 1024 ∧ t.reel.rx = s.reel.rx ∧
        (t.rport k).rxpart = p.rxpart ++ [(f.fseq, c)]) ∧
    (s.fget .reelStatState k = 2 → p.lastGood + 1024 ≤ s.fcyc →
      ∃ t, exec (.reelSilenceTimeout k) s = .next t ∧ t.fget .reelStatState k = 3 ∧ t.rport k = { p with retrainEnd := s.now + 819200, resends := 0 } ∧
        { t with reel := s.reel, cs := s.cs } = s) ∧
    (s.fget .reelStatState k ≠ 2 ∨ s.fcyc < p.lastGood + 1024 → exec (.reelSilenceTimeout k) s = .next s) ∧
    (∀ x16 g64, s.fget .reelStatState k = 3 → s.now < p.retrainEnd →
      ∃ t, exec (.reelRetrainDone k x16 g64) s = .next t ∧ t.fget .reelStatState k = 2 ∧ t.fget .reelStatX16 k = b2n x16 ∧ t.fget .reelStatG64 k = b2n g64 ∧
        t.fget .reelErrRetrain k = min (s.fget .reelErrRetrain k + 1) 255 ∧
        t.rport k = { p with lastGood := s.fcyc, nextTx := s.fcyc, resend := p.retry } ∧ { t with reel := s.reel, cs := s.cs } = s)

/-- R211, R215, R220, R221: A link whose retrain times out fails: with another link in its bundle the peer is asked to resync and the bundle quiesces, and
the failure is logged. A RESYNC that arrives fails this end too and answers each class's sequence (DEDUCED, log 21); the answer sends again what the
peer has not had, over the links that remain. A quiesced bundle lets a joining link in and a draining one out. -/
def Obligations.ReelBundles : Prop :=
  ∀ (s : State),
    (∀ k j q, k < 10 → j < 10 → j ≠ k → s.fget .reelStatState k = 3 → (s.rport k).retrainEnd ≤ s.now → q = s.fget .reelStatPeer k → (s.rport k).cmd = none →
      s.fget .reelStatPeerv k = 1 →
      (∀ x, x < 10 → x ≠ k → (x ∈ s.bundle q ↔ x = j)) → s.kiln.log.length < 4096 →
      ∃ t m r, exec (.reelRetrainTimeout k) s = .next t ∧ t.fget .reelStatState k = 4 ∧ t.fget .reelStatReason k = rLinkTrainFailed ∧ t.bundle q = [j] ∧
        (t.rport k).resyncWait = true ∧ q ∈ t.reel.quiesce ∧ m = ({ op := .resync, src := s.pkg, ctl := BitVec.ofNat 96 k } : RMsg) ∧
        (t.rport j).txq = (s.rport j).txq ++ rmsgCells m (s.phaseNow j) ∧ t.kiln.log = s.kiln.log ++ [r] ∧ r.cls = 2 ∧ r.event = 0x40 ∧
        r.detail = k + q * 256) ∧
    (∀ k, s.fget .reelStatState k ≠ 3 ∨ s.now < (s.rport k).retrainEnd → exec (.reelRetrainTimeout k) s = .next s) ∧
    (∀ src slot x k j p, s.reelCtl (fun x => x.msg.op == .resync && x.msg.src == src && decide (bits x.msg.ctl 0 4 = slot)) = some x → x.msg.src = src →
      k < 10 → j < 10 → j ≠ k → s.fget .reelStatPeerv k = 1 → s.fget .reelStatPeer k = src → s.fget .reelStatPslot k = slot → p = s.rport k →
      s.fget .reelStatState k = 2 → p.cmd = none → p.txq = [] →
      (∀ y, y < 10 → y ≠ k → (y ∈ s.bundle src ↔ y = j) ∧ ¬ (s.fget .reelStatPeerv y = 1 ∧ s.fget .reelStatPeer y = src ∧ s.fget .reelStatPslot y = slot)) →
      ∃ t c, exec (.resync src slot) s = .next t ∧ t.fget .reelStatState k = 4 ∧ src ∈ t.reel.quiesce ∧ c ∈ (t.rport j).txq ∧ c.msg.op = .resyncAck ∧
        bits c.msg.ctl 0 4 = slot ∧
        ∀ n < 7, bits c.msg.ctl (16 + 10 * n) 10 = p.rfseq (n + 1) % 1024) ∧
    (∀ src slot fs x p j, s.reelCtl (fun x => x.msg.op == .resyncAck && x.msg.src == src && x.msg.ctl == resyncAckCtl slot fs) = some x → p = s.rport slot →
      slot < 10 → j ≠ slot → x.port ≠ slot →
      (p.resyncWait = false → exec (.resyncAck src slot fs) s = .next (s.takeReel x.msg)) ∧
      (p.resyncWait = true → (∀ k < 10, k ≠ slot → (s.rport k).resyncWait = false) → s.bundle src = [j] → s.reel.held = [] →
        (∀ e ∈ p.sentStart, e.1 = 1 ∧ (e.2.1 + 1024 - fs.getD 0 0) % 1024 < 512 ∧ (rmsgShape e.2.2).1 = 1) → (∀ c ∈ p.txq, c.start = false) →
        ∃ t, exec (.resyncAck src slot fs) s = .next t ∧ (t.rport slot).resyncWait = false ∧ (t.rport slot).txq = [] ∧ (t.rport slot).retry = [] ∧
          src ∉ t.reel.quiesce ∧
          (t.rport j).txq = (s.rport j).txq ++ (p.sentStart.map (fun e => rmsgCells { e.2.2 with src := s.pkg } (s.phaseNow j))).flatten)) ∧
    (∀ q, q ∉ s.reel.quiesce → exec (.bundleQuiesced q) s = .next s) ∧
    (∀ q k j, k < 10 → j < 10 → j ≠ k → q ∈ s.reel.quiesce → s.reel.held = [] → s.fget .reelStatPeerv k = 1 → s.fget .reelStatPeer k = q →
      (∀ x < 10, x ≠ k → x ≠ j → s.fget .reelStatPeerv x = 0 ∨ s.fget .reelStatPeer x ≠ q) →
      s.fget .reelStatState j = 2 → (s.rport j).retry = [] → (s.rport j).txq = [] → (s.rport j).resyncWait = false → (s.rport k).resyncWait = false →
      (s.rport j).joining = false → (s.rport j).draining = false → (s.rport k).cmd = none →
      (s.fget .reelStatState k = 1 → (s.rport k).joining = true → (s.rport k).draining = false →
        ∃ t, exec (.bundleQuiesced q) s = .next t ∧ t.fget .reelStatState k = 2 ∧ (t.rport k).joining = false ∧ q ∉ t.reel.quiesce) ∧
      (s.fget .reelStatState k = 2 → (s.rport k).draining = true → (s.rport k).joining = false → (s.rport k).retry = [] → (s.rport k).txq = [] →
        ∃ t, exec (.bundleQuiesced q) s = .next t ∧ t.fget .reelStatState k = 5 ∧ t.rport k = {} ∧ q ∉ t.reel.quiesce) ∧
      (s.fget .reelStatState k = 2 → (s.rport k).retry ≠ [] → exec (.bundleQuiesced q) s = .next s))

/-- R200, R212, R213, R214, R217: Each training stage that succeeds leads to the next, records width, rate and delay, and sends HELLO; each that fails
leaves the link failed with its reason. A HELLO is refused for its revision, its package or its topology, and else brings the link up or, in a formed
system, joins it. At the formation's end the lead that sees a legal topology forms the system and tells the members; another stands alone with
LINK_TOPOLOGY. The lead sends its time every 4,096 F-cycles, and a member adjusts by the offset it finds, logging one that is too large. Failure
reasons of training are DEDUCED (log 60). -/
def Obligations.ReelTrainingAndFormation : Prop :=
  ∀ (s : State) (k : Nat), k < 10 →
    (∀ stage r x16 g64 flight, s.fget .reelStatState k ≠ 1 ∨ (s.rport k).stage ≠ stage → exec (.reelTrainingStage k stage r x16 g64 flight) s = .next s) ∧
    (∀ x16 g64 flight, s.fget .reelStatState k = 1 →
      ((s.rport k).stage = 1 → ∃ t, exec (.reelTrainingStage k 1 .ok x16 g64 flight) s = .next t ∧ t.fget .reelStatX16 k = b2n x16 ∧
        t.rport k = { s.rport k with stage := 2 } ∧ t.fget .reelStatState k = 1) ∧
      ((s.rport k).stage = 2 → ∃ t, exec (.reelTrainingStage k 2 .ok x16 g64 flight) s = .next t ∧ t.fget .reelStatG64 k = b2n g64 ∧
        t.rport k = { s.rport k with stage := 3 } ∧ t.fget .reelStatState k = 1) ∧
      ((s.rport k).stage = 3 → 4 ≤ flight → flight ≤ 16 →
        ∃ t m, exec (.reelTrainingStage k 3 .ok x16 g64 flight) s = .next t ∧ t.fget .reelStatXdly k = flight - 4 ∧ (t.rport k).stage = 4 ∧
          (t.rport k).txq = (s.rport k).txq ++ rmsgCells m (s.phaseNow k) ∧ m.op = .hello ∧ m.src = s.pkg ∧ bits m.ctl 0 3 = s.pkg ∧
          bits m.ctl 3 1 = s.fget .glbStrapsBootPkg ∧ bits m.ctl 4 4 = k ∧ bits m.ctl 8 16 = bits (s.ioFuses.getD 0 0) 8 16 ∧ bits m.ctl 24 8 = 1) ∧
      (∀ stage reason r, (stage, reason) ∈ [(1, rLinkPeerAbsent), (2, rLinkTrainFailed), (3, rLinkTooLong), (4, rLinkPeerAbsent), (5, rLinkPeerAbsent)] →
        (s.rport k).stage = stage → (r = .fail ∨ stage = 3 ∧ 16 < flight) → (s.rport k).cmd = none → (s.forming = false ∨ ∃ j < 10, j ≠ k ∧ s.fget .reelStatState j = 1) →
        ∃ t, exec (.reelTrainingStage k stage r x16 g64 flight) s = .next t ∧ t.fget .reelStatState k = 4 ∧ t.fget .reelStatReason k = reason ∧
          t.fget .reelStatPeerv k = 0 ∧ t.rport k = {} ∧ { t with cs := s.cs, reel := s.reel } = s)) ∧
    (∀ ctl x q, s.reelCtl (fun x => x.msg.op == .hello && x.port == k && x.msg.ctl == ctl) = some x → q = bits ctl 0 3 →
      s.fget .reelStatState k = 1 → (s.rport k).stage = 4 → (s.forming = false ∨ ∃ j < 10, j ≠ k ∧ s.fget .reelStatState j = 1) →
      (bits ctl 8 16 ≠ bits (s.ioFuses.getD 0 0) 8 16 ∨ bits ctl 24 8 ≠ 1 → s.helloReason k ctl = some rLinkSetMismatch) ∧
      (bits ctl 8 16 = bits (s.ioFuses.getD 0 0) 8 16 → bits ctl 24 8 = 1 → q = s.pkg → s.helloReason k ctl = some rLinkIdConflict) ∧
      (s.helloReason k ctl = none → q ≠ s.pkg ∧
        (∀ j < 10, j ≠ k → s.fget .reelStatPeerv j = 1 → s.fget .reelStatPeer j = q → s.fget .reelStatPslot j = bits ctl 4 4 →
          s.fget .reelStatState j ≠ 2 ∧ s.fget .reelStatState j ≠ 3) ∧
        (s.fget .reelSysFormed = 1 → s.member q = true ∧ (s.bundle q).length < 3)) ∧
      (∀ r, s.helloReason k ctl = some r → (s.rport k).cmd = none →
        ∃ t, exec (.hello k ctl) s = .next t ∧ t.fget .reelStatState k = 4 ∧ t.fget .reelStatReason k = r % 2 ^ 16 ∧ t.fget .reelStatPeerv k = 0 ∧
          t.rport k = {}) ∧
      (s.helloReason k ctl = none →
        (s.fget .reelSysFormed = 0 → ∃ t, exec (.hello k ctl) s = .next t ∧ t.fget .reelStatState k = 2 ∧ t.fget .reelStatPeerv k = 1 ∧
          t.fget .reelStatPeer k = q ∧ t.fget .reelStatPslot k = bits ctl 4 4 ∧ (t.rport k).peerBoot = bit ctl 3 ∧ (t.rport k).flits = 0) ∧
        (s.fget .reelSysFormed = 1 → ∃ t, exec (.hello k ctl) s = .next t ∧ t.fget .reelStatState k = 1 ∧ t.fget .reelStatPeer k = q ∧
          (t.rport k).joining = true ∧ q ∈ t.reel.quiesce))) ∧
    (s.forming = false ∨ s.now < s.reel.formBy → exec .formationTimeout s = .next s) ∧
    (s.forming = true → s.reel.formBy ≤ s.now →
      (s.oneLead ≠ some s.pkg → ∃ t, exec .formationTimeout s = .next t ∧ t.fget .reelSysMembers = 2 ^ s.pkg ∧ t.fget .reelSysLead = s.pkg ∧
        t.fget .reelSysFormed = 1 ∧ t.fget .reelSysReason = rLinkTopology ∧ (s.fget .reelStatState k ≠ 0 → t.fget .reelStatState k = 5) ∧
        (∀ n < 16, t.fget .hsTrkcfgReel n = 0)) ∧
      (∀ q l, s.oneLead = some s.pkg → q < 8 → q ≠ s.pkg → s.reel.reports = [(q, l)] → topologyOk [(s.pkg, s.linkCounts), (q, l)] = true →
        ∃ t, exec .formationTimeout s = .next t ∧ t.fget .reelSysMembers = 2 ^ s.pkg ||| 2 ^ q ∧ t.fget .reelSysLead = s.pkg ∧ t.fget .reelSysFormed = 1 ∧
          t.fget .reelSysReason = 0 ∧ t.reel.relayOut = s.reel.relayOut ++ [(q, .formed (2 ^ s.pkg ||| 2 ^ q) s.pkg s.fTime)] ∧
          (∀ n < 16, t.fget .hsTrkcfgReel n = 1024))) ∧
    (s.fget .reelSysFormed = 0 ∨ s.fget .reelSysLead ≠ s.pkg ∨ s.fcyc < s.reel.tsyncNext → exec .tsyncSend s = .next s) ∧
    (∀ q j, s.fget .reelSysFormed = 1 → s.fget .reelSysLead = s.pkg → s.reel.tsyncNext ≤ s.fcyc → q < 8 → q ≠ s.pkg → s.bundle q = [j] → q ∉ s.reel.quiesce →
      (∀ r < 8, r ≠ s.pkg → (s.member r = true ↔ r = q)) →
      ∃ t, exec .tsyncSend s = .next t ∧ t.reel.tsyncNext = s.reel.tsyncNext + 4096 ∧ { t with reel := s.reel } = s ∧
        (t.rport j).txq = (s.rport j).txq ++ rmsgCells { op := .tsync, src := s.pkg, ctl := BitVec.ofNat 96 s.fTime } (s.phaseNow j)) ∧
    (∀ f x off, s.reelCtl (fun x => x.msg.op == .tsync && x.port == k && decide (x.msg.ctl.toNat = f)) = some x →
      off = (s.fTime : Int) - s.crossing k - f →
      (x.msg.src ≠ s.fget .reelSysLead → exec (.tsync k f) s = .next (s.takeReel x.msg)) ∧
      (x.msg.src = s.fget .reelSysLead →
        (off.natAbs ≤ 8 → ∃ t, exec (.tsync k f) s = .next t ∧ t.fget .reelSysTboff = (BitVec.ofInt 8 off).toNat ∧
          t.fget .reelSysSynced = b2n (decide (off.natAbs ≤ 4)) ∧ t.reel.adj = -off ∧ t.kiln = s.kiln ∧ t.tb = s.tb) ∧
        (8 < off.natAbs → s.kiln.log = [] → ∃ t r, exec (.tsync k f) s = .next t ∧ t.reel.adj = -off ∧ t.fget .reelSysSynced = 0 ∧ r ∈ t.kiln.log ∧
          r.cls = 1 ∧ r.event = 0x41 ∧ r.srcIdx = k)))

/-- R215, R221, R222, R223, R252: With nothing under way between this package and a member: its expulsion marks it lost, takes its links down, leaves the
others, and moves the lead to the lowest member left where it was the lead. A loss reported to the lead expels the package the rules name and tells
the others; a deputy reports it, waits, and takes the lead where the lead does not answer; a loss that nobody answers expels the one who does not.
REEL_ENABLE and REEL_DISABLE refuse a bad slot, an unformed system, a lost peer or a last link, and else train or drain it. Corners are DEDUCED (log
22). -/
def Obligations.ReelMembership : Prop :=
  ∀ (s : State),
    (∀ x, QuietAbout s x → .expel x ∈ s.reel.told →
      ∃ t, exec (.expel x) s = .next t ∧ t.fget .reelSysLost = s.fget .reelSysLost + 2 ^ x ∧ t.member x = false ∧
        t.fget .reelSysMembers = s.fget .reelSysMembers ∧ (∀ q, q ≠ x → t.member q = s.member q) ∧
        (∀ k < 10, s.fget .reelStatPeerv k = 1 → s.fget .reelStatPeer k = x →
          t.fget .reelStatState k = 5 ∧ t.fget .reelStatReason k = rLinkPeerLost ∧ t.rport k = {}) ∧
        (x ≠ s.fget .reelSysLead → t.fget .reelSysLead = s.fget .reelSysLead) ∧
        (∀ q < 8, x = s.fget .reelSysLead → q ≠ x → s.member q = true → (∀ r < q, r ≠ x → s.member r = false) → t.fget .reelSysLead = q)) ∧
    (∀ x, .expel x ∉ s.reel.told → exec (.expel x) s = .next s) ∧
    (∀ p q, .loss p q ∉ s.reel.told → exec (.loss p q) s = .next s) ∧
    (∀ p q, .loss p q ∈ s.reel.told → s.lost p = false → s.lost q = false →
      (∀ x, s.fget .reelSysLead = s.pkg → x = (if q = s.pkg then p else max p q) → QuietAbout s x →
        ∃ t, exec (.loss p q) s = .next t ∧ t.fget .reelSysLost = s.fget .reelSysLost + 2 ^ x ∧ t.fget .reelSysLead = s.pkg ∧
          ∀ r < 8, r ≠ s.pkg → s.member r = true → (r, .expel x) ∈ t.reel.relayOut) ∧
      (s.fget .reelSysLead ≠ s.pkg → q = s.fget .reelSysLead → s.deputy = some s.pkg → s.bundle q ≠ [] →
        ∃ t, exec (.loss p q) s = .next t ∧ t.reel.relayOut = s.reel.relayOut ++ [(q, .loss p q)] ∧ t.fget .reelSysLost = s.fget .reelSysLost)) ∧
    (∀ p q, .loss p q ∈ s.reel.told → s.lost p = true ∨ s.lost q = true →
      exec (.loss p q) s = .next { s with reel := { s.reel with told := s.reel.told.erase (.loss p q) } }) ∧
    (∀ n x, s.reel.deputyWait = some n →
      (s.now < n → exec .deputyWaitExpiry s = .next s) ∧
      (n ≤ s.now → x = s.fget .reelSysLead → QuietAbout s x →
        ∃ t, exec .deputyWaitExpiry s = .next t ∧ t.fget .reelSysLead = s.pkg ∧ t.fget .reelSysLost = s.fget .reelSysLost + 2 ^ x ∧
          t.reel.deputyWait = none ∧ ∀ r < 8, r ≠ s.pkg → s.member r = true → (r, .expel x) ∈ t.reel.relayOut)) ∧
    (∀ q n, s.reel.lossSent = some (q, n) →
      (s.now < n + 3200000 → exec .lossTimeout s = .next s) ∧
      (∀ x, n + 3200000 ≤ s.now → QuietAbout s x → (∀ r < 8, r ≠ s.pkg → r ≠ x → s.member r = false) →
        ∃ t, exec .lossTimeout s = .next t ∧ t.fget .reelSysLost = s.fget .reelSysLost + 2 ^ x ∧ t.fget .reelSysLead = s.pkg ∧ t.reel.lossSent = none ∧
          (∀ r < 8, r ≠ s.pkg → t.member r = false))) ∧
    (∀ id c k, s.kready id 0x0403 = some c → k = bits (c.p 0) 0 4 →
      (10 ≤ k ∨ bit s.kiln.cfg.reelMask k = false → exec (.reelEnable id) s = .next (s.kreply id rBadParameter)) ∧
      (k < 10 → bit s.kiln.cfg.reelMask k = true →
        (s.fget .reelSysFormed = 0 → exec (.reelEnable id) s = .next (s.kreply id rNotPermitted)) ∧
        (s.fget .reelSysFormed = 1 →
          ((s.rport k).draining = true → exec (.reelEnable id) s = .next (s.kreply id rBusyDraining)) ∧
          ((s.rport k).draining = false → s.fget .reelStatState k = 2 ∨ s.fget .reelStatState k = 3 →
            exec (.reelEnable id) s = .next (s.kreply id 0 (s.rget .reelStat k))) ∧
          ((s.rport k).draining = false → s.fget .reelStatState k ≠ 2 → s.fget .reelStatState k ≠ 3 → s.fget .reelStatPeerv k = 1 →
            s.lost (s.fget .reelStatPeer k) = true → exec (.reelEnable id) s = .next (s.kreply id rLinkPeerLost)) ∧
          ((s.rport k).draining = false → s.fget .reelStatState k ≠ 2 → s.fget .reelStatState k ≠ 3 →
            s.fget .reelStatPeerv k = 0 ∨ s.lost (s.fget .reelStatPeer k) = false → ∃ t, exec (.reelEnable id) s = .next t ∧ t.rget .reelStat k = 1 ∧ t.rport k = { stage := 1, cmd := some id } ∧
              { t with cs := s.cs, reel := s.reel, kiln := s.kiln } = s)))) ∧
    (∀ id c k, s.kready id 0x0404 = some c → k = bits (c.p 0) 0 4 →
      (10 ≤ k ∨ bit s.kiln.cfg.reelMask k = false → exec (.reelDisable id) s = .next (s.kreply id rBadParameter)) ∧
      (k < 10 → bit s.kiln.cfg.reelMask k = true →
        (s.fget .reelSysFormed = 0 → exec (.reelDisable id) s = .next (s.kreply id rNotPermitted)) ∧
        (s.fget .reelSysFormed = 1 →
          (s.fget .reelStatState k ≠ 2 → s.fget .reelStatState k ≠ 3 → exec (.reelDisable id) s = .next ((s.fput .reelStatState k 0 5).kreply id 0)) ∧
          (s.fget .reelStatState k = 2 ∨ s.fget .reelStatState k = 3 →
            ((s.bundle (s.fget .reelStatPeer k)).length ≤ 1 → exec (.reelDisable id) s = .next (s.kreply id rNotPermitted)) ∧
            (2 ≤ (s.bundle (s.fget .reelStatPeer k)).length →
              ∃ t, exec (.reelDisable id) s = .next t ∧ t.rport k = { s.rport k with draining := true, stopOwed := true, cmd := some id } ∧
                s.fget .reelStatPeer k ∈ t.reel.quiesce ∧ t.fget .reelStatState k = s.fget .reelStatState k)))))

/-- R120, R208, R216: A peer's non-coherent read or write joins this package's queue with its address, length and data; its completion gives its status
and data to the access that waits. A peer's read that the MSC serves, or that is refused, answers over the peer's one link with the data or the
reason. That a write is answered by the same message is a DESIGN CHOICE (log 15). -/
def Obligations.NonCoherentAccessesAcrossPackages : Prop :=
  ∀ (s : State) (n : Nat),
    (∀ m, s.reelFor n (· == .ncrd) = some m →
      ∃ t, exec (.ncrd n) s = .next t ∧ t.reel = (s.takeReel m).reel ∧ { t with home := s.home, reel := s.reel, fab := s.fab } = s ∧
        t.home = { s.home with ncq := s.home.ncq ++
          [{ id := s.fab.devNext, agent := .peer (m.src + 8 * m.m.tag), write := false, pa := m.m.line * 64 + m.m.arg % 64, len := m.len, at_ := s.fcyc }] }) ∧
    (∀ m, s.reelFor n (· == .ncwr) = some m →
      ∃ t, exec (.ncwr n) s = .next t ∧ t.reel = (s.takeReel m).reel ∧ { t with home := s.home, reel := s.reel, fab := s.fab } = s ∧
        t.home = { s.home with ncq := s.home.ncq ++
          [{ id := s.fab.devNext, agent := .peer (m.src + 8 * m.m.tag), write := true, pa := m.m.line * 64 + m.m.arg % 64, len := m.len, val := m.m.data
             poison := m.m.poison, at_ := s.fcyc }] }) ∧
    (s.reelFor n (· == .ncrd) = none → exec (.ncrd n) s = .next s) ∧ (s.reelFor n (· == .ncwr) = none → exec (.ncwr n) s = .next s) ∧
    (∀ m x r, s.reel.rx = [x] → x.at_ ≤ s.fcyc → x.msg = m → m.op = .nccpl → s.home.ncDone = [r] → r.id = m.m.tag → r.dram = true →
      ∃ t, exec .nccpl s = .next t ∧ t.reel.rx = [] ∧ { t with home := s.home, reel := s.reel } = s ∧
        t.home.ncDone = [{ r with dram := false, status := m.m.status, val := if r.write then r.val else m.m.data, at_ := s.fcyc }]) ∧
    (∀ r p m j, s.ncFront n false = some r → r.agent = .peer p → s.homeReason (r.pa / 64) = none → s.msc (r.pa / 64) = some m → m.p = false →
      s.bundle (p % 8) = [j] → p % 8 ∉ s.reel.quiesce →
      ∃ t q, exec (.ncRead n) s = .next t ∧ t.home.ncDone = s.home.ncDone ∧ t.home.ncq = s.home.ncq.filter (fun x => x.id != r.id) ∧
        (t.rport j).txq = (s.rport j).txq ++ rmsgCells q (s.phaseNow j) ∧ q.op = .nccpl ∧ q.src = s.pkg ∧ q.len = r.len ∧ q.m.tag = p / 8 ∧
        q.m.data = m.data ∧ q.m.status = 0 ∧ q.m.hasData = true) ∧
    (∀ r p e j, s.ncFront n false = some r → r.agent = .peer p → s.homeReason (r.pa / 64) = some e → r.write = false →
      s.bundle (p % 8) = [j] → p % 8 ∉ s.reel.quiesce →
      ∃ t q, exec (.ncRead n) s = .next t ∧ (t.rport j).txq = (s.rport j).txq ++ rmsgCells q (s.phaseNow j) ∧ q.op = .nccpl ∧ q.m.tag = p / 8 ∧
        q.m.status = e ∧ q.len = 0)
end

