-- ==== Sys2Proof/Laws/Tables.lean ====
section
/-! SUPPORT. Laws of the sparse table and of bit fields: read after write, the canonical form kept. -/

namespace Sys2Proof

variable {V : Type}

@[simp] theorem Tab.get_nil (d : V) (i : Nat) : Tab.get d [] i = d := rfl

@[simp] theorem Tab.get_del (d : V) (m : Tab V) (i j : Nat) : Tab.get d (Tab.del m i) j = if j = i then d else Tab.get d m j := by
  induction m with
  | nil => simp [Tab.del]
  | cons e m ih =>
    obtain ⟨k, v⟩ := e
    by_cases h1 : i = k
    · subst h1; simp only [Tab.del, if_true, ih, Tab.get]; split <;> simp_all
    · simp only [Tab.del, h1, if_false, Tab.get, ih]
      by_cases h2 : j = k
      · subst h2; simp [Ne.symm h1]
      · simp [h2]

@[simp] theorem Tab.get_ins (d : V) (m : Tab V) (i j : Nat) (w : V) : Tab.get d (Tab.ins m i w) j = if j = i then w else Tab.get d m j := by
  induction m with
  | nil => simp [Tab.ins, Tab.get]
  | cons e m ih =>
    obtain ⟨k, v⟩ := e
    by_cases h1 : i = k
    · subst h1; simp only [Tab.ins, if_true, Tab.get]; split <;> simp_all
    · by_cases h3 : i < k
      · simp only [Tab.ins, h1, h3, if_false, if_true, Tab.get]
      · simp only [Tab.ins, h1, h3, if_false, Tab.get, ih]
        by_cases h2 : j = k
        · subst h2; simp [Ne.symm h1]
        · simp [h2]

/-- A write of a table is read back, and changes no other entry. -/
@[simp] theorem Tab.get_put [DecidableEq V] (d : V) (m : Tab V) (i j : Nat) (w : V) :
    Tab.get d (Tab.put d m i w) j = if j = i then w else Tab.get d m j := by
  unfold Tab.put
  split
  · simp_all
  · simp

/-- A write changes no other entry, whatever default it is read with. -/
theorem Tab.get_put_ne [DecidableEq V] (d d' : V) (m : Tab V) (i j : Nat) (w : V) (h : j ≠ i) : Tab.get d' (Tab.put d m i w) j = Tab.get d' m j := by
  unfold Tab.put
  split <;> simp [h]

theorem Tab.sortedFrom_mono {a b : Nat} (h : a ≤ b) : ∀ {m : Tab V}, Tab.sortedFrom b m = true → Tab.sortedFrom a m = true
  | [], _ => rfl
  | (k, v) :: m, hs => by
    simp only [Tab.sortedFrom, Bool.and_eq_true, decide_eq_true_eq] at hs ⊢
    exact ⟨Nat.le_trans h hs.1, hs.2⟩

theorem Tab.sortedFrom_del (i : Nat) : ∀ {b : Nat} {m : Tab V}, Tab.sortedFrom b m = true → Tab.sortedFrom b (Tab.del m i) = true
  | _, [], _ => rfl
  | b, (k, v) :: m, hs => by
    simp only [Tab.sortedFrom, Bool.and_eq_true, decide_eq_true_eq] at hs
    unfold Tab.del
    split
    · exact Tab.sortedFrom_del i (Tab.sortedFrom_mono (by omega) hs.2)
    · simp only [Tab.sortedFrom, Bool.and_eq_true, decide_eq_true_eq]
      exact ⟨hs.1, Tab.sortedFrom_del i hs.2⟩

theorem Tab.sortedFrom_ins (i : Nat) (w : V) : ∀ {b : Nat} {m : Tab V}, Tab.sortedFrom b m = true → b ≤ i → Tab.sortedFrom b (Tab.ins m i w) = true
  | b, [], _, hb => by simp [Tab.ins, Tab.sortedFrom, hb]
  | b, (k, v) :: m, hs, hb => by
    simp only [Tab.sortedFrom, Bool.and_eq_true, decide_eq_true_eq] at hs
    unfold Tab.ins
    split
    · rename_i h; subst h; simp [Tab.sortedFrom, hb, hs.2]
    · rename_i h
      split
      · rename_i h3
        simp only [Tab.sortedFrom, Bool.and_eq_true, decide_eq_true_eq]
        exact ⟨hb, by omega, hs.2⟩
      · simp only [Tab.sortedFrom, Bool.and_eq_true, decide_eq_true_eq]
        exact ⟨hs.1, Tab.sortedFrom_ins i w hs.2 (by omega)⟩

theorem Tab.mem_del {e : Nat × V} {i : Nat} : ∀ {m : Tab V}, e ∈ Tab.del m i → e ∈ m
  | [], h => h
  | (k, v) :: m, h => by
    unfold Tab.del at h
    split at h
    · exact List.mem_cons_of_mem _ (Tab.mem_del h)
    · rcases List.mem_cons.mp h with h | h
      · exact h ▸ List.mem_cons_self
      · exact List.mem_cons_of_mem _ (Tab.mem_del h)

theorem Tab.mem_ins {e : Nat × V} {i : Nat} {w : V} : ∀ {m : Tab V}, e ∈ Tab.ins m i w → e = (i, w) ∨ e ∈ m
  | [], h => .inl (by simpa [Tab.ins] using h)
  | (k, v) :: m, h => by
    unfold Tab.ins at h
    split at h
    · rcases List.mem_cons.mp h with h | h
      · exact .inl h
      · exact .inr (List.mem_cons_of_mem _ h)
    · split at h
      · rcases List.mem_cons.mp h with h | h
        · exact .inl h
        · exact .inr h
      · rcases List.mem_cons.mp h with h | h
        · exact .inr (h ▸ List.mem_cons_self)
        · rcases Tab.mem_ins h with h | h
          · exact .inl h
          · exact .inr (List.mem_cons_of_mem _ h)

/-- A write of a table keeps its canonical form. -/
theorem Tab.wf_put [DecidableEq V] {d : V} {m : Tab V} (h : Tab.wf d m = true) (i : Nat) (w : V) : Tab.wf d (Tab.put d m i w) = true := by
  simp only [Tab.wf, Bool.and_eq_true, List.all_eq_true, decide_eq_true_eq] at h ⊢
  unfold Tab.put
  split
  · exact ⟨Tab.sortedFrom_del i h.1, fun e he => h.2 e (Tab.mem_del he)⟩
  · rename_i hw
    refine ⟨Tab.sortedFrom_ins i w h.1 (Nat.zero_le _), fun e he => ?_⟩
    rcases Tab.mem_ins he with he | he
    · exact he ▸ hw
    · exact h.2 e he

theorem testBit_mask (len i : Nat) : (2 ^ len - 1).testBit i = decide (i < len) := Nat.testBit_two_pow_sub_one len i

/-- A bit of a word whose field was written. -/
theorem getLsbD_setBits {n : Nat} (v : BitVec n) (lo len x i : Nat) :
    (setBits v lo len x).getLsbD i = (decide (i < n) && (if lo ≤ i ∧ i < lo + len then x.testBit (i - lo) else v.getLsbD i)) := by
  have hm : ((2 ^ len - 1) <<< lo).testBit i = (decide (lo ≤ i) && decide (i - lo < len)) := by
    rw [Nat.testBit_shiftLeft, testBit_mask]
  have hx : ((x % 2 ^ len) <<< lo).testBit i = (decide (lo ≤ i) && (decide (i - lo < len) && x.testBit (i - lo))) := by
    rw [Nat.testBit_shiftLeft, Nat.testBit_mod_two_pow]
  simp only [setBits, BitVec.getLsbD_or, BitVec.getLsbD_and, BitVec.getLsbD_not, BitVec.getLsbD_ofNat, hm, hx]
  by_cases hn : i < n
  · by_cases hl : lo ≤ i
    · by_cases hh : i - lo < len
      · have : i < lo + len := by omega
        simp [hn, hl, hh, this]
      · have : ¬ i < lo + len := by omega
        simp [hn, hl, hh, this]
    · simp [hn, hl]
  · simp [hn, BitVec.getLsbD_of_ge v i (by omega)]

/-- The bits of a field, one by one. -/
theorem testBit_bits {n : Nat} (v : BitVec n) (lo len i : Nat) : (bits v lo len).testBit i = (decide (i < len) && v.getLsbD (lo + i)) := by
  simp [bits, Nat.testBit_mod_two_pow, Nat.testBit_shiftRight, BitVec.getLsbD]

/-- A field written is read back, cut to its width. -/
theorem bits_setBits {n : Nat} (v : BitVec n) (lo len x : Nat) (h : lo + len ≤ n) : bits (setBits v lo len x) lo len = x % 2 ^ len := by
  apply Nat.eq_of_testBit_eq
  intro i
  rw [testBit_bits, getLsbD_setBits, Nat.testBit_mod_two_pow]
  by_cases hi : i < len
  · simp [hi, show lo + i < n by omega]
  · simp [hi]

/-- A field is unchanged by a write of a field that does not overlap it. -/
theorem bits_setBits_disjoint {n : Nat} (v : BitVec n) (lo len x a l : Nat) (h : a + l ≤ lo ∨ lo + len ≤ a) :
    bits (setBits v lo len x) a l = bits v a l := by
  apply Nat.eq_of_testBit_eq
  intro i
  rw [testBit_bits, testBit_bits, getLsbD_setBits]
  by_cases hi : i < l
  · have : ¬ (lo ≤ a + i ∧ a + i < lo + len) := by omega
    by_cases hn : a + i < n
    · simp [hi, this, hn]
    · simp [hi, hn, BitVec.getLsbD_of_ge v (a + i) (by omega)]
  · simp [hi]

/-- A bit outside a written field is unchanged. -/
theorem bit_setBits_disjoint {n : Nat} (v : BitVec n) (lo len x i : Nat) (h : i < lo ∨ lo + len ≤ i) : bit (setBits v lo len x) i = bit v i := by
  have h' : ¬ (lo ≤ i ∧ i < lo + len) := by omega
  simp only [bit, getLsbD_setBits, h', if_false]
  by_cases hn : i < n
  · simp [hn]
  · simp [hn, BitVec.getLsbD_of_ge v i (by omega)]

/-- A bit written is read back. -/
theorem bit_setBit {n : Nat} (v : BitVec n) (i : Nat) (b : Bool) (h : i < n) : bit (setBit v i b) i = b := by
  simp only [bit, setBit, getLsbD_setBits, h]
  cases b <;> simp

/-- A field is smaller than its width allows. -/
theorem bits_lt {n : Nat} (v : BitVec n) (lo len : Nat) : bits v lo len < 2 ^ len := Nat.mod_lt _ (Nat.two_pow_pos len)

end Sys2Proof
end

