-- ==== Sys2Proof/Laws/State.lean ====
section
/-! SUPPORT. One lemma for each update of the state and each field or accessor it leaves alone, true by unfolding. -/

namespace Sys2Proof.Machine

/-! rput -/

@[simp] theorem State.rput_pending (s : State) (k : RegKind) (i j : Nat) (v : W64) : (s.rput k i j v).pending = s.pending := rfl
@[simp] theorem State.rput_now (s : State) (k : RegKind) (i j : Nat) (v : W64) : (s.rput k i j v).now = s.now := rfl
@[simp] theorem State.rput_tb (s : State) (k : RegKind) (i j : Nat) (v : W64) : (s.rput k i j v).tb = s.tb := rfl
@[simp] theorem State.rput_tbPhase (s : State) (k : RegKind) (i j : Nat) (v : W64) : (s.rput k i j v).tbPhase = s.tbPhase := rfl
@[simp] theorem State.rput_fBase (s : State) (k : RegKind) (i j : Nat) (v : W64) : (s.rput k i j v).fBase = s.fBase := rfl
@[simp] theorem State.rput_cores (s : State) (k : RegKind) (i j : Nat) (v : W64) : (s.rput k i j v).cores = s.cores := rfl
@[simp] theorem State.rput_parts (s : State) (k : RegKind) (i j : Nat) (v : W64) : (s.rput k i j v).parts = s.parts := rfl
@[simp] theorem State.rput_home (s : State) (k : RegKind) (i j : Nat) (v : W64) : (s.rput k i j v).home = s.home := rfl
@[simp] theorem State.rput_fab (s : State) (k : RegKind) (i j : Nat) (v : W64) : (s.rput k i j v).fab = s.fab := rfl
@[simp] theorem State.rput_mem (s : State) (k : RegKind) (i j : Nat) (v : W64) : (s.rput k i j v).mem = s.mem := rfl
@[simp] theorem State.rput_reel (s : State) (k : RegKind) (i j : Nat) (v : W64) : (s.rput k i j v).reel = s.reel := rfl
@[simp] theorem State.rput_kiln (s : State) (k : RegKind) (i j : Nat) (v : W64) : (s.rput k i j v).kiln = s.kiln := rfl
@[simp] theorem State.rput_dies (s : State) (k : RegKind) (i j : Nat) (v : W64) : (s.rput k i j v).dies = s.dies := rfl
@[simp] theorem State.rput_ioFuses (s : State) (k : RegKind) (i j : Nat) (v : W64) : (s.rput k i j v).ioFuses = s.ioFuses := rfl
@[simp] theorem State.rput_pwr (s : State) (k : RegKind) (i j : Nat) (v : W64) : (s.rput k i j v).pwr = s.pwr := rfl
@[simp] theorem State.rput_ep (s : State) (k : RegKind) (i j : Nat) (v : W64) : (s.rput k i j v).ep = s.ep := rfl
@[simp] theorem State.rput_dmaCh (s : State) (k : RegKind) (i j : Nat) (v : W64) : (s.rput k i j v).dmaCh = s.dmaCh := rfl
@[simp] theorem State.rput_dmaEng (s : State) (k : RegKind) (i j : Nat) (v : W64) : (s.rput k i j v).dmaEng = s.dmaEng := rfl
@[simp] theorem State.rput_pmu (s : State) (k : RegKind) (i j : Nat) (v : W64) : (s.rput k i j v).pmu = s.pmu := rfl
@[simp] theorem State.rput_rpts (s : State) (k : RegKind) (i j : Nat) (v : W64) : (s.rput k i j v).rpts = s.rpts := rfl
@[simp] theorem State.rput_pins (s : State) (k : RegKind) (i j : Nat) (v : W64) : (s.rput k i j v).pins = s.pins := rfl
@[simp] theorem State.rput_free (s : State) (k : RegKind) (i j : Nat) (v : W64) : (s.rput k i j v).free = s.free := rfl
@[simp] theorem State.rput_core (s : State) (k : RegKind) (i j : Nat) (v : W64) (c0 : Nat) : (s.rput k i j v).core c0 = s.core c0 := rfl
@[simp] theorem State.rput_ctx (s : State) (k : RegKind) (i j : Nat) (v : W64) (c0 i0 : Nat) : (s.rput k i j v).ctx c0 i0 = s.ctx c0 i0 := rfl
@[simp] theorem State.rput_part (s : State) (k : RegKind) (i j : Nat) (v : W64) (p0 : Nat) : (s.rput k i j v).part p0 = s.part p0 := rfl
@[simp] theorem State.rput_die (s : State) (k : RegKind) (i j : Nat) (v : W64) (d0 : Nat) : (s.rput k i j v).die d0 = s.die d0 := rfl
@[simp] theorem State.rput_fcyc (s : State) (k : RegKind) (i j : Nat) (v : W64) : (s.rput k i j v).fcyc = s.fcyc := rfl
@[simp] theorem State.rput_time (s : State) (k : RegKind) (i j : Nat) (v : W64) : (s.rput k i j v).time = s.time := rfl
@[simp] theorem State.rput_rport (s : State) (k : RegKind) (i j : Nat) (v : W64) (k0 : Nat) : (s.rput k i j v).rport k0 = s.rport k0 := rfl
@[simp] theorem State.rput_slice (s : State) (k : RegKind) (i j : Nat) (v : W64) (n0 : Nat) : (s.rput k i j v).slice n0 = s.slice n0 := rfl
@[simp] theorem State.rput_msc (s : State) (k : RegKind) (i j : Nat) (v : W64) (l0 : Nat) : (s.rput k i j v).msc l0 = s.msc l0 := rfl
@[simp] theorem State.rput_kfind (s : State) (k : RegKind) (i j : Nat) (v : W64) (id0 : Nat) : (s.rput k i j v).kfind id0 = s.kfind id0 := rfl
@[simp] theorem State.rput_chan (s : State) (k : RegKind) (i j : Nat) (v : W64) (ch0 : Nat) : (s.rput k i j v).chan ch0 = s.chan ch0 := rfl
@[simp] theorem State.rput_eng (s : State) (k : RegKind) (i j : Nat) (v : W64) (e0 : Nat) : (s.rput k i j v).eng e0 = s.eng e0 := rfl
@[simp] theorem State.rput_rpt (s : State) (k : RegKind) (i j : Nat) (v : W64) (n0 : Nat) : (s.rput k i j v).rpt n0 = s.rpt n0 := rfl
@[simp] theorem State.rput_cfgW (s : State) (k : RegKind) (i j : Nat) (v : W64) (o0 : Nat) : (s.rput k i j v).cfgW o0 = s.cfgW o0 := rfl
@[simp] theorem State.rput_hwMode (s : State) (k : RegKind) (i j : Nat) (v : W64) (n0 : Nat) : (s.rput k i j v).hwMode n0 = s.hwMode n0 := rfl

/-! fput -/

@[simp] theorem State.fput_pending (s : State) (f : Fld) (i j v : Nat) : (s.fput f i j v).pending = s.pending := rfl
@[simp] theorem State.fput_now (s : State) (f : Fld) (i j v : Nat) : (s.fput f i j v).now = s.now := rfl
@[simp] theorem State.fput_tb (s : State) (f : Fld) (i j v : Nat) : (s.fput f i j v).tb = s.tb := rfl
@[simp] theorem State.fput_tbPhase (s : State) (f : Fld) (i j v : Nat) : (s.fput f i j v).tbPhase = s.tbPhase := rfl
@[simp] theorem State.fput_fBase (s : State) (f : Fld) (i j v : Nat) : (s.fput f i j v).fBase = s.fBase := rfl
@[simp] theorem State.fput_cores (s : State) (f : Fld) (i j v : Nat) : (s.fput f i j v).cores = s.cores := rfl
@[simp] theorem State.fput_parts (s : State) (f : Fld) (i j v : Nat) : (s.fput f i j v).parts = s.parts := rfl
@[simp] theorem State.fput_home (s : State) (f : Fld) (i j v : Nat) : (s.fput f i j v).home = s.home := rfl
@[simp] theorem State.fput_fab (s : State) (f : Fld) (i j v : Nat) : (s.fput f i j v).fab = s.fab := rfl
@[simp] theorem State.fput_mem (s : State) (f : Fld) (i j v : Nat) : (s.fput f i j v).mem = s.mem := rfl
@[simp] theorem State.fput_reel (s : State) (f : Fld) (i j v : Nat) : (s.fput f i j v).reel = s.reel := rfl
@[simp] theorem State.fput_kiln (s : State) (f : Fld) (i j v : Nat) : (s.fput f i j v).kiln = s.kiln := rfl
@[simp] theorem State.fput_dies (s : State) (f : Fld) (i j v : Nat) : (s.fput f i j v).dies = s.dies := rfl
@[simp] theorem State.fput_ioFuses (s : State) (f : Fld) (i j v : Nat) : (s.fput f i j v).ioFuses = s.ioFuses := rfl
@[simp] theorem State.fput_pwr (s : State) (f : Fld) (i j v : Nat) : (s.fput f i j v).pwr = s.pwr := rfl
@[simp] theorem State.fput_ep (s : State) (f : Fld) (i j v : Nat) : (s.fput f i j v).ep = s.ep := rfl
@[simp] theorem State.fput_dmaCh (s : State) (f : Fld) (i j v : Nat) : (s.fput f i j v).dmaCh = s.dmaCh := rfl
@[simp] theorem State.fput_dmaEng (s : State) (f : Fld) (i j v : Nat) : (s.fput f i j v).dmaEng = s.dmaEng := rfl
@[simp] theorem State.fput_pmu (s : State) (f : Fld) (i j v : Nat) : (s.fput f i j v).pmu = s.pmu := rfl
@[simp] theorem State.fput_rpts (s : State) (f : Fld) (i j v : Nat) : (s.fput f i j v).rpts = s.rpts := rfl
@[simp] theorem State.fput_pins (s : State) (f : Fld) (i j v : Nat) : (s.fput f i j v).pins = s.pins := rfl
@[simp] theorem State.fput_free (s : State) (f : Fld) (i j v : Nat) : (s.fput f i j v).free = s.free := rfl
@[simp] theorem State.fput_core (s : State) (f : Fld) (i j v : Nat) (c0 : Nat) : (s.fput f i j v).core c0 = s.core c0 := rfl
@[simp] theorem State.fput_ctx (s : State) (f : Fld) (i j v : Nat) (c0 i0 : Nat) : (s.fput f i j v).ctx c0 i0 = s.ctx c0 i0 := rfl
@[simp] theorem State.fput_part (s : State) (f : Fld) (i j v : Nat) (p0 : Nat) : (s.fput f i j v).part p0 = s.part p0 := rfl
@[simp] theorem State.fput_die (s : State) (f : Fld) (i j v : Nat) (d0 : Nat) : (s.fput f i j v).die d0 = s.die d0 := rfl
@[simp] theorem State.fput_fcyc (s : State) (f : Fld) (i j v : Nat) : (s.fput f i j v).fcyc = s.fcyc := rfl
@[simp] theorem State.fput_time (s : State) (f : Fld) (i j v : Nat) : (s.fput f i j v).time = s.time := rfl
@[simp] theorem State.fput_rport (s : State) (f : Fld) (i j v : Nat) (k0 : Nat) : (s.fput f i j v).rport k0 = s.rport k0 := rfl
@[simp] theorem State.fput_slice (s : State) (f : Fld) (i j v : Nat) (n0 : Nat) : (s.fput f i j v).slice n0 = s.slice n0 := rfl
@[simp] theorem State.fput_msc (s : State) (f : Fld) (i j v : Nat) (l0 : Nat) : (s.fput f i j v).msc l0 = s.msc l0 := rfl
@[simp] theorem State.fput_kfind (s : State) (f : Fld) (i j v : Nat) (id0 : Nat) : (s.fput f i j v).kfind id0 = s.kfind id0 := rfl
@[simp] theorem State.fput_chan (s : State) (f : Fld) (i j v : Nat) (ch0 : Nat) : (s.fput f i j v).chan ch0 = s.chan ch0 := rfl
@[simp] theorem State.fput_eng (s : State) (f : Fld) (i j v : Nat) (e0 : Nat) : (s.fput f i j v).eng e0 = s.eng e0 := rfl
@[simp] theorem State.fput_rpt (s : State) (f : Fld) (i j v : Nat) (n0 : Nat) : (s.fput f i j v).rpt n0 = s.rpt n0 := rfl
@[simp] theorem State.fput_cfgW (s : State) (f : Fld) (i j v : Nat) (o0 : Nat) : (s.fput f i j v).cfgW o0 = s.cfgW o0 := rfl
@[simp] theorem State.fput_hwMode (s : State) (f : Fld) (i j v : Nat) (n0 : Nat) : (s.fput f i j v).hwMode n0 = s.hwMode n0 := rfl

/-! fbump -/

@[simp] theorem State.fbump_pending (s : State) (f : Fld) (i j n : Nat) : (s.fbump f i j n).pending = s.pending := rfl
@[simp] theorem State.fbump_now (s : State) (f : Fld) (i j n : Nat) : (s.fbump f i j n).now = s.now := rfl
@[simp] theorem State.fbump_tb (s : State) (f : Fld) (i j n : Nat) : (s.fbump f i j n).tb = s.tb := rfl
@[simp] theorem State.fbump_tbPhase (s : State) (f : Fld) (i j n : Nat) : (s.fbump f i j n).tbPhase = s.tbPhase := rfl
@[simp] theorem State.fbump_fBase (s : State) (f : Fld) (i j n : Nat) : (s.fbump f i j n).fBase = s.fBase := rfl
@[simp] theorem State.fbump_cores (s : State) (f : Fld) (i j n : Nat) : (s.fbump f i j n).cores = s.cores := rfl
@[simp] theorem State.fbump_parts (s : State) (f : Fld) (i j n : Nat) : (s.fbump f i j n).parts = s.parts := rfl
@[simp] theorem State.fbump_home (s : State) (f : Fld) (i j n : Nat) : (s.fbump f i j n).home = s.home := rfl
@[simp] theorem State.fbump_fab (s : State) (f : Fld) (i j n : Nat) : (s.fbump f i j n).fab = s.fab := rfl
@[simp] theorem State.fbump_mem (s : State) (f : Fld) (i j n : Nat) : (s.fbump f i j n).mem = s.mem := rfl
@[simp] theorem State.fbump_reel (s : State) (f : Fld) (i j n : Nat) : (s.fbump f i j n).reel = s.reel := rfl
@[simp] theorem State.fbump_kiln (s : State) (f : Fld) (i j n : Nat) : (s.fbump f i j n).kiln = s.kiln := rfl
@[simp] theorem State.fbump_dies (s : State) (f : Fld) (i j n : Nat) : (s.fbump f i j n).dies = s.dies := rfl
@[simp] theorem State.fbump_ioFuses (s : State) (f : Fld) (i j n : Nat) : (s.fbump f i j n).ioFuses = s.ioFuses := rfl
@[simp] theorem State.fbump_pwr (s : State) (f : Fld) (i j n : Nat) : (s.fbump f i j n).pwr = s.pwr := rfl
@[simp] theorem State.fbump_ep (s : State) (f : Fld) (i j n : Nat) : (s.fbump f i j n).ep = s.ep := rfl
@[simp] theorem State.fbump_dmaCh (s : State) (f : Fld) (i j n : Nat) : (s.fbump f i j n).dmaCh = s.dmaCh := rfl
@[simp] theorem State.fbump_dmaEng (s : State) (f : Fld) (i j n : Nat) : (s.fbump f i j n).dmaEng = s.dmaEng := rfl
@[simp] theorem State.fbump_pmu (s : State) (f : Fld) (i j n : Nat) : (s.fbump f i j n).pmu = s.pmu := rfl
@[simp] theorem State.fbump_rpts (s : State) (f : Fld) (i j n : Nat) : (s.fbump f i j n).rpts = s.rpts := rfl
@[simp] theorem State.fbump_pins (s : State) (f : Fld) (i j n : Nat) : (s.fbump f i j n).pins = s.pins := rfl
@[simp] theorem State.fbump_free (s : State) (f : Fld) (i j n : Nat) : (s.fbump f i j n).free = s.free := rfl
@[simp] theorem State.fbump_core (s : State) (f : Fld) (i j n : Nat) (c0 : Nat) : (s.fbump f i j n).core c0 = s.core c0 := rfl
@[simp] theorem State.fbump_ctx (s : State) (f : Fld) (i j n : Nat) (c0 i0 : Nat) : (s.fbump f i j n).ctx c0 i0 = s.ctx c0 i0 := rfl
@[simp] theorem State.fbump_part (s : State) (f : Fld) (i j n : Nat) (p0 : Nat) : (s.fbump f i j n).part p0 = s.part p0 := rfl
@[simp] theorem State.fbump_die (s : State) (f : Fld) (i j n : Nat) (d0 : Nat) : (s.fbump f i j n).die d0 = s.die d0 := rfl
@[simp] theorem State.fbump_fcyc (s : State) (f : Fld) (i j n : Nat) : (s.fbump f i j n).fcyc = s.fcyc := rfl
@[simp] theorem State.fbump_time (s : State) (f : Fld) (i j n : Nat) : (s.fbump f i j n).time = s.time := rfl
@[simp] theorem State.fbump_rport (s : State) (f : Fld) (i j n : Nat) (k0 : Nat) : (s.fbump f i j n).rport k0 = s.rport k0 := rfl
@[simp] theorem State.fbump_slice (s : State) (f : Fld) (i j n : Nat) (n0 : Nat) : (s.fbump f i j n).slice n0 = s.slice n0 := rfl
@[simp] theorem State.fbump_msc (s : State) (f : Fld) (i j n : Nat) (l0 : Nat) : (s.fbump f i j n).msc l0 = s.msc l0 := rfl
@[simp] theorem State.fbump_kfind (s : State) (f : Fld) (i j n : Nat) (id0 : Nat) : (s.fbump f i j n).kfind id0 = s.kfind id0 := rfl
@[simp] theorem State.fbump_chan (s : State) (f : Fld) (i j n : Nat) (ch0 : Nat) : (s.fbump f i j n).chan ch0 = s.chan ch0 := rfl
@[simp] theorem State.fbump_eng (s : State) (f : Fld) (i j n : Nat) (e0 : Nat) : (s.fbump f i j n).eng e0 = s.eng e0 := rfl
@[simp] theorem State.fbump_rpt (s : State) (f : Fld) (i j n : Nat) (n0 : Nat) : (s.fbump f i j n).rpt n0 = s.rpt n0 := rfl
@[simp] theorem State.fbump_cfgW (s : State) (f : Fld) (i j n : Nat) (o0 : Nat) : (s.fbump f i j n).cfgW o0 = s.cfgW o0 := rfl
@[simp] theorem State.fbump_hwMode (s : State) (f : Fld) (i j n : Nat) (n0 : Nat) : (s.fbump f i j n).hwMode n0 = s.hwMode n0 := rfl

/-! rwrite -/

@[simp] theorem State.rwrite_pending (s : State) (k : RegKind) (i j : Nat) (v : W64) : (s.rwrite k i j v).pending = s.pending := rfl
@[simp] theorem State.rwrite_now (s : State) (k : RegKind) (i j : Nat) (v : W64) : (s.rwrite k i j v).now = s.now := rfl
@[simp] theorem State.rwrite_tb (s : State) (k : RegKind) (i j : Nat) (v : W64) : (s.rwrite k i j v).tb = s.tb := rfl
@[simp] theorem State.rwrite_tbPhase (s : State) (k : RegKind) (i j : Nat) (v : W64) : (s.rwrite k i j v).tbPhase = s.tbPhase := rfl
@[simp] theorem State.rwrite_fBase (s : State) (k : RegKind) (i j : Nat) (v : W64) : (s.rwrite k i j v).fBase = s.fBase := rfl
@[simp] theorem State.rwrite_cores (s : State) (k : RegKind) (i j : Nat) (v : W64) : (s.rwrite k i j v).cores = s.cores := rfl
@[simp] theorem State.rwrite_parts (s : State) (k : RegKind) (i j : Nat) (v : W64) : (s.rwrite k i j v).parts = s.parts := rfl
@[simp] theorem State.rwrite_home (s : State) (k : RegKind) (i j : Nat) (v : W64) : (s.rwrite k i j v).home = s.home := rfl
@[simp] theorem State.rwrite_fab (s : State) (k : RegKind) (i j : Nat) (v : W64) : (s.rwrite k i j v).fab = s.fab := rfl
@[simp] theorem State.rwrite_mem (s : State) (k : RegKind) (i j : Nat) (v : W64) : (s.rwrite k i j v).mem = s.mem := rfl
@[simp] theorem State.rwrite_reel (s : State) (k : RegKind) (i j : Nat) (v : W64) : (s.rwrite k i j v).reel = s.reel := rfl
@[simp] theorem State.rwrite_kiln (s : State) (k : RegKind) (i j : Nat) (v : W64) : (s.rwrite k i j v).kiln = s.kiln := rfl
@[simp] theorem State.rwrite_dies (s : State) (k : RegKind) (i j : Nat) (v : W64) : (s.rwrite k i j v).dies = s.dies := rfl
@[simp] theorem State.rwrite_ioFuses (s : State) (k : RegKind) (i j : Nat) (v : W64) : (s.rwrite k i j v).ioFuses = s.ioFuses := rfl
@[simp] theorem State.rwrite_pwr (s : State) (k : RegKind) (i j : Nat) (v : W64) : (s.rwrite k i j v).pwr = s.pwr := rfl
@[simp] theorem State.rwrite_ep (s : State) (k : RegKind) (i j : Nat) (v : W64) : (s.rwrite k i j v).ep = s.ep := rfl
@[simp] theorem State.rwrite_dmaCh (s : State) (k : RegKind) (i j : Nat) (v : W64) : (s.rwrite k i j v).dmaCh = s.dmaCh := rfl
@[simp] theorem State.rwrite_dmaEng (s : State) (k : RegKind) (i j : Nat) (v : W64) : (s.rwrite k i j v).dmaEng = s.dmaEng := rfl
@[simp] theorem State.rwrite_pmu (s : State) (k : RegKind) (i j : Nat) (v : W64) : (s.rwrite k i j v).pmu = s.pmu := rfl
@[simp] theorem State.rwrite_rpts (s : State) (k : RegKind) (i j : Nat) (v : W64) : (s.rwrite k i j v).rpts = s.rpts := rfl
@[simp] theorem State.rwrite_pins (s : State) (k : RegKind) (i j : Nat) (v : W64) : (s.rwrite k i j v).pins = s.pins := rfl
@[simp] theorem State.rwrite_free (s : State) (k : RegKind) (i j : Nat) (v : W64) : (s.rwrite k i j v).free = s.free := rfl
@[simp] theorem State.rwrite_core (s : State) (k : RegKind) (i j : Nat) (v : W64) (c0 : Nat) : (s.rwrite k i j v).core c0 = s.core c0 := rfl
@[simp] theorem State.rwrite_ctx (s : State) (k : RegKind) (i j : Nat) (v : W64) (c0 i0 : Nat) : (s.rwrite k i j v).ctx c0 i0 = s.ctx c0 i0 := rfl
@[simp] theorem State.rwrite_part (s : State) (k : RegKind) (i j : Nat) (v : W64) (p0 : Nat) : (s.rwrite k i j v).part p0 = s.part p0 := rfl
@[simp] theorem State.rwrite_die (s : State) (k : RegKind) (i j : Nat) (v : W64) (d0 : Nat) : (s.rwrite k i j v).die d0 = s.die d0 := rfl
@[simp] theorem State.rwrite_fcyc (s : State) (k : RegKind) (i j : Nat) (v : W64) : (s.rwrite k i j v).fcyc = s.fcyc := rfl
@[simp] theorem State.rwrite_time (s : State) (k : RegKind) (i j : Nat) (v : W64) : (s.rwrite k i j v).time = s.time := rfl
@[simp] theorem State.rwrite_rport (s : State) (k : RegKind) (i j : Nat) (v : W64) (k0 : Nat) : (s.rwrite k i j v).rport k0 = s.rport k0 := rfl
@[simp] theorem State.rwrite_slice (s : State) (k : RegKind) (i j : Nat) (v : W64) (n0 : Nat) : (s.rwrite k i j v).slice n0 = s.slice n0 := rfl
@[simp] theorem State.rwrite_msc (s : State) (k : RegKind) (i j : Nat) (v : W64) (l0 : Nat) : (s.rwrite k i j v).msc l0 = s.msc l0 := rfl
@[simp] theorem State.rwrite_kfind (s : State) (k : RegKind) (i j : Nat) (v : W64) (id0 : Nat) : (s.rwrite k i j v).kfind id0 = s.kfind id0 := rfl
@[simp] theorem State.rwrite_chan (s : State) (k : RegKind) (i j : Nat) (v : W64) (ch0 : Nat) : (s.rwrite k i j v).chan ch0 = s.chan ch0 := rfl
@[simp] theorem State.rwrite_eng (s : State) (k : RegKind) (i j : Nat) (v : W64) (e0 : Nat) : (s.rwrite k i j v).eng e0 = s.eng e0 := rfl
@[simp] theorem State.rwrite_rpt (s : State) (k : RegKind) (i j : Nat) (v : W64) (n0 : Nat) : (s.rwrite k i j v).rpt n0 = s.rpt n0 := rfl
@[simp] theorem State.rwrite_cfgW (s : State) (k : RegKind) (i j : Nat) (v : W64) (o0 : Nat) : (s.rwrite k i j v).cfgW o0 = s.cfgW o0 := rfl
@[simp] theorem State.rwrite_hwMode (s : State) (k : RegKind) (i j : Nat) (v : W64) (n0 : Nat) : (s.rwrite k i j v).hwMode n0 = s.hwMode n0 := rfl

/-! setMapBit -/

@[simp] theorem State.setMapBit_pending (s : State) (k : RegKind) (i n : Nat) (b : Bool) : (s.setMapBit k i n b).pending = s.pending := rfl
@[simp] theorem State.setMapBit_now (s : State) (k : RegKind) (i n : Nat) (b : Bool) : (s.setMapBit k i n b).now = s.now := rfl
@[simp] theorem State.setMapBit_tb (s : State) (k : RegKind) (i n : Nat) (b : Bool) : (s.setMapBit k i n b).tb = s.tb := rfl
@[simp] theorem State.setMapBit_tbPhase (s : State) (k : RegKind) (i n : Nat) (b : Bool) : (s.setMapBit k i n b).tbPhase = s.tbPhase := rfl
@[simp] theorem State.setMapBit_fBase (s : State) (k : RegKind) (i n : Nat) (b : Bool) : (s.setMapBit k i n b).fBase = s.fBase := rfl
@[simp] theorem State.setMapBit_cores (s : State) (k : RegKind) (i n : Nat) (b : Bool) : (s.setMapBit k i n b).cores = s.cores := rfl
@[simp] theorem State.setMapBit_parts (s : State) (k : RegKind) (i n : Nat) (b : Bool) : (s.setMapBit k i n b).parts = s.parts := rfl
@[simp] theorem State.setMapBit_home (s : State) (k : RegKind) (i n : Nat) (b : Bool) : (s.setMapBit k i n b).home = s.home := rfl
@[simp] theorem State.setMapBit_fab (s : State) (k : RegKind) (i n : Nat) (b : Bool) : (s.setMapBit k i n b).fab = s.fab := rfl
@[simp] theorem State.setMapBit_mem (s : State) (k : RegKind) (i n : Nat) (b : Bool) : (s.setMapBit k i n b).mem = s.mem := rfl
@[simp] theorem State.setMapBit_reel (s : State) (k : RegKind) (i n : Nat) (b : Bool) : (s.setMapBit k i n b).reel = s.reel := rfl
@[simp] theorem State.setMapBit_kiln (s : State) (k : RegKind) (i n : Nat) (b : Bool) : (s.setMapBit k i n b).kiln = s.kiln := rfl
@[simp] theorem State.setMapBit_dies (s : State) (k : RegKind) (i n : Nat) (b : Bool) : (s.setMapBit k i n b).dies = s.dies := rfl
@[simp] theorem State.setMapBit_ioFuses (s : State) (k : RegKind) (i n : Nat) (b : Bool) : (s.setMapBit k i n b).ioFuses = s.ioFuses := rfl
@[simp] theorem State.setMapBit_pwr (s : State) (k : RegKind) (i n : Nat) (b : Bool) : (s.setMapBit k i n b).pwr = s.pwr := rfl
@[simp] theorem State.setMapBit_ep (s : State) (k : RegKind) (i n : Nat) (b : Bool) : (s.setMapBit k i n b).ep = s.ep := rfl
@[simp] theorem State.setMapBit_dmaCh (s : State) (k : RegKind) (i n : Nat) (b : Bool) : (s.setMapBit k i n b).dmaCh = s.dmaCh := rfl
@[simp] theorem State.setMapBit_dmaEng (s : State) (k : RegKind) (i n : Nat) (b : Bool) : (s.setMapBit k i n b).dmaEng = s.dmaEng := rfl
@[simp] theorem State.setMapBit_pmu (s : State) (k : RegKind) (i n : Nat) (b : Bool) : (s.setMapBit k i n b).pmu = s.pmu := rfl
@[simp] theorem State.setMapBit_rpts (s : State) (k : RegKind) (i n : Nat) (b : Bool) : (s.setMapBit k i n b).rpts = s.rpts := rfl
@[simp] theorem State.setMapBit_pins (s : State) (k : RegKind) (i n : Nat) (b : Bool) : (s.setMapBit k i n b).pins = s.pins := rfl
@[simp] theorem State.setMapBit_free (s : State) (k : RegKind) (i n : Nat) (b : Bool) : (s.setMapBit k i n b).free = s.free := rfl
@[simp] theorem State.setMapBit_core (s : State) (k : RegKind) (i n : Nat) (b : Bool) (c0 : Nat) : (s.setMapBit k i n b).core c0 = s.core c0 := rfl
@[simp] theorem State.setMapBit_ctx (s : State) (k : RegKind) (i n : Nat) (b : Bool) (c0 i0 : Nat) : (s.setMapBit k i n b).ctx c0 i0 = s.ctx c0 i0 := rfl
@[simp] theorem State.setMapBit_part (s : State) (k : RegKind) (i n : Nat) (b : Bool) (p0 : Nat) : (s.setMapBit k i n b).part p0 = s.part p0 := rfl
@[simp] theorem State.setMapBit_die (s : State) (k : RegKind) (i n : Nat) (b : Bool) (d0 : Nat) : (s.setMapBit k i n b).die d0 = s.die d0 := rfl
@[simp] theorem State.setMapBit_fcyc (s : State) (k : RegKind) (i n : Nat) (b : Bool) : (s.setMapBit k i n b).fcyc = s.fcyc := rfl
@[simp] theorem State.setMapBit_time (s : State) (k : RegKind) (i n : Nat) (b : Bool) : (s.setMapBit k i n b).time = s.time := rfl
@[simp] theorem State.setMapBit_rport (s : State) (k : RegKind) (i n : Nat) (b : Bool) (k0 : Nat) : (s.setMapBit k i n b).rport k0 = s.rport k0 := rfl
@[simp] theorem State.setMapBit_slice (s : State) (k : RegKind) (i n : Nat) (b : Bool) (n0 : Nat) : (s.setMapBit k i n b).slice n0 = s.slice n0 := rfl
@[simp] theorem State.setMapBit_msc (s : State) (k : RegKind) (i n : Nat) (b : Bool) (l0 : Nat) : (s.setMapBit k i n b).msc l0 = s.msc l0 := rfl
@[simp] theorem State.setMapBit_kfind (s : State) (k : RegKind) (i n : Nat) (b : Bool) (id0 : Nat) : (s.setMapBit k i n b).kfind id0 = s.kfind id0 := rfl
@[simp] theorem State.setMapBit_chan (s : State) (k : RegKind) (i n : Nat) (b : Bool) (ch0 : Nat) : (s.setMapBit k i n b).chan ch0 = s.chan ch0 := rfl
@[simp] theorem State.setMapBit_eng (s : State) (k : RegKind) (i n : Nat) (b : Bool) (e0 : Nat) : (s.setMapBit k i n b).eng e0 = s.eng e0 := rfl
@[simp] theorem State.setMapBit_rpt (s : State) (k : RegKind) (i n : Nat) (b : Bool) (n0 : Nat) : (s.setMapBit k i n b).rpt n0 = s.rpt n0 := rfl
@[simp] theorem State.setMapBit_cfgW (s : State) (k : RegKind) (i n : Nat) (b : Bool) (o0 : Nat) : (s.setMapBit k i n b).cfgW o0 = s.cfgW o0 := rfl
@[simp] theorem State.setMapBit_hwMode (s : State) (k : RegKind) (i n : Nat) (b : Bool) (n0 : Nat) : (s.setMapBit k i n b).hwMode n0 = s.hwMode n0 := rfl

/-! setCore -/

@[simp] theorem State.setCore_pending (s : State) (c : Nat) (k : Core) : (s.setCore c k).pending = s.pending := rfl
@[simp] theorem State.setCore_now (s : State) (c : Nat) (k : Core) : (s.setCore c k).now = s.now := rfl
@[simp] theorem State.setCore_tb (s : State) (c : Nat) (k : Core) : (s.setCore c k).tb = s.tb := rfl
@[simp] theorem State.setCore_tbPhase (s : State) (c : Nat) (k : Core) : (s.setCore c k).tbPhase = s.tbPhase := rfl
@[simp] theorem State.setCore_fBase (s : State) (c : Nat) (k : Core) : (s.setCore c k).fBase = s.fBase := rfl
@[simp] theorem State.setCore_cs (s : State) (c : Nat) (k : Core) : (s.setCore c k).cs = s.cs := rfl
@[simp] theorem State.setCore_parts (s : State) (c : Nat) (k : Core) : (s.setCore c k).parts = s.parts := rfl
@[simp] theorem State.setCore_home (s : State) (c : Nat) (k : Core) : (s.setCore c k).home = s.home := rfl
@[simp] theorem State.setCore_fab (s : State) (c : Nat) (k : Core) : (s.setCore c k).fab = s.fab := rfl
@[simp] theorem State.setCore_mem (s : State) (c : Nat) (k : Core) : (s.setCore c k).mem = s.mem := rfl
@[simp] theorem State.setCore_reel (s : State) (c : Nat) (k : Core) : (s.setCore c k).reel = s.reel := rfl
@[simp] theorem State.setCore_kiln (s : State) (c : Nat) (k : Core) : (s.setCore c k).kiln = s.kiln := rfl
@[simp] theorem State.setCore_dies (s : State) (c : Nat) (k : Core) : (s.setCore c k).dies = s.dies := rfl
@[simp] theorem State.setCore_ioFuses (s : State) (c : Nat) (k : Core) : (s.setCore c k).ioFuses = s.ioFuses := rfl
@[simp] theorem State.setCore_pwr (s : State) (c : Nat) (k : Core) : (s.setCore c k).pwr = s.pwr := rfl
@[simp] theorem State.setCore_ep (s : State) (c : Nat) (k : Core) : (s.setCore c k).ep = s.ep := rfl
@[simp] theorem State.setCore_dmaCh (s : State) (c : Nat) (k : Core) : (s.setCore c k).dmaCh = s.dmaCh := rfl
@[simp] theorem State.setCore_dmaEng (s : State) (c : Nat) (k : Core) : (s.setCore c k).dmaEng = s.dmaEng := rfl
@[simp] theorem State.setCore_pmu (s : State) (c : Nat) (k : Core) : (s.setCore c k).pmu = s.pmu := rfl
@[simp] theorem State.setCore_rpts (s : State) (c : Nat) (k : Core) : (s.setCore c k).rpts = s.rpts := rfl
@[simp] theorem State.setCore_pins (s : State) (c : Nat) (k : Core) : (s.setCore c k).pins = s.pins := rfl
@[simp] theorem State.setCore_free (s : State) (c : Nat) (k : Core) : (s.setCore c k).free = s.free := rfl
@[simp] theorem State.setCore_rget (s : State) (c : Nat) (k : Core) (k0 : RegKind) (i0 j0 : Nat) : (s.setCore c k).rget k0 i0 j0 = s.rget k0 i0 j0 := rfl
@[simp] theorem State.setCore_fget (s : State) (c : Nat) (k : Core) (f0 : Fld) (i0 j0 : Nat) : (s.setCore c k).fget f0 i0 j0 = s.fget f0 i0 j0 := rfl
@[simp] theorem State.setCore_part (s : State) (c : Nat) (k : Core) (p0 : Nat) : (s.setCore c k).part p0 = s.part p0 := rfl
@[simp] theorem State.setCore_die (s : State) (c : Nat) (k : Core) (d0 : Nat) : (s.setCore c k).die d0 = s.die d0 := rfl
@[simp] theorem State.setCore_fcyc (s : State) (c : Nat) (k : Core) : (s.setCore c k).fcyc = s.fcyc := rfl
@[simp] theorem State.setCore_time (s : State) (c : Nat) (k : Core) : (s.setCore c k).time = s.time := rfl
@[simp] theorem State.setCore_rport (s : State) (c : Nat) (k : Core) (k0 : Nat) : (s.setCore c k).rport k0 = s.rport k0 := rfl
@[simp] theorem State.setCore_slice (s : State) (c : Nat) (k : Core) (n0 : Nat) : (s.setCore c k).slice n0 = s.slice n0 := rfl
@[simp] theorem State.setCore_msc (s : State) (c : Nat) (k : Core) (l0 : Nat) : (s.setCore c k).msc l0 = s.msc l0 := rfl
@[simp] theorem State.setCore_kfind (s : State) (c : Nat) (k : Core) (id0 : Nat) : (s.setCore c k).kfind id0 = s.kfind id0 := rfl
@[simp] theorem State.setCore_chan (s : State) (c : Nat) (k : Core) (ch0 : Nat) : (s.setCore c k).chan ch0 = s.chan ch0 := rfl
@[simp] theorem State.setCore_eng (s : State) (c : Nat) (k : Core) (e0 : Nat) : (s.setCore c k).eng e0 = s.eng e0 := rfl
@[simp] theorem State.setCore_rpt (s : State) (c : Nat) (k : Core) (n0 : Nat) : (s.setCore c k).rpt n0 = s.rpt n0 := rfl
@[simp] theorem State.setCore_cfgW (s : State) (c : Nat) (k : Core) (o0 : Nat) : (s.setCore c k).cfgW o0 = s.cfgW o0 := rfl
@[simp] theorem State.setCore_pkg (s : State) (c : Nat) (k : Core) : (s.setCore c k).pkg = s.pkg := rfl
@[simp] theorem State.setCore_partState (s : State) (c : Nat) (k : Core) (p0 : Nat) : (s.setCore c k).partState p0 = s.partState p0 := rfl
@[simp] theorem State.setCore_hwMode (s : State) (c : Nat) (k : Core) (n0 : Nat) : (s.setCore c k).hwMode n0 = s.hwMode n0 := rfl

/-! modCore -/

@[simp] theorem State.modCore_pending (s : State) (c : Nat) (f : Core → Core) : (s.modCore c f).pending = s.pending := rfl
@[simp] theorem State.modCore_now (s : State) (c : Nat) (f : Core → Core) : (s.modCore c f).now = s.now := rfl
@[simp] theorem State.modCore_tb (s : State) (c : Nat) (f : Core → Core) : (s.modCore c f).tb = s.tb := rfl
@[simp] theorem State.modCore_tbPhase (s : State) (c : Nat) (f : Core → Core) : (s.modCore c f).tbPhase = s.tbPhase := rfl
@[simp] theorem State.modCore_fBase (s : State) (c : Nat) (f : Core → Core) : (s.modCore c f).fBase = s.fBase := rfl
@[simp] theorem State.modCore_cs (s : State) (c : Nat) (f : Core → Core) : (s.modCore c f).cs = s.cs := rfl
@[simp] theorem State.modCore_parts (s : State) (c : Nat) (f : Core → Core) : (s.modCore c f).parts = s.parts := rfl
@[simp] theorem State.modCore_home (s : State) (c : Nat) (f : Core → Core) : (s.modCore c f).home = s.home := rfl
@[simp] theorem State.modCore_fab (s : State) (c : Nat) (f : Core → Core) : (s.modCore c f).fab = s.fab := rfl
@[simp] theorem State.modCore_mem (s : State) (c : Nat) (f : Core → Core) : (s.modCore c f).mem = s.mem := rfl
@[simp] theorem State.modCore_reel (s : State) (c : Nat) (f : Core → Core) : (s.modCore c f).reel = s.reel := rfl
@[simp] theorem State.modCore_kiln (s : State) (c : Nat) (f : Core → Core) : (s.modCore c f).kiln = s.kiln := rfl
@[simp] theorem State.modCore_dies (s : State) (c : Nat) (f : Core → Core) : (s.modCore c f).dies = s.dies := rfl
@[simp] theorem State.modCore_ioFuses (s : State) (c : Nat) (f : Core → Core) : (s.modCore c f).ioFuses = s.ioFuses := rfl
@[simp] theorem State.modCore_pwr (s : State) (c : Nat) (f : Core → Core) : (s.modCore c f).pwr = s.pwr := rfl
@[simp] theorem State.modCore_ep (s : State) (c : Nat) (f : Core → Core) : (s.modCore c f).ep = s.ep := rfl
@[simp] theorem State.modCore_dmaCh (s : State) (c : Nat) (f : Core → Core) : (s.modCore c f).dmaCh = s.dmaCh := rfl
@[simp] theorem State.modCore_dmaEng (s : State) (c : Nat) (f : Core → Core) : (s.modCore c f).dmaEng = s.dmaEng := rfl
@[simp] theorem State.modCore_pmu (s : State) (c : Nat) (f : Core → Core) : (s.modCore c f).pmu = s.pmu := rfl
@[simp] theorem State.modCore_rpts (s : State) (c : Nat) (f : Core → Core) : (s.modCore c f).rpts = s.rpts := rfl
@[simp] theorem State.modCore_pins (s : State) (c : Nat) (f : Core → Core) : (s.modCore c f).pins = s.pins := rfl
@[simp] theorem State.modCore_free (s : State) (c : Nat) (f : Core → Core) : (s.modCore c f).free = s.free := rfl
@[simp] theorem State.modCore_rget (s : State) (c : Nat) (f : Core → Core) (k0 : RegKind) (i0 j0 : Nat) : (s.modCore c f).rget k0 i0 j0 = s.rget k0 i0 j0 := rfl
@[simp] theorem State.modCore_fget (s : State) (c : Nat) (f : Core → Core) (f0 : Fld) (i0 j0 : Nat) : (s.modCore c f).fget f0 i0 j0 = s.fget f0 i0 j0 := rfl
@[simp] theorem State.modCore_part (s : State) (c : Nat) (f : Core → Core) (p0 : Nat) : (s.modCore c f).part p0 = s.part p0 := rfl
@[simp] theorem State.modCore_die (s : State) (c : Nat) (f : Core → Core) (d0 : Nat) : (s.modCore c f).die d0 = s.die d0 := rfl
@[simp] theorem State.modCore_fcyc (s : State) (c : Nat) (f : Core → Core) : (s.modCore c f).fcyc = s.fcyc := rfl
@[simp] theorem State.modCore_time (s : State) (c : Nat) (f : Core → Core) : (s.modCore c f).time = s.time := rfl
@[simp] theorem State.modCore_rport (s : State) (c : Nat) (f : Core → Core) (k0 : Nat) : (s.modCore c f).rport k0 = s.rport k0 := rfl
@[simp] theorem State.modCore_slice (s : State) (c : Nat) (f : Core → Core) (n0 : Nat) : (s.modCore c f).slice n0 = s.slice n0 := rfl
@[simp] theorem State.modCore_msc (s : State) (c : Nat) (f : Core → Core) (l0 : Nat) : (s.modCore c f).msc l0 = s.msc l0 := rfl
@[simp] theorem State.modCore_kfind (s : State) (c : Nat) (f : Core → Core) (id0 : Nat) : (s.modCore c f).kfind id0 = s.kfind id0 := rfl
@[simp] theorem State.modCore_chan (s : State) (c : Nat) (f : Core → Core) (ch0 : Nat) : (s.modCore c f).chan ch0 = s.chan ch0 := rfl
@[simp] theorem State.modCore_eng (s : State) (c : Nat) (f : Core → Core) (e0 : Nat) : (s.modCore c f).eng e0 = s.eng e0 := rfl
@[simp] theorem State.modCore_rpt (s : State) (c : Nat) (f : Core → Core) (n0 : Nat) : (s.modCore c f).rpt n0 = s.rpt n0 := rfl
@[simp] theorem State.modCore_cfgW (s : State) (c : Nat) (f : Core → Core) (o0 : Nat) : (s.modCore c f).cfgW o0 = s.cfgW o0 := rfl
@[simp] theorem State.modCore_pkg (s : State) (c : Nat) (f : Core → Core) : (s.modCore c f).pkg = s.pkg := rfl
@[simp] theorem State.modCore_partState (s : State) (c : Nat) (f : Core → Core) (p0 : Nat) : (s.modCore c f).partState p0 = s.partState p0 := rfl
@[simp] theorem State.modCore_hwMode (s : State) (c : Nat) (f : Core → Core) (n0 : Nat) : (s.modCore c f).hwMode n0 = s.hwMode n0 := rfl

/-! modCtx -/

@[simp] theorem State.modCtx_pending (s : State) (c i : Nat) (f : Ctx → Ctx) : (s.modCtx c i f).pending = s.pending := rfl
@[simp] theorem State.modCtx_now (s : State) (c i : Nat) (f : Ctx → Ctx) : (s.modCtx c i f).now = s.now := rfl
@[simp] theorem State.modCtx_tb (s : State) (c i : Nat) (f : Ctx → Ctx) : (s.modCtx c i f).tb = s.tb := rfl
@[simp] theorem State.modCtx_tbPhase (s : State) (c i : Nat) (f : Ctx → Ctx) : (s.modCtx c i f).tbPhase = s.tbPhase := rfl
@[simp] theorem State.modCtx_fBase (s : State) (c i : Nat) (f : Ctx → Ctx) : (s.modCtx c i f).fBase = s.fBase := rfl
@[simp] theorem State.modCtx_cs (s : State) (c i : Nat) (f : Ctx → Ctx) : (s.modCtx c i f).cs = s.cs := rfl
@[simp] theorem State.modCtx_parts (s : State) (c i : Nat) (f : Ctx → Ctx) : (s.modCtx c i f).parts = s.parts := rfl
@[simp] theorem State.modCtx_home (s : State) (c i : Nat) (f : Ctx → Ctx) : (s.modCtx c i f).home = s.home := rfl
@[simp] theorem State.modCtx_fab (s : State) (c i : Nat) (f : Ctx → Ctx) : (s.modCtx c i f).fab = s.fab := rfl
@[simp] theorem State.modCtx_mem (s : State) (c i : Nat) (f : Ctx → Ctx) : (s.modCtx c i f).mem = s.mem := rfl
@[simp] theorem State.modCtx_reel (s : State) (c i : Nat) (f : Ctx → Ctx) : (s.modCtx c i f).reel = s.reel := rfl
@[simp] theorem State.modCtx_kiln (s : State) (c i : Nat) (f : Ctx → Ctx) : (s.modCtx c i f).kiln = s.kiln := rfl
@[simp] theorem State.modCtx_dies (s : State) (c i : Nat) (f : Ctx → Ctx) : (s.modCtx c i f).dies = s.dies := rfl
@[simp] theorem State.modCtx_ioFuses (s : State) (c i : Nat) (f : Ctx → Ctx) : (s.modCtx c i f).ioFuses = s.ioFuses := rfl
@[simp] theorem State.modCtx_pwr (s : State) (c i : Nat) (f : Ctx → Ctx) : (s.modCtx c i f).pwr = s.pwr := rfl
@[simp] theorem State.modCtx_ep (s : State) (c i : Nat) (f : Ctx → Ctx) : (s.modCtx c i f).ep = s.ep := rfl
@[simp] theorem State.modCtx_dmaCh (s : State) (c i : Nat) (f : Ctx → Ctx) : (s.modCtx c i f).dmaCh = s.dmaCh := rfl
@[simp] theorem State.modCtx_dmaEng (s : State) (c i : Nat) (f : Ctx → Ctx) : (s.modCtx c i f).dmaEng = s.dmaEng := rfl
@[simp] theorem State.modCtx_pmu (s : State) (c i : Nat) (f : Ctx → Ctx) : (s.modCtx c i f).pmu = s.pmu := rfl
@[simp] theorem State.modCtx_rpts (s : State) (c i : Nat) (f : Ctx → Ctx) : (s.modCtx c i f).rpts = s.rpts := rfl
@[simp] theorem State.modCtx_pins (s : State) (c i : Nat) (f : Ctx → Ctx) : (s.modCtx c i f).pins = s.pins := rfl
@[simp] theorem State.modCtx_free (s : State) (c i : Nat) (f : Ctx → Ctx) : (s.modCtx c i f).free = s.free := rfl
@[simp] theorem State.modCtx_rget (s : State) (c i : Nat) (f : Ctx → Ctx) (k0 : RegKind) (i0 j0 : Nat) : (s.modCtx c i f).rget k0 i0 j0 = s.rget k0 i0 j0 := rfl
@[simp] theorem State.modCtx_fget (s : State) (c i : Nat) (f : Ctx → Ctx) (f0 : Fld) (i0 j0 : Nat) : (s.modCtx c i f).fget f0 i0 j0 = s.fget f0 i0 j0 := rfl
@[simp] theorem State.modCtx_part (s : State) (c i : Nat) (f : Ctx → Ctx) (p0 : Nat) : (s.modCtx c i f).part p0 = s.part p0 := rfl
@[simp] theorem State.modCtx_die (s : State) (c i : Nat) (f : Ctx → Ctx) (d0 : Nat) : (s.modCtx c i f).die d0 = s.die d0 := rfl
@[simp] theorem State.modCtx_fcyc (s : State) (c i : Nat) (f : Ctx → Ctx) : (s.modCtx c i f).fcyc = s.fcyc := rfl
@[simp] theorem State.modCtx_time (s : State) (c i : Nat) (f : Ctx → Ctx) : (s.modCtx c i f).time = s.time := rfl
@[simp] theorem State.modCtx_rport (s : State) (c i : Nat) (f : Ctx → Ctx) (k0 : Nat) : (s.modCtx c i f).rport k0 = s.rport k0 := rfl
@[simp] theorem State.modCtx_slice (s : State) (c i : Nat) (f : Ctx → Ctx) (n0 : Nat) : (s.modCtx c i f).slice n0 = s.slice n0 := rfl
@[simp] theorem State.modCtx_msc (s : State) (c i : Nat) (f : Ctx → Ctx) (l0 : Nat) : (s.modCtx c i f).msc l0 = s.msc l0 := rfl
@[simp] theorem State.modCtx_kfind (s : State) (c i : Nat) (f : Ctx → Ctx) (id0 : Nat) : (s.modCtx c i f).kfind id0 = s.kfind id0 := rfl
@[simp] theorem State.modCtx_chan (s : State) (c i : Nat) (f : Ctx → Ctx) (ch0 : Nat) : (s.modCtx c i f).chan ch0 = s.chan ch0 := rfl
@[simp] theorem State.modCtx_eng (s : State) (c i : Nat) (f : Ctx → Ctx) (e0 : Nat) : (s.modCtx c i f).eng e0 = s.eng e0 := rfl
@[simp] theorem State.modCtx_rpt (s : State) (c i : Nat) (f : Ctx → Ctx) (n0 : Nat) : (s.modCtx c i f).rpt n0 = s.rpt n0 := rfl
@[simp] theorem State.modCtx_cfgW (s : State) (c i : Nat) (f : Ctx → Ctx) (o0 : Nat) : (s.modCtx c i f).cfgW o0 = s.cfgW o0 := rfl
@[simp] theorem State.modCtx_pkg (s : State) (c i : Nat) (f : Ctx → Ctx) : (s.modCtx c i f).pkg = s.pkg := rfl
@[simp] theorem State.modCtx_partState (s : State) (c i : Nat) (f : Ctx → Ctx) (p0 : Nat) : (s.modCtx c i f).partState p0 = s.partState p0 := rfl
@[simp] theorem State.modCtx_hwMode (s : State) (c i : Nat) (f : Ctx → Ctx) (n0 : Nat) : (s.modCtx c i f).hwMode n0 = s.hwMode n0 := rfl

/-! modPart -/

@[simp] theorem State.modPart_pending (s : State) (p : Nat) (f : Part → Part) : (s.modPart p f).pending = s.pending := rfl
@[simp] theorem State.modPart_now (s : State) (p : Nat) (f : Part → Part) : (s.modPart p f).now = s.now := rfl
@[simp] theorem State.modPart_tb (s : State) (p : Nat) (f : Part → Part) : (s.modPart p f).tb = s.tb := rfl
@[simp] theorem State.modPart_tbPhase (s : State) (p : Nat) (f : Part → Part) : (s.modPart p f).tbPhase = s.tbPhase := rfl
@[simp] theorem State.modPart_fBase (s : State) (p : Nat) (f : Part → Part) : (s.modPart p f).fBase = s.fBase := rfl
@[simp] theorem State.modPart_cs (s : State) (p : Nat) (f : Part → Part) : (s.modPart p f).cs = s.cs := rfl
@[simp] theorem State.modPart_cores (s : State) (p : Nat) (f : Part → Part) : (s.modPart p f).cores = s.cores := rfl
@[simp] theorem State.modPart_home (s : State) (p : Nat) (f : Part → Part) : (s.modPart p f).home = s.home := rfl
@[simp] theorem State.modPart_fab (s : State) (p : Nat) (f : Part → Part) : (s.modPart p f).fab = s.fab := rfl
@[simp] theorem State.modPart_mem (s : State) (p : Nat) (f : Part → Part) : (s.modPart p f).mem = s.mem := rfl
@[simp] theorem State.modPart_reel (s : State) (p : Nat) (f : Part → Part) : (s.modPart p f).reel = s.reel := rfl
@[simp] theorem State.modPart_kiln (s : State) (p : Nat) (f : Part → Part) : (s.modPart p f).kiln = s.kiln := rfl
@[simp] theorem State.modPart_dies (s : State) (p : Nat) (f : Part → Part) : (s.modPart p f).dies = s.dies := rfl
@[simp] theorem State.modPart_ioFuses (s : State) (p : Nat) (f : Part → Part) : (s.modPart p f).ioFuses = s.ioFuses := rfl
@[simp] theorem State.modPart_pwr (s : State) (p : Nat) (f : Part → Part) : (s.modPart p f).pwr = s.pwr := rfl
@[simp] theorem State.modPart_ep (s : State) (p : Nat) (f : Part → Part) : (s.modPart p f).ep = s.ep := rfl
@[simp] theorem State.modPart_dmaCh (s : State) (p : Nat) (f : Part → Part) : (s.modPart p f).dmaCh = s.dmaCh := rfl
@[simp] theorem State.modPart_dmaEng (s : State) (p : Nat) (f : Part → Part) : (s.modPart p f).dmaEng = s.dmaEng := rfl
@[simp] theorem State.modPart_pmu (s : State) (p : Nat) (f : Part → Part) : (s.modPart p f).pmu = s.pmu := rfl
@[simp] theorem State.modPart_rpts (s : State) (p : Nat) (f : Part → Part) : (s.modPart p f).rpts = s.rpts := rfl
@[simp] theorem State.modPart_pins (s : State) (p : Nat) (f : Part → Part) : (s.modPart p f).pins = s.pins := rfl
@[simp] theorem State.modPart_free (s : State) (p : Nat) (f : Part → Part) : (s.modPart p f).free = s.free := rfl
@[simp] theorem State.modPart_core (s : State) (p : Nat) (f : Part → Part) (c0 : Nat) : (s.modPart p f).core c0 = s.core c0 := rfl
@[simp] theorem State.modPart_ctx (s : State) (p : Nat) (f : Part → Part) (c0 i0 : Nat) : (s.modPart p f).ctx c0 i0 = s.ctx c0 i0 := rfl
@[simp] theorem State.modPart_rget (s : State) (p : Nat) (f : Part → Part) (k0 : RegKind) (i0 j0 : Nat) : (s.modPart p f).rget k0 i0 j0 = s.rget k0 i0 j0 := rfl
@[simp] theorem State.modPart_fget (s : State) (p : Nat) (f : Part → Part) (f0 : Fld) (i0 j0 : Nat) : (s.modPart p f).fget f0 i0 j0 = s.fget f0 i0 j0 := rfl
@[simp] theorem State.modPart_die (s : State) (p : Nat) (f : Part → Part) (d0 : Nat) : (s.modPart p f).die d0 = s.die d0 := rfl
@[simp] theorem State.modPart_fcyc (s : State) (p : Nat) (f : Part → Part) : (s.modPart p f).fcyc = s.fcyc := rfl
@[simp] theorem State.modPart_time (s : State) (p : Nat) (f : Part → Part) : (s.modPart p f).time = s.time := rfl
@[simp] theorem State.modPart_rport (s : State) (p : Nat) (f : Part → Part) (k0 : Nat) : (s.modPart p f).rport k0 = s.rport k0 := rfl
@[simp] theorem State.modPart_slice (s : State) (p : Nat) (f : Part → Part) (n0 : Nat) : (s.modPart p f).slice n0 = s.slice n0 := rfl
@[simp] theorem State.modPart_msc (s : State) (p : Nat) (f : Part → Part) (l0 : Nat) : (s.modPart p f).msc l0 = s.msc l0 := rfl
@[simp] theorem State.modPart_kfind (s : State) (p : Nat) (f : Part → Part) (id0 : Nat) : (s.modPart p f).kfind id0 = s.kfind id0 := rfl
@[simp] theorem State.modPart_chan (s : State) (p : Nat) (f : Part → Part) (ch0 : Nat) : (s.modPart p f).chan ch0 = s.chan ch0 := rfl
@[simp] theorem State.modPart_eng (s : State) (p : Nat) (f : Part → Part) (e0 : Nat) : (s.modPart p f).eng e0 = s.eng e0 := rfl
@[simp] theorem State.modPart_rpt (s : State) (p : Nat) (f : Part → Part) (n0 : Nat) : (s.modPart p f).rpt n0 = s.rpt n0 := rfl
@[simp] theorem State.modPart_cfgW (s : State) (p : Nat) (f : Part → Part) (o0 : Nat) : (s.modPart p f).cfgW o0 = s.cfgW o0 := rfl
@[simp] theorem State.modPart_pkg (s : State) (p : Nat) (f : Part → Part) : (s.modPart p f).pkg = s.pkg := rfl
@[simp] theorem State.modPart_partState (s : State) (p : Nat) (f : Part → Part) (p0 : Nat) : (s.modPart p f).partState p0 = s.partState p0 := rfl
@[simp] theorem State.modPart_hwMode (s : State) (p : Nat) (f : Part → Part) (n0 : Nat) : (s.modPart p f).hwMode n0 = s.hwMode n0 := rfl

/-! modDie -/

@[simp] theorem State.modDie_pending (s : State) (d : Nat) (f : Die → Die) : (s.modDie d f).pending = s.pending := rfl
@[simp] theorem State.modDie_now (s : State) (d : Nat) (f : Die → Die) : (s.modDie d f).now = s.now := rfl
@[simp] theorem State.modDie_tb (s : State) (d : Nat) (f : Die → Die) : (s.modDie d f).tb = s.tb := rfl
@[simp] theorem State.modDie_tbPhase (s : State) (d : Nat) (f : Die → Die) : (s.modDie d f).tbPhase = s.tbPhase := rfl
@[simp] theorem State.modDie_fBase (s : State) (d : Nat) (f : Die → Die) : (s.modDie d f).fBase = s.fBase := rfl
@[simp] theorem State.modDie_cs (s : State) (d : Nat) (f : Die → Die) : (s.modDie d f).cs = s.cs := rfl
@[simp] theorem State.modDie_cores (s : State) (d : Nat) (f : Die → Die) : (s.modDie d f).cores = s.cores := rfl
@[simp] theorem State.modDie_parts (s : State) (d : Nat) (f : Die → Die) : (s.modDie d f).parts = s.parts := rfl
@[simp] theorem State.modDie_home (s : State) (d : Nat) (f : Die → Die) : (s.modDie d f).home = s.home := rfl
@[simp] theorem State.modDie_fab (s : State) (d : Nat) (f : Die → Die) : (s.modDie d f).fab = s.fab := rfl
@[simp] theorem State.modDie_mem (s : State) (d : Nat) (f : Die → Die) : (s.modDie d f).mem = s.mem := rfl
@[simp] theorem State.modDie_reel (s : State) (d : Nat) (f : Die → Die) : (s.modDie d f).reel = s.reel := rfl
@[simp] theorem State.modDie_kiln (s : State) (d : Nat) (f : Die → Die) : (s.modDie d f).kiln = s.kiln := rfl
@[simp] theorem State.modDie_ioFuses (s : State) (d : Nat) (f : Die → Die) : (s.modDie d f).ioFuses = s.ioFuses := rfl
@[simp] theorem State.modDie_pwr (s : State) (d : Nat) (f : Die → Die) : (s.modDie d f).pwr = s.pwr := rfl
@[simp] theorem State.modDie_ep (s : State) (d : Nat) (f : Die → Die) : (s.modDie d f).ep = s.ep := rfl
@[simp] theorem State.modDie_dmaCh (s : State) (d : Nat) (f : Die → Die) : (s.modDie d f).dmaCh = s.dmaCh := rfl
@[simp] theorem State.modDie_dmaEng (s : State) (d : Nat) (f : Die → Die) : (s.modDie d f).dmaEng = s.dmaEng := rfl
@[simp] theorem State.modDie_pmu (s : State) (d : Nat) (f : Die → Die) : (s.modDie d f).pmu = s.pmu := rfl
@[simp] theorem State.modDie_rpts (s : State) (d : Nat) (f : Die → Die) : (s.modDie d f).rpts = s.rpts := rfl
@[simp] theorem State.modDie_pins (s : State) (d : Nat) (f : Die → Die) : (s.modDie d f).pins = s.pins := rfl
@[simp] theorem State.modDie_free (s : State) (d : Nat) (f : Die → Die) : (s.modDie d f).free = s.free := rfl
@[simp] theorem State.modDie_core (s : State) (d : Nat) (f : Die → Die) (c0 : Nat) : (s.modDie d f).core c0 = s.core c0 := rfl
@[simp] theorem State.modDie_ctx (s : State) (d : Nat) (f : Die → Die) (c0 i0 : Nat) : (s.modDie d f).ctx c0 i0 = s.ctx c0 i0 := rfl
@[simp] theorem State.modDie_rget (s : State) (d : Nat) (f : Die → Die) (k0 : RegKind) (i0 j0 : Nat) : (s.modDie d f).rget k0 i0 j0 = s.rget k0 i0 j0 := rfl
@[simp] theorem State.modDie_fget (s : State) (d : Nat) (f : Die → Die) (f0 : Fld) (i0 j0 : Nat) : (s.modDie d f).fget f0 i0 j0 = s.fget f0 i0 j0 := rfl
@[simp] theorem State.modDie_part (s : State) (d : Nat) (f : Die → Die) (p0 : Nat) : (s.modDie d f).part p0 = s.part p0 := rfl
@[simp] theorem State.modDie_fcyc (s : State) (d : Nat) (f : Die → Die) : (s.modDie d f).fcyc = s.fcyc := rfl
@[simp] theorem State.modDie_time (s : State) (d : Nat) (f : Die → Die) : (s.modDie d f).time = s.time := rfl
@[simp] theorem State.modDie_rport (s : State) (d : Nat) (f : Die → Die) (k0 : Nat) : (s.modDie d f).rport k0 = s.rport k0 := rfl
@[simp] theorem State.modDie_slice (s : State) (d : Nat) (f : Die → Die) (n0 : Nat) : (s.modDie d f).slice n0 = s.slice n0 := rfl
@[simp] theorem State.modDie_msc (s : State) (d : Nat) (f : Die → Die) (l0 : Nat) : (s.modDie d f).msc l0 = s.msc l0 := rfl
@[simp] theorem State.modDie_kfind (s : State) (d : Nat) (f : Die → Die) (id0 : Nat) : (s.modDie d f).kfind id0 = s.kfind id0 := rfl
@[simp] theorem State.modDie_chan (s : State) (d : Nat) (f : Die → Die) (ch0 : Nat) : (s.modDie d f).chan ch0 = s.chan ch0 := rfl
@[simp] theorem State.modDie_eng (s : State) (d : Nat) (f : Die → Die) (e0 : Nat) : (s.modDie d f).eng e0 = s.eng e0 := rfl
@[simp] theorem State.modDie_rpt (s : State) (d : Nat) (f : Die → Die) (n0 : Nat) : (s.modDie d f).rpt n0 = s.rpt n0 := rfl
@[simp] theorem State.modDie_cfgW (s : State) (d : Nat) (f : Die → Die) (o0 : Nat) : (s.modDie d f).cfgW o0 = s.cfgW o0 := rfl
@[simp] theorem State.modDie_pkg (s : State) (d : Nat) (f : Die → Die) : (s.modDie d f).pkg = s.pkg := rfl
@[simp] theorem State.modDie_partState (s : State) (d : Nat) (f : Die → Die) (p0 : Nat) : (s.modDie d f).partState p0 = s.partState p0 := rfl
@[simp] theorem State.modDie_hwMode (s : State) (d : Nat) (f : Die → Die) (n0 : Nat) : (s.modDie d f).hwMode n0 = s.hwMode n0 := rfl

/-! send -/

@[simp] theorem State.send_pending (s : State) (m : Msg) (a : Nat) : (s.send m a).pending = s.pending := rfl
@[simp] theorem State.send_now (s : State) (m : Msg) (a : Nat) : (s.send m a).now = s.now := rfl
@[simp] theorem State.send_tb (s : State) (m : Msg) (a : Nat) : (s.send m a).tb = s.tb := rfl
@[simp] theorem State.send_tbPhase (s : State) (m : Msg) (a : Nat) : (s.send m a).tbPhase = s.tbPhase := rfl
@[simp] theorem State.send_fBase (s : State) (m : Msg) (a : Nat) : (s.send m a).fBase = s.fBase := rfl
@[simp] theorem State.send_cs (s : State) (m : Msg) (a : Nat) : (s.send m a).cs = s.cs := rfl
@[simp] theorem State.send_cores (s : State) (m : Msg) (a : Nat) : (s.send m a).cores = s.cores := rfl
@[simp] theorem State.send_parts (s : State) (m : Msg) (a : Nat) : (s.send m a).parts = s.parts := rfl
@[simp] theorem State.send_home (s : State) (m : Msg) (a : Nat) : (s.send m a).home = s.home := rfl
@[simp] theorem State.send_mem (s : State) (m : Msg) (a : Nat) : (s.send m a).mem = s.mem := rfl
@[simp] theorem State.send_reel (s : State) (m : Msg) (a : Nat) : (s.send m a).reel = s.reel := rfl
@[simp] theorem State.send_kiln (s : State) (m : Msg) (a : Nat) : (s.send m a).kiln = s.kiln := rfl
@[simp] theorem State.send_dies (s : State) (m : Msg) (a : Nat) : (s.send m a).dies = s.dies := rfl
@[simp] theorem State.send_ioFuses (s : State) (m : Msg) (a : Nat) : (s.send m a).ioFuses = s.ioFuses := rfl
@[simp] theorem State.send_pwr (s : State) (m : Msg) (a : Nat) : (s.send m a).pwr = s.pwr := rfl
@[simp] theorem State.send_ep (s : State) (m : Msg) (a : Nat) : (s.send m a).ep = s.ep := rfl
@[simp] theorem State.send_dmaCh (s : State) (m : Msg) (a : Nat) : (s.send m a).dmaCh = s.dmaCh := rfl
@[simp] theorem State.send_dmaEng (s : State) (m : Msg) (a : Nat) : (s.send m a).dmaEng = s.dmaEng := rfl
@[simp] theorem State.send_pmu (s : State) (m : Msg) (a : Nat) : (s.send m a).pmu = s.pmu := rfl
@[simp] theorem State.send_rpts (s : State) (m : Msg) (a : Nat) : (s.send m a).rpts = s.rpts := rfl
@[simp] theorem State.send_pins (s : State) (m : Msg) (a : Nat) : (s.send m a).pins = s.pins := rfl
@[simp] theorem State.send_free (s : State) (m : Msg) (a : Nat) : (s.send m a).free = s.free := rfl
@[simp] theorem State.send_core (s : State) (m : Msg) (a : Nat) (c0 : Nat) : (s.send m a).core c0 = s.core c0 := rfl
@[simp] theorem State.send_ctx (s : State) (m : Msg) (a : Nat) (c0 i0 : Nat) : (s.send m a).ctx c0 i0 = s.ctx c0 i0 := rfl
@[simp] theorem State.send_rget (s : State) (m : Msg) (a : Nat) (k0 : RegKind) (i0 j0 : Nat) : (s.send m a).rget k0 i0 j0 = s.rget k0 i0 j0 := rfl
@[simp] theorem State.send_fget (s : State) (m : Msg) (a : Nat) (f0 : Fld) (i0 j0 : Nat) : (s.send m a).fget f0 i0 j0 = s.fget f0 i0 j0 := rfl
@[simp] theorem State.send_part (s : State) (m : Msg) (a : Nat) (p0 : Nat) : (s.send m a).part p0 = s.part p0 := rfl
@[simp] theorem State.send_die (s : State) (m : Msg) (a : Nat) (d0 : Nat) : (s.send m a).die d0 = s.die d0 := rfl
@[simp] theorem State.send_fcyc (s : State) (m : Msg) (a : Nat) : (s.send m a).fcyc = s.fcyc := rfl
@[simp] theorem State.send_time (s : State) (m : Msg) (a : Nat) : (s.send m a).time = s.time := rfl
@[simp] theorem State.send_rport (s : State) (m : Msg) (a : Nat) (k0 : Nat) : (s.send m a).rport k0 = s.rport k0 := rfl
@[simp] theorem State.send_slice (s : State) (m : Msg) (a : Nat) (n0 : Nat) : (s.send m a).slice n0 = s.slice n0 := rfl
@[simp] theorem State.send_msc (s : State) (m : Msg) (a : Nat) (l0 : Nat) : (s.send m a).msc l0 = s.msc l0 := rfl
@[simp] theorem State.send_kfind (s : State) (m : Msg) (a : Nat) (id0 : Nat) : (s.send m a).kfind id0 = s.kfind id0 := rfl
@[simp] theorem State.send_chan (s : State) (m : Msg) (a : Nat) (ch0 : Nat) : (s.send m a).chan ch0 = s.chan ch0 := rfl
@[simp] theorem State.send_eng (s : State) (m : Msg) (a : Nat) (e0 : Nat) : (s.send m a).eng e0 = s.eng e0 := rfl
@[simp] theorem State.send_rpt (s : State) (m : Msg) (a : Nat) (n0 : Nat) : (s.send m a).rpt n0 = s.rpt n0 := rfl
@[simp] theorem State.send_cfgW (s : State) (m : Msg) (a : Nat) (o0 : Nat) : (s.send m a).cfgW o0 = s.cfgW o0 := rfl
@[simp] theorem State.send_pkg (s : State) (m : Msg) (a : Nat) : (s.send m a).pkg = s.pkg := rfl
@[simp] theorem State.send_partState (s : State) (m : Msg) (a : Nat) (p0 : Nat) : (s.send m a).partState p0 = s.partState p0 := rfl
@[simp] theorem State.send_hwMode (s : State) (m : Msg) (a : Nat) (n0 : Nat) : (s.send m a).hwMode n0 = s.hwMode n0 := rfl

/-! takeMsg -/

@[simp] theorem State.takeMsg_pending (s : State) (m : Msg) : (s.takeMsg m).pending = s.pending := rfl
@[simp] theorem State.takeMsg_now (s : State) (m : Msg) : (s.takeMsg m).now = s.now := rfl
@[simp] theorem State.takeMsg_tb (s : State) (m : Msg) : (s.takeMsg m).tb = s.tb := rfl
@[simp] theorem State.takeMsg_tbPhase (s : State) (m : Msg) : (s.takeMsg m).tbPhase = s.tbPhase := rfl
@[simp] theorem State.takeMsg_fBase (s : State) (m : Msg) : (s.takeMsg m).fBase = s.fBase := rfl
@[simp] theorem State.takeMsg_cs (s : State) (m : Msg) : (s.takeMsg m).cs = s.cs := rfl
@[simp] theorem State.takeMsg_cores (s : State) (m : Msg) : (s.takeMsg m).cores = s.cores := rfl
@[simp] theorem State.takeMsg_parts (s : State) (m : Msg) : (s.takeMsg m).parts = s.parts := rfl
@[simp] theorem State.takeMsg_home (s : State) (m : Msg) : (s.takeMsg m).home = s.home := rfl
@[simp] theorem State.takeMsg_mem (s : State) (m : Msg) : (s.takeMsg m).mem = s.mem := rfl
@[simp] theorem State.takeMsg_reel (s : State) (m : Msg) : (s.takeMsg m).reel = s.reel := rfl
@[simp] theorem State.takeMsg_kiln (s : State) (m : Msg) : (s.takeMsg m).kiln = s.kiln := rfl
@[simp] theorem State.takeMsg_dies (s : State) (m : Msg) : (s.takeMsg m).dies = s.dies := rfl
@[simp] theorem State.takeMsg_ioFuses (s : State) (m : Msg) : (s.takeMsg m).ioFuses = s.ioFuses := rfl
@[simp] theorem State.takeMsg_pwr (s : State) (m : Msg) : (s.takeMsg m).pwr = s.pwr := rfl
@[simp] theorem State.takeMsg_ep (s : State) (m : Msg) : (s.takeMsg m).ep = s.ep := rfl
@[simp] theorem State.takeMsg_dmaCh (s : State) (m : Msg) : (s.takeMsg m).dmaCh = s.dmaCh := rfl
@[simp] theorem State.takeMsg_dmaEng (s : State) (m : Msg) : (s.takeMsg m).dmaEng = s.dmaEng := rfl
@[simp] theorem State.takeMsg_pmu (s : State) (m : Msg) : (s.takeMsg m).pmu = s.pmu := rfl
@[simp] theorem State.takeMsg_rpts (s : State) (m : Msg) : (s.takeMsg m).rpts = s.rpts := rfl
@[simp] theorem State.takeMsg_pins (s : State) (m : Msg) : (s.takeMsg m).pins = s.pins := rfl
@[simp] theorem State.takeMsg_free (s : State) (m : Msg) : (s.takeMsg m).free = s.free := rfl
@[simp] theorem State.takeMsg_core (s : State) (m : Msg) (c0 : Nat) : (s.takeMsg m).core c0 = s.core c0 := rfl
@[simp] theorem State.takeMsg_ctx (s : State) (m : Msg) (c0 i0 : Nat) : (s.takeMsg m).ctx c0 i0 = s.ctx c0 i0 := rfl
@[simp] theorem State.takeMsg_rget (s : State) (m : Msg) (k0 : RegKind) (i0 j0 : Nat) : (s.takeMsg m).rget k0 i0 j0 = s.rget k0 i0 j0 := rfl
@[simp] theorem State.takeMsg_fget (s : State) (m : Msg) (f0 : Fld) (i0 j0 : Nat) : (s.takeMsg m).fget f0 i0 j0 = s.fget f0 i0 j0 := rfl
@[simp] theorem State.takeMsg_part (s : State) (m : Msg) (p0 : Nat) : (s.takeMsg m).part p0 = s.part p0 := rfl
@[simp] theorem State.takeMsg_die (s : State) (m : Msg) (d0 : Nat) : (s.takeMsg m).die d0 = s.die d0 := rfl
@[simp] theorem State.takeMsg_fcyc (s : State) (m : Msg) : (s.takeMsg m).fcyc = s.fcyc := rfl
@[simp] theorem State.takeMsg_time (s : State) (m : Msg) : (s.takeMsg m).time = s.time := rfl
@[simp] theorem State.takeMsg_rport (s : State) (m : Msg) (k0 : Nat) : (s.takeMsg m).rport k0 = s.rport k0 := rfl
@[simp] theorem State.takeMsg_slice (s : State) (m : Msg) (n0 : Nat) : (s.takeMsg m).slice n0 = s.slice n0 := rfl
@[simp] theorem State.takeMsg_msc (s : State) (m : Msg) (l0 : Nat) : (s.takeMsg m).msc l0 = s.msc l0 := rfl
@[simp] theorem State.takeMsg_kfind (s : State) (m : Msg) (id0 : Nat) : (s.takeMsg m).kfind id0 = s.kfind id0 := rfl
@[simp] theorem State.takeMsg_chan (s : State) (m : Msg) (ch0 : Nat) : (s.takeMsg m).chan ch0 = s.chan ch0 := rfl
@[simp] theorem State.takeMsg_eng (s : State) (m : Msg) (e0 : Nat) : (s.takeMsg m).eng e0 = s.eng e0 := rfl
@[simp] theorem State.takeMsg_rpt (s : State) (m : Msg) (n0 : Nat) : (s.takeMsg m).rpt n0 = s.rpt n0 := rfl
@[simp] theorem State.takeMsg_cfgW (s : State) (m : Msg) (o0 : Nat) : (s.takeMsg m).cfgW o0 = s.cfgW o0 := rfl
@[simp] theorem State.takeMsg_pkg (s : State) (m : Msg) : (s.takeMsg m).pkg = s.pkg := rfl
@[simp] theorem State.takeMsg_partState (s : State) (m : Msg) (p0 : Nat) : (s.takeMsg m).partState p0 = s.partState p0 := rfl
@[simp] theorem State.takeMsg_hwMode (s : State) (m : Msg) (n0 : Nat) : (s.takeMsg m).hwMode n0 = s.hwMode n0 := rfl

/-! takeFree -/

@[simp] theorem State.takeFree_pending (s : State) : (s.takeFree).pending = s.pending := rfl
@[simp] theorem State.takeFree_now (s : State) : (s.takeFree).now = s.now := rfl
@[simp] theorem State.takeFree_tb (s : State) : (s.takeFree).tb = s.tb := rfl
@[simp] theorem State.takeFree_tbPhase (s : State) : (s.takeFree).tbPhase = s.tbPhase := rfl
@[simp] theorem State.takeFree_fBase (s : State) : (s.takeFree).fBase = s.fBase := rfl
@[simp] theorem State.takeFree_cs (s : State) : (s.takeFree).cs = s.cs := rfl
@[simp] theorem State.takeFree_cores (s : State) : (s.takeFree).cores = s.cores := rfl
@[simp] theorem State.takeFree_parts (s : State) : (s.takeFree).parts = s.parts := rfl
@[simp] theorem State.takeFree_home (s : State) : (s.takeFree).home = s.home := rfl
@[simp] theorem State.takeFree_fab (s : State) : (s.takeFree).fab = s.fab := rfl
@[simp] theorem State.takeFree_mem (s : State) : (s.takeFree).mem = s.mem := rfl
@[simp] theorem State.takeFree_reel (s : State) : (s.takeFree).reel = s.reel := rfl
@[simp] theorem State.takeFree_kiln (s : State) : (s.takeFree).kiln = s.kiln := rfl
@[simp] theorem State.takeFree_dies (s : State) : (s.takeFree).dies = s.dies := rfl
@[simp] theorem State.takeFree_ioFuses (s : State) : (s.takeFree).ioFuses = s.ioFuses := rfl
@[simp] theorem State.takeFree_pwr (s : State) : (s.takeFree).pwr = s.pwr := rfl
@[simp] theorem State.takeFree_ep (s : State) : (s.takeFree).ep = s.ep := rfl
@[simp] theorem State.takeFree_dmaCh (s : State) : (s.takeFree).dmaCh = s.dmaCh := rfl
@[simp] theorem State.takeFree_dmaEng (s : State) : (s.takeFree).dmaEng = s.dmaEng := rfl
@[simp] theorem State.takeFree_pmu (s : State) : (s.takeFree).pmu = s.pmu := rfl
@[simp] theorem State.takeFree_rpts (s : State) : (s.takeFree).rpts = s.rpts := rfl
@[simp] theorem State.takeFree_pins (s : State) : (s.takeFree).pins = s.pins := rfl
@[simp] theorem State.takeFree_core (s : State) (c0 : Nat) : (s.takeFree).core c0 = s.core c0 := rfl
@[simp] theorem State.takeFree_ctx (s : State) (c0 i0 : Nat) : (s.takeFree).ctx c0 i0 = s.ctx c0 i0 := rfl
@[simp] theorem State.takeFree_rget (s : State) (k0 : RegKind) (i0 j0 : Nat) : (s.takeFree).rget k0 i0 j0 = s.rget k0 i0 j0 := rfl
@[simp] theorem State.takeFree_fget (s : State) (f0 : Fld) (i0 j0 : Nat) : (s.takeFree).fget f0 i0 j0 = s.fget f0 i0 j0 := rfl
@[simp] theorem State.takeFree_part (s : State) (p0 : Nat) : (s.takeFree).part p0 = s.part p0 := rfl
@[simp] theorem State.takeFree_die (s : State) (d0 : Nat) : (s.takeFree).die d0 = s.die d0 := rfl
@[simp] theorem State.takeFree_fcyc (s : State)  : (s.takeFree).fcyc = s.fcyc := rfl
@[simp] theorem State.takeFree_time (s : State)  : (s.takeFree).time = s.time := rfl
@[simp] theorem State.takeFree_rport (s : State) (k0 : Nat) : (s.takeFree).rport k0 = s.rport k0 := rfl
@[simp] theorem State.takeFree_slice (s : State) (n0 : Nat) : (s.takeFree).slice n0 = s.slice n0 := rfl
@[simp] theorem State.takeFree_msc (s : State) (l0 : Nat) : (s.takeFree).msc l0 = s.msc l0 := rfl
@[simp] theorem State.takeFree_kfind (s : State) (id0 : Nat) : (s.takeFree).kfind id0 = s.kfind id0 := rfl
@[simp] theorem State.takeFree_chan (s : State) (ch0 : Nat) : (s.takeFree).chan ch0 = s.chan ch0 := rfl
@[simp] theorem State.takeFree_eng (s : State) (e0 : Nat) : (s.takeFree).eng e0 = s.eng e0 := rfl
@[simp] theorem State.takeFree_rpt (s : State) (n0 : Nat) : (s.takeFree).rpt n0 = s.rpt n0 := rfl
@[simp] theorem State.takeFree_cfgW (s : State) (o0 : Nat) : (s.takeFree).cfgW o0 = s.cfgW o0 := rfl
@[simp] theorem State.takeFree_pkg (s : State)  : (s.takeFree).pkg = s.pkg := rfl
@[simp] theorem State.takeFree_partState (s : State) (p0 : Nat) : (s.takeFree).partState p0 = s.partState p0 := rfl
@[simp] theorem State.takeFree_hwMode (s : State) (n0 : Nat) : (s.takeFree).hwMode n0 = s.hwMode n0 := rfl

/-! modRport -/

@[simp] theorem State.modRport_pending (s : State) (k : Nat) (f : RPort → RPort) : (s.modRport k f).pending = s.pending := rfl
@[simp] theorem State.modRport_now (s : State) (k : Nat) (f : RPort → RPort) : (s.modRport k f).now = s.now := rfl
@[simp] theorem State.modRport_tb (s : State) (k : Nat) (f : RPort → RPort) : (s.modRport k f).tb = s.tb := rfl
@[simp] theorem State.modRport_tbPhase (s : State) (k : Nat) (f : RPort → RPort) : (s.modRport k f).tbPhase = s.tbPhase := rfl
@[simp] theorem State.modRport_fBase (s : State) (k : Nat) (f : RPort → RPort) : (s.modRport k f).fBase = s.fBase := rfl
@[simp] theorem State.modRport_cs (s : State) (k : Nat) (f : RPort → RPort) : (s.modRport k f).cs = s.cs := rfl
@[simp] theorem State.modRport_cores (s : State) (k : Nat) (f : RPort → RPort) : (s.modRport k f).cores = s.cores := rfl
@[simp] theorem State.modRport_parts (s : State) (k : Nat) (f : RPort → RPort) : (s.modRport k f).parts = s.parts := rfl
@[simp] theorem State.modRport_home (s : State) (k : Nat) (f : RPort → RPort) : (s.modRport k f).home = s.home := rfl
@[simp] theorem State.modRport_fab (s : State) (k : Nat) (f : RPort → RPort) : (s.modRport k f).fab = s.fab := rfl
@[simp] theorem State.modRport_mem (s : State) (k : Nat) (f : RPort → RPort) : (s.modRport k f).mem = s.mem := rfl
@[simp] theorem State.modRport_kiln (s : State) (k : Nat) (f : RPort → RPort) : (s.modRport k f).kiln = s.kiln := rfl
@[simp] theorem State.modRport_dies (s : State) (k : Nat) (f : RPort → RPort) : (s.modRport k f).dies = s.dies := rfl
@[simp] theorem State.modRport_ioFuses (s : State) (k : Nat) (f : RPort → RPort) : (s.modRport k f).ioFuses = s.ioFuses := rfl
@[simp] theorem State.modRport_pwr (s : State) (k : Nat) (f : RPort → RPort) : (s.modRport k f).pwr = s.pwr := rfl
@[simp] theorem State.modRport_ep (s : State) (k : Nat) (f : RPort → RPort) : (s.modRport k f).ep = s.ep := rfl
@[simp] theorem State.modRport_dmaCh (s : State) (k : Nat) (f : RPort → RPort) : (s.modRport k f).dmaCh = s.dmaCh := rfl
@[simp] theorem State.modRport_dmaEng (s : State) (k : Nat) (f : RPort → RPort) : (s.modRport k f).dmaEng = s.dmaEng := rfl
@[simp] theorem State.modRport_pmu (s : State) (k : Nat) (f : RPort → RPort) : (s.modRport k f).pmu = s.pmu := rfl
@[simp] theorem State.modRport_rpts (s : State) (k : Nat) (f : RPort → RPort) : (s.modRport k f).rpts = s.rpts := rfl
@[simp] theorem State.modRport_pins (s : State) (k : Nat) (f : RPort → RPort) : (s.modRport k f).pins = s.pins := rfl
@[simp] theorem State.modRport_free (s : State) (k : Nat) (f : RPort → RPort) : (s.modRport k f).free = s.free := rfl
@[simp] theorem State.modRport_core (s : State) (k : Nat) (f : RPort → RPort) (c0 : Nat) : (s.modRport k f).core c0 = s.core c0 := rfl
@[simp] theorem State.modRport_ctx (s : State) (k : Nat) (f : RPort → RPort) (c0 i0 : Nat) : (s.modRport k f).ctx c0 i0 = s.ctx c0 i0 := rfl
@[simp] theorem State.modRport_rget (s : State) (k : Nat) (f : RPort → RPort) (k0 : RegKind) (i0 j0 : Nat) : (s.modRport k f).rget k0 i0 j0 = s.rget k0 i0 j0 := rfl
@[simp] theorem State.modRport_fget (s : State) (k : Nat) (f : RPort → RPort) (f0 : Fld) (i0 j0 : Nat) : (s.modRport k f).fget f0 i0 j0 = s.fget f0 i0 j0 := rfl
@[simp] theorem State.modRport_part (s : State) (k : Nat) (f : RPort → RPort) (p0 : Nat) : (s.modRport k f).part p0 = s.part p0 := rfl
@[simp] theorem State.modRport_die (s : State) (k : Nat) (f : RPort → RPort) (d0 : Nat) : (s.modRport k f).die d0 = s.die d0 := rfl
@[simp] theorem State.modRport_fcyc (s : State) (k : Nat) (f : RPort → RPort) : (s.modRport k f).fcyc = s.fcyc := rfl
@[simp] theorem State.modRport_time (s : State) (k : Nat) (f : RPort → RPort) : (s.modRport k f).time = s.time := rfl
@[simp] theorem State.modRport_slice (s : State) (k : Nat) (f : RPort → RPort) (n0 : Nat) : (s.modRport k f).slice n0 = s.slice n0 := rfl
@[simp] theorem State.modRport_msc (s : State) (k : Nat) (f : RPort → RPort) (l0 : Nat) : (s.modRport k f).msc l0 = s.msc l0 := rfl
@[simp] theorem State.modRport_kfind (s : State) (k : Nat) (f : RPort → RPort) (id0 : Nat) : (s.modRport k f).kfind id0 = s.kfind id0 := rfl
@[simp] theorem State.modRport_chan (s : State) (k : Nat) (f : RPort → RPort) (ch0 : Nat) : (s.modRport k f).chan ch0 = s.chan ch0 := rfl
@[simp] theorem State.modRport_eng (s : State) (k : Nat) (f : RPort → RPort) (e0 : Nat) : (s.modRport k f).eng e0 = s.eng e0 := rfl
@[simp] theorem State.modRport_rpt (s : State) (k : Nat) (f : RPort → RPort) (n0 : Nat) : (s.modRport k f).rpt n0 = s.rpt n0 := rfl
@[simp] theorem State.modRport_cfgW (s : State) (k : Nat) (f : RPort → RPort) (o0 : Nat) : (s.modRport k f).cfgW o0 = s.cfgW o0 := rfl
@[simp] theorem State.modRport_pkg (s : State) (k : Nat) (f : RPort → RPort) : (s.modRport k f).pkg = s.pkg := rfl
@[simp] theorem State.modRport_partState (s : State) (k : Nat) (f : RPort → RPort) (p0 : Nat) : (s.modRport k f).partState p0 = s.partState p0 := rfl
@[simp] theorem State.modRport_hwMode (s : State) (k : Nat) (f : RPort → RPort) (n0 : Nat) : (s.modRport k f).hwMode n0 = s.hwMode n0 := rfl

/-! notify -/

@[simp] theorem State.notify_pending (s : State) (p : Option Nat) (n : Notice) : (s.notify p n).pending = s.pending := rfl
@[simp] theorem State.notify_now (s : State) (p : Option Nat) (n : Notice) : (s.notify p n).now = s.now := rfl
@[simp] theorem State.notify_tb (s : State) (p : Option Nat) (n : Notice) : (s.notify p n).tb = s.tb := rfl
@[simp] theorem State.notify_tbPhase (s : State) (p : Option Nat) (n : Notice) : (s.notify p n).tbPhase = s.tbPhase := rfl
@[simp] theorem State.notify_fBase (s : State) (p : Option Nat) (n : Notice) : (s.notify p n).fBase = s.fBase := rfl
@[simp] theorem State.notify_cs (s : State) (p : Option Nat) (n : Notice) : (s.notify p n).cs = s.cs := rfl
@[simp] theorem State.notify_cores (s : State) (p : Option Nat) (n : Notice) : (s.notify p n).cores = s.cores := rfl
@[simp] theorem State.notify_parts (s : State) (p : Option Nat) (n : Notice) : (s.notify p n).parts = s.parts := rfl
@[simp] theorem State.notify_home (s : State) (p : Option Nat) (n : Notice) : (s.notify p n).home = s.home := rfl
@[simp] theorem State.notify_fab (s : State) (p : Option Nat) (n : Notice) : (s.notify p n).fab = s.fab := rfl
@[simp] theorem State.notify_mem (s : State) (p : Option Nat) (n : Notice) : (s.notify p n).mem = s.mem := rfl
@[simp] theorem State.notify_reel (s : State) (p : Option Nat) (n : Notice) : (s.notify p n).reel = s.reel := rfl
@[simp] theorem State.notify_dies (s : State) (p : Option Nat) (n : Notice) : (s.notify p n).dies = s.dies := rfl
@[simp] theorem State.notify_ioFuses (s : State) (p : Option Nat) (n : Notice) : (s.notify p n).ioFuses = s.ioFuses := rfl
@[simp] theorem State.notify_pwr (s : State) (p : Option Nat) (n : Notice) : (s.notify p n).pwr = s.pwr := rfl
@[simp] theorem State.notify_ep (s : State) (p : Option Nat) (n : Notice) : (s.notify p n).ep = s.ep := rfl
@[simp] theorem State.notify_dmaCh (s : State) (p : Option Nat) (n : Notice) : (s.notify p n).dmaCh = s.dmaCh := rfl
@[simp] theorem State.notify_dmaEng (s : State) (p : Option Nat) (n : Notice) : (s.notify p n).dmaEng = s.dmaEng := rfl
@[simp] theorem State.notify_pmu (s : State) (p : Option Nat) (n : Notice) : (s.notify p n).pmu = s.pmu := rfl
@[simp] theorem State.notify_rpts (s : State) (p : Option Nat) (n : Notice) : (s.notify p n).rpts = s.rpts := rfl
@[simp] theorem State.notify_pins (s : State) (p : Option Nat) (n : Notice) : (s.notify p n).pins = s.pins := rfl
@[simp] theorem State.notify_free (s : State) (p : Option Nat) (n : Notice) : (s.notify p n).free = s.free := rfl
@[simp] theorem State.notify_core (s : State) (p : Option Nat) (n : Notice) (c0 : Nat) : (s.notify p n).core c0 = s.core c0 := rfl
@[simp] theorem State.notify_ctx (s : State) (p : Option Nat) (n : Notice) (c0 i0 : Nat) : (s.notify p n).ctx c0 i0 = s.ctx c0 i0 := rfl
@[simp] theorem State.notify_rget (s : State) (p : Option Nat) (n : Notice) (k0 : RegKind) (i0 j0 : Nat) : (s.notify p n).rget k0 i0 j0 = s.rget k0 i0 j0 := rfl
@[simp] theorem State.notify_fget (s : State) (p : Option Nat) (n : Notice) (f0 : Fld) (i0 j0 : Nat) : (s.notify p n).fget f0 i0 j0 = s.fget f0 i0 j0 := rfl
@[simp] theorem State.notify_part (s : State) (p : Option Nat) (n : Notice) (p0 : Nat) : (s.notify p n).part p0 = s.part p0 := rfl
@[simp] theorem State.notify_die (s : State) (p : Option Nat) (n : Notice) (d0 : Nat) : (s.notify p n).die d0 = s.die d0 := rfl
@[simp] theorem State.notify_fcyc (s : State) (p : Option Nat) (n : Notice) : (s.notify p n).fcyc = s.fcyc := rfl
@[simp] theorem State.notify_time (s : State) (p : Option Nat) (n : Notice) : (s.notify p n).time = s.time := rfl
@[simp] theorem State.notify_rport (s : State) (p : Option Nat) (n : Notice) (k0 : Nat) : (s.notify p n).rport k0 = s.rport k0 := rfl
@[simp] theorem State.notify_slice (s : State) (p : Option Nat) (n : Notice) (n0 : Nat) : (s.notify p n).slice n0 = s.slice n0 := rfl
@[simp] theorem State.notify_msc (s : State) (p : Option Nat) (n : Notice) (l0 : Nat) : (s.notify p n).msc l0 = s.msc l0 := rfl
@[simp] theorem State.notify_chan (s : State) (p : Option Nat) (n : Notice) (ch0 : Nat) : (s.notify p n).chan ch0 = s.chan ch0 := rfl
@[simp] theorem State.notify_eng (s : State) (p : Option Nat) (n : Notice) (e0 : Nat) : (s.notify p n).eng e0 = s.eng e0 := rfl
@[simp] theorem State.notify_rpt (s : State) (p : Option Nat) (n : Notice) (n0 : Nat) : (s.notify p n).rpt n0 = s.rpt n0 := rfl
@[simp] theorem State.notify_cfgW (s : State) (p : Option Nat) (n : Notice) (o0 : Nat) : (s.notify p n).cfgW o0 = s.cfgW o0 := rfl
@[simp] theorem State.notify_pkg (s : State) (p : Option Nat) (n : Notice) : (s.notify p n).pkg = s.pkg := rfl
@[simp] theorem State.notify_partState (s : State) (p : Option Nat) (n : Notice) (p0 : Nat) : (s.notify p n).partState p0 = s.partState p0 := rfl

/-! pev -/

@[simp] theorem State.pev_pending (s : State) (kind code idx part n : Nat) : (s.pev kind code idx part n).pending = s.pending := rfl
@[simp] theorem State.pev_now (s : State) (kind code idx part n : Nat) : (s.pev kind code idx part n).now = s.now := rfl
@[simp] theorem State.pev_tb (s : State) (kind code idx part n : Nat) : (s.pev kind code idx part n).tb = s.tb := rfl
@[simp] theorem State.pev_tbPhase (s : State) (kind code idx part n : Nat) : (s.pev kind code idx part n).tbPhase = s.tbPhase := rfl
@[simp] theorem State.pev_fBase (s : State) (kind code idx part n : Nat) : (s.pev kind code idx part n).fBase = s.fBase := rfl
@[simp] theorem State.pev_cs (s : State) (kind code idx part n : Nat) : (s.pev kind code idx part n).cs = s.cs := rfl
@[simp] theorem State.pev_cores (s : State) (kind code idx part n : Nat) : (s.pev kind code idx part n).cores = s.cores := rfl
@[simp] theorem State.pev_parts (s : State) (kind code idx part n : Nat) : (s.pev kind code idx part n).parts = s.parts := rfl
@[simp] theorem State.pev_home (s : State) (kind code idx part n : Nat) : (s.pev kind code idx part n).home = s.home := rfl
@[simp] theorem State.pev_fab (s : State) (kind code idx part n : Nat) : (s.pev kind code idx part n).fab = s.fab := rfl
@[simp] theorem State.pev_mem (s : State) (kind code idx part n : Nat) : (s.pev kind code idx part n).mem = s.mem := rfl
@[simp] theorem State.pev_reel (s : State) (kind code idx part n : Nat) : (s.pev kind code idx part n).reel = s.reel := rfl
@[simp] theorem State.pev_kiln (s : State) (kind code idx part n : Nat) : (s.pev kind code idx part n).kiln = s.kiln := rfl
@[simp] theorem State.pev_dies (s : State) (kind code idx part n : Nat) : (s.pev kind code idx part n).dies = s.dies := rfl
@[simp] theorem State.pev_ioFuses (s : State) (kind code idx part n : Nat) : (s.pev kind code idx part n).ioFuses = s.ioFuses := rfl
@[simp] theorem State.pev_pwr (s : State) (kind code idx part n : Nat) : (s.pev kind code idx part n).pwr = s.pwr := rfl
@[simp] theorem State.pev_ep (s : State) (kind code idx part n : Nat) : (s.pev kind code idx part n).ep = s.ep := rfl
@[simp] theorem State.pev_dmaCh (s : State) (kind code idx part n : Nat) : (s.pev kind code idx part n).dmaCh = s.dmaCh := rfl
@[simp] theorem State.pev_dmaEng (s : State) (kind code idx part n : Nat) : (s.pev kind code idx part n).dmaEng = s.dmaEng := rfl
@[simp] theorem State.pev_rpts (s : State) (kind code idx part n : Nat) : (s.pev kind code idx part n).rpts = s.rpts := rfl
@[simp] theorem State.pev_pins (s : State) (kind code idx part n : Nat) : (s.pev kind code idx part n).pins = s.pins := rfl
@[simp] theorem State.pev_free (s : State) (kind code idx part n : Nat) : (s.pev kind code idx part n).free = s.free := rfl
@[simp] theorem State.pev_core (s : State) (kind code idx part n : Nat) (c0 : Nat) : (s.pev kind code idx part n).core c0 = s.core c0 := rfl
@[simp] theorem State.pev_ctx (s : State) (kind code idx part n : Nat) (c0 i0 : Nat) : (s.pev kind code idx part n).ctx c0 i0 = s.ctx c0 i0 := rfl
@[simp] theorem State.pev_rget (s : State) (kind code idx part n : Nat) (k0 : RegKind) (i0 j0 : Nat) : (s.pev kind code idx part n).rget k0 i0 j0 = s.rget k0 i0 j0 := rfl
@[simp] theorem State.pev_fget (s : State) (kind code idx part n : Nat) (f0 : Fld) (i0 j0 : Nat) : (s.pev kind code idx part n).fget f0 i0 j0 = s.fget f0 i0 j0 := rfl
@[simp] theorem State.pev_part (s : State) (kind code idx part n : Nat) (p0 : Nat) : (s.pev kind code idx part n).part p0 = s.part p0 := rfl
@[simp] theorem State.pev_die (s : State) (kind code idx part n : Nat) (d0 : Nat) : (s.pev kind code idx part n).die d0 = s.die d0 := rfl
@[simp] theorem State.pev_fcyc (s : State) (kind code idx part n : Nat) : (s.pev kind code idx part n).fcyc = s.fcyc := rfl
@[simp] theorem State.pev_time (s : State) (kind code idx part n : Nat) : (s.pev kind code idx part n).time = s.time := rfl
@[simp] theorem State.pev_rport (s : State) (kind code idx part n : Nat) (k0 : Nat) : (s.pev kind code idx part n).rport k0 = s.rport k0 := rfl
@[simp] theorem State.pev_slice (s : State) (kind code idx part n : Nat) (n0 : Nat) : (s.pev kind code idx part n).slice n0 = s.slice n0 := rfl
@[simp] theorem State.pev_msc (s : State) (kind code idx part n : Nat) (l0 : Nat) : (s.pev kind code idx part n).msc l0 = s.msc l0 := rfl
@[simp] theorem State.pev_kfind (s : State) (kind code idx part n : Nat) (id0 : Nat) : (s.pev kind code idx part n).kfind id0 = s.kfind id0 := rfl
@[simp] theorem State.pev_chan (s : State) (kind code idx part n : Nat) (ch0 : Nat) : (s.pev kind code idx part n).chan ch0 = s.chan ch0 := rfl
@[simp] theorem State.pev_eng (s : State) (kind code idx part n : Nat) (e0 : Nat) : (s.pev kind code idx part n).eng e0 = s.eng e0 := rfl
@[simp] theorem State.pev_rpt (s : State) (kind code idx part n : Nat) (n0 : Nat) : (s.pev kind code idx part n).rpt n0 = s.rpt n0 := rfl
@[simp] theorem State.pev_cfgW (s : State) (kind code idx part n : Nat) (o0 : Nat) : (s.pev kind code idx part n).cfgW o0 = s.cfgW o0 := rfl
@[simp] theorem State.pev_pkg (s : State) (kind code idx part n : Nat) : (s.pev kind code idx part n).pkg = s.pkg := rfl
@[simp] theorem State.pev_partState (s : State) (kind code idx part n : Nat) (p0 : Nat) : (s.pev kind code idx part n).partState p0 = s.partState p0 := rfl
@[simp] theorem State.pev_hwMode (s : State) (kind code idx part n : Nat) (n0 : Nat) : (s.pev kind code idx part n).hwMode n0 = s.hwMode n0 := rfl

/-! modSlice -/

@[simp] theorem State.modSlice_pending (s : State) (n : Nat) (f : Slice → Slice) : (s.modSlice n f).pending = s.pending := rfl
@[simp] theorem State.modSlice_now (s : State) (n : Nat) (f : Slice → Slice) : (s.modSlice n f).now = s.now := rfl
@[simp] theorem State.modSlice_tb (s : State) (n : Nat) (f : Slice → Slice) : (s.modSlice n f).tb = s.tb := rfl
@[simp] theorem State.modSlice_tbPhase (s : State) (n : Nat) (f : Slice → Slice) : (s.modSlice n f).tbPhase = s.tbPhase := rfl
@[simp] theorem State.modSlice_fBase (s : State) (n : Nat) (f : Slice → Slice) : (s.modSlice n f).fBase = s.fBase := rfl
@[simp] theorem State.modSlice_cs (s : State) (n : Nat) (f : Slice → Slice) : (s.modSlice n f).cs = s.cs := rfl
@[simp] theorem State.modSlice_cores (s : State) (n : Nat) (f : Slice → Slice) : (s.modSlice n f).cores = s.cores := rfl
@[simp] theorem State.modSlice_parts (s : State) (n : Nat) (f : Slice → Slice) : (s.modSlice n f).parts = s.parts := rfl
@[simp] theorem State.modSlice_fab (s : State) (n : Nat) (f : Slice → Slice) : (s.modSlice n f).fab = s.fab := rfl
@[simp] theorem State.modSlice_mem (s : State) (n : Nat) (f : Slice → Slice) : (s.modSlice n f).mem = s.mem := rfl
@[simp] theorem State.modSlice_reel (s : State) (n : Nat) (f : Slice → Slice) : (s.modSlice n f).reel = s.reel := rfl
@[simp] theorem State.modSlice_kiln (s : State) (n : Nat) (f : Slice → Slice) : (s.modSlice n f).kiln = s.kiln := rfl
@[simp] theorem State.modSlice_dies (s : State) (n : Nat) (f : Slice → Slice) : (s.modSlice n f).dies = s.dies := rfl
@[simp] theorem State.modSlice_ioFuses (s : State) (n : Nat) (f : Slice → Slice) : (s.modSlice n f).ioFuses = s.ioFuses := rfl
@[simp] theorem State.modSlice_pwr (s : State) (n : Nat) (f : Slice → Slice) : (s.modSlice n f).pwr = s.pwr := rfl
@[simp] theorem State.modSlice_ep (s : State) (n : Nat) (f : Slice → Slice) : (s.modSlice n f).ep = s.ep := rfl
@[simp] theorem State.modSlice_dmaCh (s : State) (n : Nat) (f : Slice → Slice) : (s.modSlice n f).dmaCh = s.dmaCh := rfl
@[simp] theorem State.modSlice_dmaEng (s : State) (n : Nat) (f : Slice → Slice) : (s.modSlice n f).dmaEng = s.dmaEng := rfl
@[simp] theorem State.modSlice_pmu (s : State) (n : Nat) (f : Slice → Slice) : (s.modSlice n f).pmu = s.pmu := rfl
@[simp] theorem State.modSlice_rpts (s : State) (n : Nat) (f : Slice → Slice) : (s.modSlice n f).rpts = s.rpts := rfl
@[simp] theorem State.modSlice_pins (s : State) (n : Nat) (f : Slice → Slice) : (s.modSlice n f).pins = s.pins := rfl
@[simp] theorem State.modSlice_free (s : State) (n : Nat) (f : Slice → Slice) : (s.modSlice n f).free = s.free := rfl
@[simp] theorem State.modSlice_core (s : State) (n : Nat) (f : Slice → Slice) (c0 : Nat) : (s.modSlice n f).core c0 = s.core c0 := rfl
@[simp] theorem State.modSlice_ctx (s : State) (n : Nat) (f : Slice → Slice) (c0 i0 : Nat) : (s.modSlice n f).ctx c0 i0 = s.ctx c0 i0 := rfl
@[simp] theorem State.modSlice_rget (s : State) (n : Nat) (f : Slice → Slice) (k0 : RegKind) (i0 j0 : Nat) : (s.modSlice n f).rget k0 i0 j0 = s.rget k0 i0 j0 := rfl
@[simp] theorem State.modSlice_fget (s : State) (n : Nat) (f : Slice → Slice) (f0 : Fld) (i0 j0 : Nat) : (s.modSlice n f).fget f0 i0 j0 = s.fget f0 i0 j0 := rfl
@[simp] theorem State.modSlice_part (s : State) (n : Nat) (f : Slice → Slice) (p0 : Nat) : (s.modSlice n f).part p0 = s.part p0 := rfl
@[simp] theorem State.modSlice_die (s : State) (n : Nat) (f : Slice → Slice) (d0 : Nat) : (s.modSlice n f).die d0 = s.die d0 := rfl
@[simp] theorem State.modSlice_fcyc (s : State) (n : Nat) (f : Slice → Slice) : (s.modSlice n f).fcyc = s.fcyc := rfl
@[simp] theorem State.modSlice_time (s : State) (n : Nat) (f : Slice → Slice) : (s.modSlice n f).time = s.time := rfl
@[simp] theorem State.modSlice_rport (s : State) (n : Nat) (f : Slice → Slice) (k0 : Nat) : (s.modSlice n f).rport k0 = s.rport k0 := rfl
@[simp] theorem State.modSlice_kfind (s : State) (n : Nat) (f : Slice → Slice) (id0 : Nat) : (s.modSlice n f).kfind id0 = s.kfind id0 := rfl
@[simp] theorem State.modSlice_chan (s : State) (n : Nat) (f : Slice → Slice) (ch0 : Nat) : (s.modSlice n f).chan ch0 = s.chan ch0 := rfl
@[simp] theorem State.modSlice_eng (s : State) (n : Nat) (f : Slice → Slice) (e0 : Nat) : (s.modSlice n f).eng e0 = s.eng e0 := rfl
@[simp] theorem State.modSlice_rpt (s : State) (n : Nat) (f : Slice → Slice) (n0 : Nat) : (s.modSlice n f).rpt n0 = s.rpt n0 := rfl
@[simp] theorem State.modSlice_cfgW (s : State) (n : Nat) (f : Slice → Slice) (o0 : Nat) : (s.modSlice n f).cfgW o0 = s.cfgW o0 := rfl
@[simp] theorem State.modSlice_pkg (s : State) (n : Nat) (f : Slice → Slice) : (s.modSlice n f).pkg = s.pkg := rfl
@[simp] theorem State.modSlice_partState (s : State) (n : Nat) (f : Slice → Slice) (p0 : Nat) : (s.modSlice n f).partState p0 = s.partState p0 := rfl
@[simp] theorem State.modSlice_hwMode (s : State) (n : Nat) (f : Slice → Slice) (n0 : Nat) : (s.modSlice n f).hwMode n0 = s.hwMode n0 := rfl

/-! setMsc -/

@[simp] theorem State.setMsc_pending (s : State) (line : Nat) (m : Msc) : (s.setMsc line m).pending = s.pending := rfl
@[simp] theorem State.setMsc_now (s : State) (line : Nat) (m : Msc) : (s.setMsc line m).now = s.now := rfl
@[simp] theorem State.setMsc_tb (s : State) (line : Nat) (m : Msc) : (s.setMsc line m).tb = s.tb := rfl
@[simp] theorem State.setMsc_tbPhase (s : State) (line : Nat) (m : Msc) : (s.setMsc line m).tbPhase = s.tbPhase := rfl
@[simp] theorem State.setMsc_fBase (s : State) (line : Nat) (m : Msc) : (s.setMsc line m).fBase = s.fBase := rfl
@[simp] theorem State.setMsc_cs (s : State) (line : Nat) (m : Msc) : (s.setMsc line m).cs = s.cs := rfl
@[simp] theorem State.setMsc_cores (s : State) (line : Nat) (m : Msc) : (s.setMsc line m).cores = s.cores := rfl
@[simp] theorem State.setMsc_parts (s : State) (line : Nat) (m : Msc) : (s.setMsc line m).parts = s.parts := rfl
@[simp] theorem State.setMsc_fab (s : State) (line : Nat) (m : Msc) : (s.setMsc line m).fab = s.fab := rfl
@[simp] theorem State.setMsc_mem (s : State) (line : Nat) (m : Msc) : (s.setMsc line m).mem = s.mem := rfl
@[simp] theorem State.setMsc_reel (s : State) (line : Nat) (m : Msc) : (s.setMsc line m).reel = s.reel := rfl
@[simp] theorem State.setMsc_kiln (s : State) (line : Nat) (m : Msc) : (s.setMsc line m).kiln = s.kiln := rfl
@[simp] theorem State.setMsc_dies (s : State) (line : Nat) (m : Msc) : (s.setMsc line m).dies = s.dies := rfl
@[simp] theorem State.setMsc_ioFuses (s : State) (line : Nat) (m : Msc) : (s.setMsc line m).ioFuses = s.ioFuses := rfl
@[simp] theorem State.setMsc_pwr (s : State) (line : Nat) (m : Msc) : (s.setMsc line m).pwr = s.pwr := rfl
@[simp] theorem State.setMsc_ep (s : State) (line : Nat) (m : Msc) : (s.setMsc line m).ep = s.ep := rfl
@[simp] theorem State.setMsc_dmaCh (s : State) (line : Nat) (m : Msc) : (s.setMsc line m).dmaCh = s.dmaCh := rfl
@[simp] theorem State.setMsc_dmaEng (s : State) (line : Nat) (m : Msc) : (s.setMsc line m).dmaEng = s.dmaEng := rfl
@[simp] theorem State.setMsc_pmu (s : State) (line : Nat) (m : Msc) : (s.setMsc line m).pmu = s.pmu := rfl
@[simp] theorem State.setMsc_rpts (s : State) (line : Nat) (m : Msc) : (s.setMsc line m).rpts = s.rpts := rfl
@[simp] theorem State.setMsc_pins (s : State) (line : Nat) (m : Msc) : (s.setMsc line m).pins = s.pins := rfl
@[simp] theorem State.setMsc_free (s : State) (line : Nat) (m : Msc) : (s.setMsc line m).free = s.free := rfl
@[simp] theorem State.setMsc_core (s : State) (line : Nat) (m : Msc) (c0 : Nat) : (s.setMsc line m).core c0 = s.core c0 := rfl
@[simp] theorem State.setMsc_ctx (s : State) (line : Nat) (m : Msc) (c0 i0 : Nat) : (s.setMsc line m).ctx c0 i0 = s.ctx c0 i0 := rfl
@[simp] theorem State.setMsc_rget (s : State) (line : Nat) (m : Msc) (k0 : RegKind) (i0 j0 : Nat) : (s.setMsc line m).rget k0 i0 j0 = s.rget k0 i0 j0 := rfl
@[simp] theorem State.setMsc_fget (s : State) (line : Nat) (m : Msc) (f0 : Fld) (i0 j0 : Nat) : (s.setMsc line m).fget f0 i0 j0 = s.fget f0 i0 j0 := rfl
@[simp] theorem State.setMsc_part (s : State) (line : Nat) (m : Msc) (p0 : Nat) : (s.setMsc line m).part p0 = s.part p0 := rfl
@[simp] theorem State.setMsc_die (s : State) (line : Nat) (m : Msc) (d0 : Nat) : (s.setMsc line m).die d0 = s.die d0 := rfl
@[simp] theorem State.setMsc_fcyc (s : State) (line : Nat) (m : Msc) : (s.setMsc line m).fcyc = s.fcyc := rfl
@[simp] theorem State.setMsc_time (s : State) (line : Nat) (m : Msc) : (s.setMsc line m).time = s.time := rfl
@[simp] theorem State.setMsc_rport (s : State) (line : Nat) (m : Msc) (k0 : Nat) : (s.setMsc line m).rport k0 = s.rport k0 := rfl
@[simp] theorem State.setMsc_kfind (s : State) (line : Nat) (m : Msc) (id0 : Nat) : (s.setMsc line m).kfind id0 = s.kfind id0 := rfl
@[simp] theorem State.setMsc_chan (s : State) (line : Nat) (m : Msc) (ch0 : Nat) : (s.setMsc line m).chan ch0 = s.chan ch0 := rfl
@[simp] theorem State.setMsc_eng (s : State) (line : Nat) (m : Msc) (e0 : Nat) : (s.setMsc line m).eng e0 = s.eng e0 := rfl
@[simp] theorem State.setMsc_rpt (s : State) (line : Nat) (m : Msc) (n0 : Nat) : (s.setMsc line m).rpt n0 = s.rpt n0 := rfl
@[simp] theorem State.setMsc_cfgW (s : State) (line : Nat) (m : Msc) (o0 : Nat) : (s.setMsc line m).cfgW o0 = s.cfgW o0 := rfl
@[simp] theorem State.setMsc_pkg (s : State) (line : Nat) (m : Msc) : (s.setMsc line m).pkg = s.pkg := rfl
@[simp] theorem State.setMsc_partState (s : State) (line : Nat) (m : Msc) (p0 : Nat) : (s.setMsc line m).partState p0 = s.partState p0 := rfl
@[simp] theorem State.setMsc_hwMode (s : State) (line : Nat) (m : Msc) (n0 : Nat) : (s.setMsc line m).hwMode n0 = s.hwMode n0 := rfl

/-! dropMsc -/

@[simp] theorem State.dropMsc_pending (s : State) (line : Nat) : (s.dropMsc line).pending = s.pending := rfl
@[simp] theorem State.dropMsc_now (s : State) (line : Nat) : (s.dropMsc line).now = s.now := rfl
@[simp] theorem State.dropMsc_tb (s : State) (line : Nat) : (s.dropMsc line).tb = s.tb := rfl
@[simp] theorem State.dropMsc_tbPhase (s : State) (line : Nat) : (s.dropMsc line).tbPhase = s.tbPhase := rfl
@[simp] theorem State.dropMsc_fBase (s : State) (line : Nat) : (s.dropMsc line).fBase = s.fBase := rfl
@[simp] theorem State.dropMsc_cs (s : State) (line : Nat) : (s.dropMsc line).cs = s.cs := rfl
@[simp] theorem State.dropMsc_cores (s : State) (line : Nat) : (s.dropMsc line).cores = s.cores := rfl
@[simp] theorem State.dropMsc_parts (s : State) (line : Nat) : (s.dropMsc line).parts = s.parts := rfl
@[simp] theorem State.dropMsc_fab (s : State) (line : Nat) : (s.dropMsc line).fab = s.fab := rfl
@[simp] theorem State.dropMsc_mem (s : State) (line : Nat) : (s.dropMsc line).mem = s.mem := rfl
@[simp] theorem State.dropMsc_reel (s : State) (line : Nat) : (s.dropMsc line).reel = s.reel := rfl
@[simp] theorem State.dropMsc_kiln (s : State) (line : Nat) : (s.dropMsc line).kiln = s.kiln := rfl
@[simp] theorem State.dropMsc_dies (s : State) (line : Nat) : (s.dropMsc line).dies = s.dies := rfl
@[simp] theorem State.dropMsc_ioFuses (s : State) (line : Nat) : (s.dropMsc line).ioFuses = s.ioFuses := rfl
@[simp] theorem State.dropMsc_pwr (s : State) (line : Nat) : (s.dropMsc line).pwr = s.pwr := rfl
@[simp] theorem State.dropMsc_ep (s : State) (line : Nat) : (s.dropMsc line).ep = s.ep := rfl
@[simp] theorem State.dropMsc_dmaCh (s : State) (line : Nat) : (s.dropMsc line).dmaCh = s.dmaCh := rfl
@[simp] theorem State.dropMsc_dmaEng (s : State) (line : Nat) : (s.dropMsc line).dmaEng = s.dmaEng := rfl
@[simp] theorem State.dropMsc_pmu (s : State) (line : Nat) : (s.dropMsc line).pmu = s.pmu := rfl
@[simp] theorem State.dropMsc_rpts (s : State) (line : Nat) : (s.dropMsc line).rpts = s.rpts := rfl
@[simp] theorem State.dropMsc_pins (s : State) (line : Nat) : (s.dropMsc line).pins = s.pins := rfl
@[simp] theorem State.dropMsc_free (s : State) (line : Nat) : (s.dropMsc line).free = s.free := rfl
@[simp] theorem State.dropMsc_core (s : State) (line : Nat) (c0 : Nat) : (s.dropMsc line).core c0 = s.core c0 := rfl
@[simp] theorem State.dropMsc_ctx (s : State) (line : Nat) (c0 i0 : Nat) : (s.dropMsc line).ctx c0 i0 = s.ctx c0 i0 := rfl
@[simp] theorem State.dropMsc_rget (s : State) (line : Nat) (k0 : RegKind) (i0 j0 : Nat) : (s.dropMsc line).rget k0 i0 j0 = s.rget k0 i0 j0 := rfl
@[simp] theorem State.dropMsc_fget (s : State) (line : Nat) (f0 : Fld) (i0 j0 : Nat) : (s.dropMsc line).fget f0 i0 j0 = s.fget f0 i0 j0 := rfl
@[simp] theorem State.dropMsc_part (s : State) (line : Nat) (p0 : Nat) : (s.dropMsc line).part p0 = s.part p0 := rfl
@[simp] theorem State.dropMsc_die (s : State) (line : Nat) (d0 : Nat) : (s.dropMsc line).die d0 = s.die d0 := rfl
@[simp] theorem State.dropMsc_fcyc (s : State) (line : Nat) : (s.dropMsc line).fcyc = s.fcyc := rfl
@[simp] theorem State.dropMsc_time (s : State) (line : Nat) : (s.dropMsc line).time = s.time := rfl
@[simp] theorem State.dropMsc_rport (s : State) (line : Nat) (k0 : Nat) : (s.dropMsc line).rport k0 = s.rport k0 := rfl
@[simp] theorem State.dropMsc_kfind (s : State) (line : Nat) (id0 : Nat) : (s.dropMsc line).kfind id0 = s.kfind id0 := rfl
@[simp] theorem State.dropMsc_chan (s : State) (line : Nat) (ch0 : Nat) : (s.dropMsc line).chan ch0 = s.chan ch0 := rfl
@[simp] theorem State.dropMsc_eng (s : State) (line : Nat) (e0 : Nat) : (s.dropMsc line).eng e0 = s.eng e0 := rfl
@[simp] theorem State.dropMsc_rpt (s : State) (line : Nat) (n0 : Nat) : (s.dropMsc line).rpt n0 = s.rpt n0 := rfl
@[simp] theorem State.dropMsc_cfgW (s : State) (line : Nat) (o0 : Nat) : (s.dropMsc line).cfgW o0 = s.cfgW o0 := rfl
@[simp] theorem State.dropMsc_pkg (s : State) (line : Nat) : (s.dropMsc line).pkg = s.pkg := rfl
@[simp] theorem State.dropMsc_partState (s : State) (line : Nat) (p0 : Nat) : (s.dropMsc line).partState p0 = s.partState p0 := rfl
@[simp] theorem State.dropMsc_hwMode (s : State) (line : Nat) (n0 : Nat) : (s.dropMsc line).hwMode n0 = s.hwMode n0 := rfl

/-! devDone -/

@[simp] theorem State.devDone_pending (s : State) (id st : Nat) (d : W64) : (s.devDone id st d).pending = s.pending := rfl
@[simp] theorem State.devDone_now (s : State) (id st : Nat) (d : W64) : (s.devDone id st d).now = s.now := rfl
@[simp] theorem State.devDone_tb (s : State) (id st : Nat) (d : W64) : (s.devDone id st d).tb = s.tb := rfl
@[simp] theorem State.devDone_tbPhase (s : State) (id st : Nat) (d : W64) : (s.devDone id st d).tbPhase = s.tbPhase := rfl
@[simp] theorem State.devDone_fBase (s : State) (id st : Nat) (d : W64) : (s.devDone id st d).fBase = s.fBase := rfl
@[simp] theorem State.devDone_cs (s : State) (id st : Nat) (d : W64) : (s.devDone id st d).cs = s.cs := rfl
@[simp] theorem State.devDone_cores (s : State) (id st : Nat) (d : W64) : (s.devDone id st d).cores = s.cores := rfl
@[simp] theorem State.devDone_parts (s : State) (id st : Nat) (d : W64) : (s.devDone id st d).parts = s.parts := rfl
@[simp] theorem State.devDone_home (s : State) (id st : Nat) (d : W64) : (s.devDone id st d).home = s.home := rfl
@[simp] theorem State.devDone_mem (s : State) (id st : Nat) (d : W64) : (s.devDone id st d).mem = s.mem := rfl
@[simp] theorem State.devDone_reel (s : State) (id st : Nat) (d : W64) : (s.devDone id st d).reel = s.reel := rfl
@[simp] theorem State.devDone_kiln (s : State) (id st : Nat) (d : W64) : (s.devDone id st d).kiln = s.kiln := rfl
@[simp] theorem State.devDone_dies (s : State) (id st : Nat) (d : W64) : (s.devDone id st d).dies = s.dies := rfl
@[simp] theorem State.devDone_ioFuses (s : State) (id st : Nat) (d : W64) : (s.devDone id st d).ioFuses = s.ioFuses := rfl
@[simp] theorem State.devDone_pwr (s : State) (id st : Nat) (d : W64) : (s.devDone id st d).pwr = s.pwr := rfl
@[simp] theorem State.devDone_ep (s : State) (id st : Nat) (d : W64) : (s.devDone id st d).ep = s.ep := rfl
@[simp] theorem State.devDone_dmaCh (s : State) (id st : Nat) (d : W64) : (s.devDone id st d).dmaCh = s.dmaCh := rfl
@[simp] theorem State.devDone_dmaEng (s : State) (id st : Nat) (d : W64) : (s.devDone id st d).dmaEng = s.dmaEng := rfl
@[simp] theorem State.devDone_pmu (s : State) (id st : Nat) (d : W64) : (s.devDone id st d).pmu = s.pmu := rfl
@[simp] theorem State.devDone_rpts (s : State) (id st : Nat) (d : W64) : (s.devDone id st d).rpts = s.rpts := rfl
@[simp] theorem State.devDone_pins (s : State) (id st : Nat) (d : W64) : (s.devDone id st d).pins = s.pins := rfl
@[simp] theorem State.devDone_free (s : State) (id st : Nat) (d : W64) : (s.devDone id st d).free = s.free := rfl
@[simp] theorem State.devDone_core (s : State) (id st : Nat) (d : W64) (c0 : Nat) : (s.devDone id st d).core c0 = s.core c0 := rfl
@[simp] theorem State.devDone_ctx (s : State) (id st : Nat) (d : W64) (c0 i0 : Nat) : (s.devDone id st d).ctx c0 i0 = s.ctx c0 i0 := rfl
@[simp] theorem State.devDone_rget (s : State) (id st : Nat) (d : W64) (k0 : RegKind) (i0 j0 : Nat) : (s.devDone id st d).rget k0 i0 j0 = s.rget k0 i0 j0 := rfl
@[simp] theorem State.devDone_fget (s : State) (id st : Nat) (d : W64) (f0 : Fld) (i0 j0 : Nat) : (s.devDone id st d).fget f0 i0 j0 = s.fget f0 i0 j0 := rfl
@[simp] theorem State.devDone_part (s : State) (id st : Nat) (d : W64) (p0 : Nat) : (s.devDone id st d).part p0 = s.part p0 := rfl
@[simp] theorem State.devDone_die (s : State) (id st : Nat) (d : W64) (d0 : Nat) : (s.devDone id st d).die d0 = s.die d0 := rfl
@[simp] theorem State.devDone_fcyc (s : State) (id st : Nat) (d : W64) : (s.devDone id st d).fcyc = s.fcyc := rfl
@[simp] theorem State.devDone_time (s : State) (id st : Nat) (d : W64) : (s.devDone id st d).time = s.time := rfl
@[simp] theorem State.devDone_rport (s : State) (id st : Nat) (d : W64) (k0 : Nat) : (s.devDone id st d).rport k0 = s.rport k0 := rfl
@[simp] theorem State.devDone_slice (s : State) (id st : Nat) (d : W64) (n0 : Nat) : (s.devDone id st d).slice n0 = s.slice n0 := rfl
@[simp] theorem State.devDone_msc (s : State) (id st : Nat) (d : W64) (l0 : Nat) : (s.devDone id st d).msc l0 = s.msc l0 := rfl
@[simp] theorem State.devDone_kfind (s : State) (id st : Nat) (d : W64) (id0 : Nat) : (s.devDone id st d).kfind id0 = s.kfind id0 := rfl
@[simp] theorem State.devDone_chan (s : State) (id st : Nat) (d : W64) (ch0 : Nat) : (s.devDone id st d).chan ch0 = s.chan ch0 := rfl
@[simp] theorem State.devDone_eng (s : State) (id st : Nat) (d : W64) (e0 : Nat) : (s.devDone id st d).eng e0 = s.eng e0 := rfl
@[simp] theorem State.devDone_rpt (s : State) (id st : Nat) (d : W64) (n0 : Nat) : (s.devDone id st d).rpt n0 = s.rpt n0 := rfl
@[simp] theorem State.devDone_cfgW (s : State) (id st : Nat) (d : W64) (o0 : Nat) : (s.devDone id st d).cfgW o0 = s.cfgW o0 := rfl
@[simp] theorem State.devDone_pkg (s : State) (id st : Nat) (d : W64) : (s.devDone id st d).pkg = s.pkg := rfl
@[simp] theorem State.devDone_partState (s : State) (id st : Nat) (d : W64) (p0 : Nat) : (s.devDone id st d).partState p0 = s.partState p0 := rfl
@[simp] theorem State.devDone_hwMode (s : State) (id st : Nat) (d : W64) (n0 : Nat) : (s.devDone id st d).hwMode n0 = s.hwMode n0 := rfl

/-! kmod -/

@[simp] theorem State.kmod_pending (s : State) (id : Nat) (f : KCmd → KCmd) : (s.kmod id f).pending = s.pending := rfl
@[simp] theorem State.kmod_now (s : State) (id : Nat) (f : KCmd → KCmd) : (s.kmod id f).now = s.now := rfl
@[simp] theorem State.kmod_tb (s : State) (id : Nat) (f : KCmd → KCmd) : (s.kmod id f).tb = s.tb := rfl
@[simp] theorem State.kmod_tbPhase (s : State) (id : Nat) (f : KCmd → KCmd) : (s.kmod id f).tbPhase = s.tbPhase := rfl
@[simp] theorem State.kmod_fBase (s : State) (id : Nat) (f : KCmd → KCmd) : (s.kmod id f).fBase = s.fBase := rfl
@[simp] theorem State.kmod_cs (s : State) (id : Nat) (f : KCmd → KCmd) : (s.kmod id f).cs = s.cs := rfl
@[simp] theorem State.kmod_cores (s : State) (id : Nat) (f : KCmd → KCmd) : (s.kmod id f).cores = s.cores := rfl
@[simp] theorem State.kmod_parts (s : State) (id : Nat) (f : KCmd → KCmd) : (s.kmod id f).parts = s.parts := rfl
@[simp] theorem State.kmod_home (s : State) (id : Nat) (f : KCmd → KCmd) : (s.kmod id f).home = s.home := rfl
@[simp] theorem State.kmod_fab (s : State) (id : Nat) (f : KCmd → KCmd) : (s.kmod id f).fab = s.fab := rfl
@[simp] theorem State.kmod_mem (s : State) (id : Nat) (f : KCmd → KCmd) : (s.kmod id f).mem = s.mem := rfl
@[simp] theorem State.kmod_reel (s : State) (id : Nat) (f : KCmd → KCmd) : (s.kmod id f).reel = s.reel := rfl
@[simp] theorem State.kmod_dies (s : State) (id : Nat) (f : KCmd → KCmd) : (s.kmod id f).dies = s.dies := rfl
@[simp] theorem State.kmod_ioFuses (s : State) (id : Nat) (f : KCmd → KCmd) : (s.kmod id f).ioFuses = s.ioFuses := rfl
@[simp] theorem State.kmod_pwr (s : State) (id : Nat) (f : KCmd → KCmd) : (s.kmod id f).pwr = s.pwr := rfl
@[simp] theorem State.kmod_ep (s : State) (id : Nat) (f : KCmd → KCmd) : (s.kmod id f).ep = s.ep := rfl
@[simp] theorem State.kmod_dmaCh (s : State) (id : Nat) (f : KCmd → KCmd) : (s.kmod id f).dmaCh = s.dmaCh := rfl
@[simp] theorem State.kmod_dmaEng (s : State) (id : Nat) (f : KCmd → KCmd) : (s.kmod id f).dmaEng = s.dmaEng := rfl
@[simp] theorem State.kmod_pmu (s : State) (id : Nat) (f : KCmd → KCmd) : (s.kmod id f).pmu = s.pmu := rfl
@[simp] theorem State.kmod_rpts (s : State) (id : Nat) (f : KCmd → KCmd) : (s.kmod id f).rpts = s.rpts := rfl
@[simp] theorem State.kmod_pins (s : State) (id : Nat) (f : KCmd → KCmd) : (s.kmod id f).pins = s.pins := rfl
@[simp] theorem State.kmod_free (s : State) (id : Nat) (f : KCmd → KCmd) : (s.kmod id f).free = s.free := rfl
@[simp] theorem State.kmod_core (s : State) (id : Nat) (f : KCmd → KCmd) (c0 : Nat) : (s.kmod id f).core c0 = s.core c0 := rfl
@[simp] theorem State.kmod_ctx (s : State) (id : Nat) (f : KCmd → KCmd) (c0 i0 : Nat) : (s.kmod id f).ctx c0 i0 = s.ctx c0 i0 := rfl
@[simp] theorem State.kmod_rget (s : State) (id : Nat) (f : KCmd → KCmd) (k0 : RegKind) (i0 j0 : Nat) : (s.kmod id f).rget k0 i0 j0 = s.rget k0 i0 j0 := rfl
@[simp] theorem State.kmod_fget (s : State) (id : Nat) (f : KCmd → KCmd) (f0 : Fld) (i0 j0 : Nat) : (s.kmod id f).fget f0 i0 j0 = s.fget f0 i0 j0 := rfl
@[simp] theorem State.kmod_part (s : State) (id : Nat) (f : KCmd → KCmd) (p0 : Nat) : (s.kmod id f).part p0 = s.part p0 := rfl
@[simp] theorem State.kmod_die (s : State) (id : Nat) (f : KCmd → KCmd) (d0 : Nat) : (s.kmod id f).die d0 = s.die d0 := rfl
@[simp] theorem State.kmod_fcyc (s : State) (id : Nat) (f : KCmd → KCmd) : (s.kmod id f).fcyc = s.fcyc := rfl
@[simp] theorem State.kmod_time (s : State) (id : Nat) (f : KCmd → KCmd) : (s.kmod id f).time = s.time := rfl
@[simp] theorem State.kmod_rport (s : State) (id : Nat) (f : KCmd → KCmd) (k0 : Nat) : (s.kmod id f).rport k0 = s.rport k0 := rfl
@[simp] theorem State.kmod_slice (s : State) (id : Nat) (f : KCmd → KCmd) (n0 : Nat) : (s.kmod id f).slice n0 = s.slice n0 := rfl
@[simp] theorem State.kmod_msc (s : State) (id : Nat) (f : KCmd → KCmd) (l0 : Nat) : (s.kmod id f).msc l0 = s.msc l0 := rfl
@[simp] theorem State.kmod_chan (s : State) (id : Nat) (f : KCmd → KCmd) (ch0 : Nat) : (s.kmod id f).chan ch0 = s.chan ch0 := rfl
@[simp] theorem State.kmod_eng (s : State) (id : Nat) (f : KCmd → KCmd) (e0 : Nat) : (s.kmod id f).eng e0 = s.eng e0 := rfl
@[simp] theorem State.kmod_rpt (s : State) (id : Nat) (f : KCmd → KCmd) (n0 : Nat) : (s.kmod id f).rpt n0 = s.rpt n0 := rfl
@[simp] theorem State.kmod_cfgW (s : State) (id : Nat) (f : KCmd → KCmd) (o0 : Nat) : (s.kmod id f).cfgW o0 = s.cfgW o0 := rfl
@[simp] theorem State.kmod_pkg (s : State) (id : Nat) (f : KCmd → KCmd) : (s.kmod id f).pkg = s.pkg := rfl
@[simp] theorem State.kmod_partState (s : State) (id : Nat) (f : KCmd → KCmd) (p0 : Nat) : (s.kmod id f).partState p0 = s.partState p0 := rfl

/-! modChan -/

@[simp] theorem State.modChan_pending (s : State) (ch : Nat) (f : DmaCh → DmaCh) : (s.modChan ch f).pending = s.pending := rfl
@[simp] theorem State.modChan_now (s : State) (ch : Nat) (f : DmaCh → DmaCh) : (s.modChan ch f).now = s.now := rfl
@[simp] theorem State.modChan_tb (s : State) (ch : Nat) (f : DmaCh → DmaCh) : (s.modChan ch f).tb = s.tb := rfl
@[simp] theorem State.modChan_tbPhase (s : State) (ch : Nat) (f : DmaCh → DmaCh) : (s.modChan ch f).tbPhase = s.tbPhase := rfl
@[simp] theorem State.modChan_fBase (s : State) (ch : Nat) (f : DmaCh → DmaCh) : (s.modChan ch f).fBase = s.fBase := rfl
@[simp] theorem State.modChan_cs (s : State) (ch : Nat) (f : DmaCh → DmaCh) : (s.modChan ch f).cs = s.cs := rfl
@[simp] theorem State.modChan_cores (s : State) (ch : Nat) (f : DmaCh → DmaCh) : (s.modChan ch f).cores = s.cores := rfl
@[simp] theorem State.modChan_parts (s : State) (ch : Nat) (f : DmaCh → DmaCh) : (s.modChan ch f).parts = s.parts := rfl
@[simp] theorem State.modChan_home (s : State) (ch : Nat) (f : DmaCh → DmaCh) : (s.modChan ch f).home = s.home := rfl
@[simp] theorem State.modChan_fab (s : State) (ch : Nat) (f : DmaCh → DmaCh) : (s.modChan ch f).fab = s.fab := rfl
@[simp] theorem State.modChan_mem (s : State) (ch : Nat) (f : DmaCh → DmaCh) : (s.modChan ch f).mem = s.mem := rfl
@[simp] theorem State.modChan_reel (s : State) (ch : Nat) (f : DmaCh → DmaCh) : (s.modChan ch f).reel = s.reel := rfl
@[simp] theorem State.modChan_kiln (s : State) (ch : Nat) (f : DmaCh → DmaCh) : (s.modChan ch f).kiln = s.kiln := rfl
@[simp] theorem State.modChan_dies (s : State) (ch : Nat) (f : DmaCh → DmaCh) : (s.modChan ch f).dies = s.dies := rfl
@[simp] theorem State.modChan_ioFuses (s : State) (ch : Nat) (f : DmaCh → DmaCh) : (s.modChan ch f).ioFuses = s.ioFuses := rfl
@[simp] theorem State.modChan_pwr (s : State) (ch : Nat) (f : DmaCh → DmaCh) : (s.modChan ch f).pwr = s.pwr := rfl
@[simp] theorem State.modChan_ep (s : State) (ch : Nat) (f : DmaCh → DmaCh) : (s.modChan ch f).ep = s.ep := rfl
@[simp] theorem State.modChan_dmaEng (s : State) (ch : Nat) (f : DmaCh → DmaCh) : (s.modChan ch f).dmaEng = s.dmaEng := rfl
@[simp] theorem State.modChan_pmu (s : State) (ch : Nat) (f : DmaCh → DmaCh) : (s.modChan ch f).pmu = s.pmu := rfl
@[simp] theorem State.modChan_rpts (s : State) (ch : Nat) (f : DmaCh → DmaCh) : (s.modChan ch f).rpts = s.rpts := rfl
@[simp] theorem State.modChan_pins (s : State) (ch : Nat) (f : DmaCh → DmaCh) : (s.modChan ch f).pins = s.pins := rfl
@[simp] theorem State.modChan_free (s : State) (ch : Nat) (f : DmaCh → DmaCh) : (s.modChan ch f).free = s.free := rfl
@[simp] theorem State.modChan_core (s : State) (ch : Nat) (f : DmaCh → DmaCh) (c0 : Nat) : (s.modChan ch f).core c0 = s.core c0 := rfl
@[simp] theorem State.modChan_ctx (s : State) (ch : Nat) (f : DmaCh → DmaCh) (c0 i0 : Nat) : (s.modChan ch f).ctx c0 i0 = s.ctx c0 i0 := rfl
@[simp] theorem State.modChan_rget (s : State) (ch : Nat) (f : DmaCh → DmaCh) (k0 : RegKind) (i0 j0 : Nat) : (s.modChan ch f).rget k0 i0 j0 = s.rget k0 i0 j0 := rfl
@[simp] theorem State.modChan_fget (s : State) (ch : Nat) (f : DmaCh → DmaCh) (f0 : Fld) (i0 j0 : Nat) : (s.modChan ch f).fget f0 i0 j0 = s.fget f0 i0 j0 := rfl
@[simp] theorem State.modChan_part (s : State) (ch : Nat) (f : DmaCh → DmaCh) (p0 : Nat) : (s.modChan ch f).part p0 = s.part p0 := rfl
@[simp] theorem State.modChan_die (s : State) (ch : Nat) (f : DmaCh → DmaCh) (d0 : Nat) : (s.modChan ch f).die d0 = s.die d0 := rfl
@[simp] theorem State.modChan_fcyc (s : State) (ch : Nat) (f : DmaCh → DmaCh) : (s.modChan ch f).fcyc = s.fcyc := rfl
@[simp] theorem State.modChan_time (s : State) (ch : Nat) (f : DmaCh → DmaCh) : (s.modChan ch f).time = s.time := rfl
@[simp] theorem State.modChan_rport (s : State) (ch : Nat) (f : DmaCh → DmaCh) (k0 : Nat) : (s.modChan ch f).rport k0 = s.rport k0 := rfl
@[simp] theorem State.modChan_slice (s : State) (ch : Nat) (f : DmaCh → DmaCh) (n0 : Nat) : (s.modChan ch f).slice n0 = s.slice n0 := rfl
@[simp] theorem State.modChan_msc (s : State) (ch : Nat) (f : DmaCh → DmaCh) (l0 : Nat) : (s.modChan ch f).msc l0 = s.msc l0 := rfl
@[simp] theorem State.modChan_kfind (s : State) (ch : Nat) (f : DmaCh → DmaCh) (id0 : Nat) : (s.modChan ch f).kfind id0 = s.kfind id0 := rfl
@[simp] theorem State.modChan_eng (s : State) (ch : Nat) (f : DmaCh → DmaCh) (e0 : Nat) : (s.modChan ch f).eng e0 = s.eng e0 := rfl
@[simp] theorem State.modChan_rpt (s : State) (ch : Nat) (f : DmaCh → DmaCh) (n0 : Nat) : (s.modChan ch f).rpt n0 = s.rpt n0 := rfl
@[simp] theorem State.modChan_cfgW (s : State) (ch : Nat) (f : DmaCh → DmaCh) (o0 : Nat) : (s.modChan ch f).cfgW o0 = s.cfgW o0 := rfl
@[simp] theorem State.modChan_pkg (s : State) (ch : Nat) (f : DmaCh → DmaCh) : (s.modChan ch f).pkg = s.pkg := rfl
@[simp] theorem State.modChan_partState (s : State) (ch : Nat) (f : DmaCh → DmaCh) (p0 : Nat) : (s.modChan ch f).partState p0 = s.partState p0 := rfl
@[simp] theorem State.modChan_hwMode (s : State) (ch : Nat) (f : DmaCh → DmaCh) (n0 : Nat) : (s.modChan ch f).hwMode n0 = s.hwMode n0 := rfl

/-! modEng -/

@[simp] theorem State.modEng_pending (s : State) (e : Nat) (f : DmaEng → DmaEng) : (s.modEng e f).pending = s.pending := rfl
@[simp] theorem State.modEng_now (s : State) (e : Nat) (f : DmaEng → DmaEng) : (s.modEng e f).now = s.now := rfl
@[simp] theorem State.modEng_tb (s : State) (e : Nat) (f : DmaEng → DmaEng) : (s.modEng e f).tb = s.tb := rfl
@[simp] theorem State.modEng_tbPhase (s : State) (e : Nat) (f : DmaEng → DmaEng) : (s.modEng e f).tbPhase = s.tbPhase := rfl
@[simp] theorem State.modEng_fBase (s : State) (e : Nat) (f : DmaEng → DmaEng) : (s.modEng e f).fBase = s.fBase := rfl
@[simp] theorem State.modEng_cs (s : State) (e : Nat) (f : DmaEng → DmaEng) : (s.modEng e f).cs = s.cs := rfl
@[simp] theorem State.modEng_cores (s : State) (e : Nat) (f : DmaEng → DmaEng) : (s.modEng e f).cores = s.cores := rfl
@[simp] theorem State.modEng_parts (s : State) (e : Nat) (f : DmaEng → DmaEng) : (s.modEng e f).parts = s.parts := rfl
@[simp] theorem State.modEng_home (s : State) (e : Nat) (f : DmaEng → DmaEng) : (s.modEng e f).home = s.home := rfl
@[simp] theorem State.modEng_fab (s : State) (e : Nat) (f : DmaEng → DmaEng) : (s.modEng e f).fab = s.fab := rfl
@[simp] theorem State.modEng_mem (s : State) (e : Nat) (f : DmaEng → DmaEng) : (s.modEng e f).mem = s.mem := rfl
@[simp] theorem State.modEng_reel (s : State) (e : Nat) (f : DmaEng → DmaEng) : (s.modEng e f).reel = s.reel := rfl
@[simp] theorem State.modEng_kiln (s : State) (e : Nat) (f : DmaEng → DmaEng) : (s.modEng e f).kiln = s.kiln := rfl
@[simp] theorem State.modEng_dies (s : State) (e : Nat) (f : DmaEng → DmaEng) : (s.modEng e f).dies = s.dies := rfl
@[simp] theorem State.modEng_ioFuses (s : State) (e : Nat) (f : DmaEng → DmaEng) : (s.modEng e f).ioFuses = s.ioFuses := rfl
@[simp] theorem State.modEng_pwr (s : State) (e : Nat) (f : DmaEng → DmaEng) : (s.modEng e f).pwr = s.pwr := rfl
@[simp] theorem State.modEng_ep (s : State) (e : Nat) (f : DmaEng → DmaEng) : (s.modEng e f).ep = s.ep := rfl
@[simp] theorem State.modEng_dmaCh (s : State) (e : Nat) (f : DmaEng → DmaEng) : (s.modEng e f).dmaCh = s.dmaCh := rfl
@[simp] theorem State.modEng_pmu (s : State) (e : Nat) (f : DmaEng → DmaEng) : (s.modEng e f).pmu = s.pmu := rfl
@[simp] theorem State.modEng_rpts (s : State) (e : Nat) (f : DmaEng → DmaEng) : (s.modEng e f).rpts = s.rpts := rfl
@[simp] theorem State.modEng_pins (s : State) (e : Nat) (f : DmaEng → DmaEng) : (s.modEng e f).pins = s.pins := rfl
@[simp] theorem State.modEng_free (s : State) (e : Nat) (f : DmaEng → DmaEng) : (s.modEng e f).free = s.free := rfl
@[simp] theorem State.modEng_core (s : State) (e : Nat) (f : DmaEng → DmaEng) (c0 : Nat) : (s.modEng e f).core c0 = s.core c0 := rfl
@[simp] theorem State.modEng_ctx (s : State) (e : Nat) (f : DmaEng → DmaEng) (c0 i0 : Nat) : (s.modEng e f).ctx c0 i0 = s.ctx c0 i0 := rfl
@[simp] theorem State.modEng_rget (s : State) (e : Nat) (f : DmaEng → DmaEng) (k0 : RegKind) (i0 j0 : Nat) : (s.modEng e f).rget k0 i0 j0 = s.rget k0 i0 j0 := rfl
@[simp] theorem State.modEng_fget (s : State) (e : Nat) (f : DmaEng → DmaEng) (f0 : Fld) (i0 j0 : Nat) : (s.modEng e f).fget f0 i0 j0 = s.fget f0 i0 j0 := rfl
@[simp] theorem State.modEng_part (s : State) (e : Nat) (f : DmaEng → DmaEng) (p0 : Nat) : (s.modEng e f).part p0 = s.part p0 := rfl
@[simp] theorem State.modEng_die (s : State) (e : Nat) (f : DmaEng → DmaEng) (d0 : Nat) : (s.modEng e f).die d0 = s.die d0 := rfl
@[simp] theorem State.modEng_fcyc (s : State) (e : Nat) (f : DmaEng → DmaEng) : (s.modEng e f).fcyc = s.fcyc := rfl
@[simp] theorem State.modEng_time (s : State) (e : Nat) (f : DmaEng → DmaEng) : (s.modEng e f).time = s.time := rfl
@[simp] theorem State.modEng_rport (s : State) (e : Nat) (f : DmaEng → DmaEng) (k0 : Nat) : (s.modEng e f).rport k0 = s.rport k0 := rfl
@[simp] theorem State.modEng_slice (s : State) (e : Nat) (f : DmaEng → DmaEng) (n0 : Nat) : (s.modEng e f).slice n0 = s.slice n0 := rfl
@[simp] theorem State.modEng_msc (s : State) (e : Nat) (f : DmaEng → DmaEng) (l0 : Nat) : (s.modEng e f).msc l0 = s.msc l0 := rfl
@[simp] theorem State.modEng_kfind (s : State) (e : Nat) (f : DmaEng → DmaEng) (id0 : Nat) : (s.modEng e f).kfind id0 = s.kfind id0 := rfl
@[simp] theorem State.modEng_chan (s : State) (e : Nat) (f : DmaEng → DmaEng) (ch0 : Nat) : (s.modEng e f).chan ch0 = s.chan ch0 := rfl
@[simp] theorem State.modEng_rpt (s : State) (e : Nat) (f : DmaEng → DmaEng) (n0 : Nat) : (s.modEng e f).rpt n0 = s.rpt n0 := rfl
@[simp] theorem State.modEng_cfgW (s : State) (e : Nat) (f : DmaEng → DmaEng) (o0 : Nat) : (s.modEng e f).cfgW o0 = s.cfgW o0 := rfl
@[simp] theorem State.modEng_pkg (s : State) (e : Nat) (f : DmaEng → DmaEng) : (s.modEng e f).pkg = s.pkg := rfl
@[simp] theorem State.modEng_partState (s : State) (e : Nat) (f : DmaEng → DmaEng) (p0 : Nat) : (s.modEng e f).partState p0 = s.partState p0 := rfl
@[simp] theorem State.modEng_hwMode (s : State) (e : Nat) (f : DmaEng → DmaEng) (n0 : Nat) : (s.modEng e f).hwMode n0 = s.hwMode n0 := rfl

/-! modRpt -/

@[simp] theorem State.modRpt_pending (s : State) (n : Nat) (f : Rpt → Rpt) : (s.modRpt n f).pending = s.pending := rfl
@[simp] theorem State.modRpt_now (s : State) (n : Nat) (f : Rpt → Rpt) : (s.modRpt n f).now = s.now := rfl
@[simp] theorem State.modRpt_tb (s : State) (n : Nat) (f : Rpt → Rpt) : (s.modRpt n f).tb = s.tb := rfl
@[simp] theorem State.modRpt_tbPhase (s : State) (n : Nat) (f : Rpt → Rpt) : (s.modRpt n f).tbPhase = s.tbPhase := rfl
@[simp] theorem State.modRpt_fBase (s : State) (n : Nat) (f : Rpt → Rpt) : (s.modRpt n f).fBase = s.fBase := rfl
@[simp] theorem State.modRpt_cs (s : State) (n : Nat) (f : Rpt → Rpt) : (s.modRpt n f).cs = s.cs := rfl
@[simp] theorem State.modRpt_cores (s : State) (n : Nat) (f : Rpt → Rpt) : (s.modRpt n f).cores = s.cores := rfl
@[simp] theorem State.modRpt_parts (s : State) (n : Nat) (f : Rpt → Rpt) : (s.modRpt n f).parts = s.parts := rfl
@[simp] theorem State.modRpt_home (s : State) (n : Nat) (f : Rpt → Rpt) : (s.modRpt n f).home = s.home := rfl
@[simp] theorem State.modRpt_fab (s : State) (n : Nat) (f : Rpt → Rpt) : (s.modRpt n f).fab = s.fab := rfl
@[simp] theorem State.modRpt_mem (s : State) (n : Nat) (f : Rpt → Rpt) : (s.modRpt n f).mem = s.mem := rfl
@[simp] theorem State.modRpt_reel (s : State) (n : Nat) (f : Rpt → Rpt) : (s.modRpt n f).reel = s.reel := rfl
@[simp] theorem State.modRpt_kiln (s : State) (n : Nat) (f : Rpt → Rpt) : (s.modRpt n f).kiln = s.kiln := rfl
@[simp] theorem State.modRpt_dies (s : State) (n : Nat) (f : Rpt → Rpt) : (s.modRpt n f).dies = s.dies := rfl
@[simp] theorem State.modRpt_ioFuses (s : State) (n : Nat) (f : Rpt → Rpt) : (s.modRpt n f).ioFuses = s.ioFuses := rfl
@[simp] theorem State.modRpt_pwr (s : State) (n : Nat) (f : Rpt → Rpt) : (s.modRpt n f).pwr = s.pwr := rfl
@[simp] theorem State.modRpt_ep (s : State) (n : Nat) (f : Rpt → Rpt) : (s.modRpt n f).ep = s.ep := rfl
@[simp] theorem State.modRpt_dmaCh (s : State) (n : Nat) (f : Rpt → Rpt) : (s.modRpt n f).dmaCh = s.dmaCh := rfl
@[simp] theorem State.modRpt_dmaEng (s : State) (n : Nat) (f : Rpt → Rpt) : (s.modRpt n f).dmaEng = s.dmaEng := rfl
@[simp] theorem State.modRpt_pmu (s : State) (n : Nat) (f : Rpt → Rpt) : (s.modRpt n f).pmu = s.pmu := rfl
@[simp] theorem State.modRpt_pins (s : State) (n : Nat) (f : Rpt → Rpt) : (s.modRpt n f).pins = s.pins := rfl
@[simp] theorem State.modRpt_free (s : State) (n : Nat) (f : Rpt → Rpt) : (s.modRpt n f).free = s.free := rfl
@[simp] theorem State.modRpt_core (s : State) (n : Nat) (f : Rpt → Rpt) (c0 : Nat) : (s.modRpt n f).core c0 = s.core c0 := rfl
@[simp] theorem State.modRpt_ctx (s : State) (n : Nat) (f : Rpt → Rpt) (c0 i0 : Nat) : (s.modRpt n f).ctx c0 i0 = s.ctx c0 i0 := rfl
@[simp] theorem State.modRpt_rget (s : State) (n : Nat) (f : Rpt → Rpt) (k0 : RegKind) (i0 j0 : Nat) : (s.modRpt n f).rget k0 i0 j0 = s.rget k0 i0 j0 := rfl
@[simp] theorem State.modRpt_fget (s : State) (n : Nat) (f : Rpt → Rpt) (f0 : Fld) (i0 j0 : Nat) : (s.modRpt n f).fget f0 i0 j0 = s.fget f0 i0 j0 := rfl
@[simp] theorem State.modRpt_part (s : State) (n : Nat) (f : Rpt → Rpt) (p0 : Nat) : (s.modRpt n f).part p0 = s.part p0 := rfl
@[simp] theorem State.modRpt_die (s : State) (n : Nat) (f : Rpt → Rpt) (d0 : Nat) : (s.modRpt n f).die d0 = s.die d0 := rfl
@[simp] theorem State.modRpt_fcyc (s : State) (n : Nat) (f : Rpt → Rpt) : (s.modRpt n f).fcyc = s.fcyc := rfl
@[simp] theorem State.modRpt_time (s : State) (n : Nat) (f : Rpt → Rpt) : (s.modRpt n f).time = s.time := rfl
@[simp] theorem State.modRpt_rport (s : State) (n : Nat) (f : Rpt → Rpt) (k0 : Nat) : (s.modRpt n f).rport k0 = s.rport k0 := rfl
@[simp] theorem State.modRpt_slice (s : State) (n : Nat) (f : Rpt → Rpt) (n0 : Nat) : (s.modRpt n f).slice n0 = s.slice n0 := rfl
@[simp] theorem State.modRpt_msc (s : State) (n : Nat) (f : Rpt → Rpt) (l0 : Nat) : (s.modRpt n f).msc l0 = s.msc l0 := rfl
@[simp] theorem State.modRpt_kfind (s : State) (n : Nat) (f : Rpt → Rpt) (id0 : Nat) : (s.modRpt n f).kfind id0 = s.kfind id0 := rfl
@[simp] theorem State.modRpt_chan (s : State) (n : Nat) (f : Rpt → Rpt) (ch0 : Nat) : (s.modRpt n f).chan ch0 = s.chan ch0 := rfl
@[simp] theorem State.modRpt_eng (s : State) (n : Nat) (f : Rpt → Rpt) (e0 : Nat) : (s.modRpt n f).eng e0 = s.eng e0 := rfl
@[simp] theorem State.modRpt_cfgW (s : State) (n : Nat) (f : Rpt → Rpt) (o0 : Nat) : (s.modRpt n f).cfgW o0 = s.cfgW o0 := rfl
@[simp] theorem State.modRpt_pkg (s : State) (n : Nat) (f : Rpt → Rpt) : (s.modRpt n f).pkg = s.pkg := rfl
@[simp] theorem State.modRpt_partState (s : State) (n : Nat) (f : Rpt → Rpt) (p0 : Nat) : (s.modRpt n f).partState p0 = s.partState p0 := rfl
@[simp] theorem State.modRpt_hwMode (s : State) (n : Nat) (f : Rpt → Rpt) (n0 : Nat) : (s.modRpt n f).hwMode n0 = s.hwMode n0 := rfl

/-! setCfg -/

@[simp] theorem State.setCfg_pending (s : State) (off : Nat) (v : BitVec 32) : (s.setCfg off v).pending = s.pending := rfl
@[simp] theorem State.setCfg_now (s : State) (off : Nat) (v : BitVec 32) : (s.setCfg off v).now = s.now := rfl
@[simp] theorem State.setCfg_tb (s : State) (off : Nat) (v : BitVec 32) : (s.setCfg off v).tb = s.tb := rfl
@[simp] theorem State.setCfg_tbPhase (s : State) (off : Nat) (v : BitVec 32) : (s.setCfg off v).tbPhase = s.tbPhase := rfl
@[simp] theorem State.setCfg_fBase (s : State) (off : Nat) (v : BitVec 32) : (s.setCfg off v).fBase = s.fBase := rfl
@[simp] theorem State.setCfg_cs (s : State) (off : Nat) (v : BitVec 32) : (s.setCfg off v).cs = s.cs := rfl
@[simp] theorem State.setCfg_cores (s : State) (off : Nat) (v : BitVec 32) : (s.setCfg off v).cores = s.cores := rfl
@[simp] theorem State.setCfg_parts (s : State) (off : Nat) (v : BitVec 32) : (s.setCfg off v).parts = s.parts := rfl
@[simp] theorem State.setCfg_home (s : State) (off : Nat) (v : BitVec 32) : (s.setCfg off v).home = s.home := rfl
@[simp] theorem State.setCfg_fab (s : State) (off : Nat) (v : BitVec 32) : (s.setCfg off v).fab = s.fab := rfl
@[simp] theorem State.setCfg_mem (s : State) (off : Nat) (v : BitVec 32) : (s.setCfg off v).mem = s.mem := rfl
@[simp] theorem State.setCfg_reel (s : State) (off : Nat) (v : BitVec 32) : (s.setCfg off v).reel = s.reel := rfl
@[simp] theorem State.setCfg_kiln (s : State) (off : Nat) (v : BitVec 32) : (s.setCfg off v).kiln = s.kiln := rfl
@[simp] theorem State.setCfg_dies (s : State) (off : Nat) (v : BitVec 32) : (s.setCfg off v).dies = s.dies := rfl
@[simp] theorem State.setCfg_ioFuses (s : State) (off : Nat) (v : BitVec 32) : (s.setCfg off v).ioFuses = s.ioFuses := rfl
@[simp] theorem State.setCfg_pwr (s : State) (off : Nat) (v : BitVec 32) : (s.setCfg off v).pwr = s.pwr := rfl
@[simp] theorem State.setCfg_dmaCh (s : State) (off : Nat) (v : BitVec 32) : (s.setCfg off v).dmaCh = s.dmaCh := rfl
@[simp] theorem State.setCfg_dmaEng (s : State) (off : Nat) (v : BitVec 32) : (s.setCfg off v).dmaEng = s.dmaEng := rfl
@[simp] theorem State.setCfg_pmu (s : State) (off : Nat) (v : BitVec 32) : (s.setCfg off v).pmu = s.pmu := rfl
@[simp] theorem State.setCfg_rpts (s : State) (off : Nat) (v : BitVec 32) : (s.setCfg off v).rpts = s.rpts := rfl
@[simp] theorem State.setCfg_pins (s : State) (off : Nat) (v : BitVec 32) : (s.setCfg off v).pins = s.pins := rfl
@[simp] theorem State.setCfg_free (s : State) (off : Nat) (v : BitVec 32) : (s.setCfg off v).free = s.free := rfl
@[simp] theorem State.setCfg_core (s : State) (off : Nat) (v : BitVec 32) (c0 : Nat) : (s.setCfg off v).core c0 = s.core c0 := rfl
@[simp] theorem State.setCfg_ctx (s : State) (off : Nat) (v : BitVec 32) (c0 i0 : Nat) : (s.setCfg off v).ctx c0 i0 = s.ctx c0 i0 := rfl
@[simp] theorem State.setCfg_rget (s : State) (off : Nat) (v : BitVec 32) (k0 : RegKind) (i0 j0 : Nat) : (s.setCfg off v).rget k0 i0 j0 = s.rget k0 i0 j0 := rfl
@[simp] theorem State.setCfg_fget (s : State) (off : Nat) (v : BitVec 32) (f0 : Fld) (i0 j0 : Nat) : (s.setCfg off v).fget f0 i0 j0 = s.fget f0 i0 j0 := rfl
@[simp] theorem State.setCfg_part (s : State) (off : Nat) (v : BitVec 32) (p0 : Nat) : (s.setCfg off v).part p0 = s.part p0 := rfl
@[simp] theorem State.setCfg_die (s : State) (off : Nat) (v : BitVec 32) (d0 : Nat) : (s.setCfg off v).die d0 = s.die d0 := rfl
@[simp] theorem State.setCfg_fcyc (s : State) (off : Nat) (v : BitVec 32) : (s.setCfg off v).fcyc = s.fcyc := rfl
@[simp] theorem State.setCfg_time (s : State) (off : Nat) (v : BitVec 32) : (s.setCfg off v).time = s.time := rfl
@[simp] theorem State.setCfg_rport (s : State) (off : Nat) (v : BitVec 32) (k0 : Nat) : (s.setCfg off v).rport k0 = s.rport k0 := rfl
@[simp] theorem State.setCfg_slice (s : State) (off : Nat) (v : BitVec 32) (n0 : Nat) : (s.setCfg off v).slice n0 = s.slice n0 := rfl
@[simp] theorem State.setCfg_msc (s : State) (off : Nat) (v : BitVec 32) (l0 : Nat) : (s.setCfg off v).msc l0 = s.msc l0 := rfl
@[simp] theorem State.setCfg_kfind (s : State) (off : Nat) (v : BitVec 32) (id0 : Nat) : (s.setCfg off v).kfind id0 = s.kfind id0 := rfl
@[simp] theorem State.setCfg_chan (s : State) (off : Nat) (v : BitVec 32) (ch0 : Nat) : (s.setCfg off v).chan ch0 = s.chan ch0 := rfl
@[simp] theorem State.setCfg_eng (s : State) (off : Nat) (v : BitVec 32) (e0 : Nat) : (s.setCfg off v).eng e0 = s.eng e0 := rfl
@[simp] theorem State.setCfg_rpt (s : State) (off : Nat) (v : BitVec 32) (n0 : Nat) : (s.setCfg off v).rpt n0 = s.rpt n0 := rfl
@[simp] theorem State.setCfg_pkg (s : State) (off : Nat) (v : BitVec 32) : (s.setCfg off v).pkg = s.pkg := rfl
@[simp] theorem State.setCfg_partState (s : State) (off : Nat) (v : BitVec 32) (p0 : Nat) : (s.setCfg off v).partState p0 = s.partState p0 := rfl
@[simp] theorem State.setCfg_hwMode (s : State) (off : Nat) (v : BitVec 32) (n0 : Nat) : (s.setCfg off v).hwMode n0 = s.hwMode n0 := rfl

/-! modRing -/

@[simp] theorem State.modRing_pending (s : State) (r : Nat) (f : EpRing → EpRing) : (s.modRing r f).pending = s.pending := rfl
@[simp] theorem State.modRing_now (s : State) (r : Nat) (f : EpRing → EpRing) : (s.modRing r f).now = s.now := rfl
@[simp] theorem State.modRing_tb (s : State) (r : Nat) (f : EpRing → EpRing) : (s.modRing r f).tb = s.tb := rfl
@[simp] theorem State.modRing_tbPhase (s : State) (r : Nat) (f : EpRing → EpRing) : (s.modRing r f).tbPhase = s.tbPhase := rfl
@[simp] theorem State.modRing_fBase (s : State) (r : Nat) (f : EpRing → EpRing) : (s.modRing r f).fBase = s.fBase := rfl
@[simp] theorem State.modRing_cs (s : State) (r : Nat) (f : EpRing → EpRing) : (s.modRing r f).cs = s.cs := rfl
@[simp] theorem State.modRing_cores (s : State) (r : Nat) (f : EpRing → EpRing) : (s.modRing r f).cores = s.cores := rfl
@[simp] theorem State.modRing_parts (s : State) (r : Nat) (f : EpRing → EpRing) : (s.modRing r f).parts = s.parts := rfl
@[simp] theorem State.modRing_home (s : State) (r : Nat) (f : EpRing → EpRing) : (s.modRing r f).home = s.home := rfl
@[simp] theorem State.modRing_fab (s : State) (r : Nat) (f : EpRing → EpRing) : (s.modRing r f).fab = s.fab := rfl
@[simp] theorem State.modRing_mem (s : State) (r : Nat) (f : EpRing → EpRing) : (s.modRing r f).mem = s.mem := rfl
@[simp] theorem State.modRing_reel (s : State) (r : Nat) (f : EpRing → EpRing) : (s.modRing r f).reel = s.reel := rfl
@[simp] theorem State.modRing_kiln (s : State) (r : Nat) (f : EpRing → EpRing) : (s.modRing r f).kiln = s.kiln := rfl
@[simp] theorem State.modRing_dies (s : State) (r : Nat) (f : EpRing → EpRing) : (s.modRing r f).dies = s.dies := rfl
@[simp] theorem State.modRing_ioFuses (s : State) (r : Nat) (f : EpRing → EpRing) : (s.modRing r f).ioFuses = s.ioFuses := rfl
@[simp] theorem State.modRing_pwr (s : State) (r : Nat) (f : EpRing → EpRing) : (s.modRing r f).pwr = s.pwr := rfl
@[simp] theorem State.modRing_dmaCh (s : State) (r : Nat) (f : EpRing → EpRing) : (s.modRing r f).dmaCh = s.dmaCh := rfl
@[simp] theorem State.modRing_dmaEng (s : State) (r : Nat) (f : EpRing → EpRing) : (s.modRing r f).dmaEng = s.dmaEng := rfl
@[simp] theorem State.modRing_pmu (s : State) (r : Nat) (f : EpRing → EpRing) : (s.modRing r f).pmu = s.pmu := rfl
@[simp] theorem State.modRing_rpts (s : State) (r : Nat) (f : EpRing → EpRing) : (s.modRing r f).rpts = s.rpts := rfl
@[simp] theorem State.modRing_pins (s : State) (r : Nat) (f : EpRing → EpRing) : (s.modRing r f).pins = s.pins := rfl
@[simp] theorem State.modRing_free (s : State) (r : Nat) (f : EpRing → EpRing) : (s.modRing r f).free = s.free := rfl
@[simp] theorem State.modRing_core (s : State) (r : Nat) (f : EpRing → EpRing) (c0 : Nat) : (s.modRing r f).core c0 = s.core c0 := rfl
@[simp] theorem State.modRing_ctx (s : State) (r : Nat) (f : EpRing → EpRing) (c0 i0 : Nat) : (s.modRing r f).ctx c0 i0 = s.ctx c0 i0 := rfl
@[simp] theorem State.modRing_rget (s : State) (r : Nat) (f : EpRing → EpRing) (k0 : RegKind) (i0 j0 : Nat) : (s.modRing r f).rget k0 i0 j0 = s.rget k0 i0 j0 := rfl
@[simp] theorem State.modRing_fget (s : State) (r : Nat) (f : EpRing → EpRing) (f0 : Fld) (i0 j0 : Nat) : (s.modRing r f).fget f0 i0 j0 = s.fget f0 i0 j0 := rfl
@[simp] theorem State.modRing_part (s : State) (r : Nat) (f : EpRing → EpRing) (p0 : Nat) : (s.modRing r f).part p0 = s.part p0 := rfl
@[simp] theorem State.modRing_die (s : State) (r : Nat) (f : EpRing → EpRing) (d0 : Nat) : (s.modRing r f).die d0 = s.die d0 := rfl
@[simp] theorem State.modRing_fcyc (s : State) (r : Nat) (f : EpRing → EpRing) : (s.modRing r f).fcyc = s.fcyc := rfl
@[simp] theorem State.modRing_time (s : State) (r : Nat) (f : EpRing → EpRing) : (s.modRing r f).time = s.time := rfl
@[simp] theorem State.modRing_rport (s : State) (r : Nat) (f : EpRing → EpRing) (k0 : Nat) : (s.modRing r f).rport k0 = s.rport k0 := rfl
@[simp] theorem State.modRing_slice (s : State) (r : Nat) (f : EpRing → EpRing) (n0 : Nat) : (s.modRing r f).slice n0 = s.slice n0 := rfl
@[simp] theorem State.modRing_msc (s : State) (r : Nat) (f : EpRing → EpRing) (l0 : Nat) : (s.modRing r f).msc l0 = s.msc l0 := rfl
@[simp] theorem State.modRing_kfind (s : State) (r : Nat) (f : EpRing → EpRing) (id0 : Nat) : (s.modRing r f).kfind id0 = s.kfind id0 := rfl
@[simp] theorem State.modRing_chan (s : State) (r : Nat) (f : EpRing → EpRing) (ch0 : Nat) : (s.modRing r f).chan ch0 = s.chan ch0 := rfl
@[simp] theorem State.modRing_eng (s : State) (r : Nat) (f : EpRing → EpRing) (e0 : Nat) : (s.modRing r f).eng e0 = s.eng e0 := rfl
@[simp] theorem State.modRing_rpt (s : State) (r : Nat) (f : EpRing → EpRing) (n0 : Nat) : (s.modRing r f).rpt n0 = s.rpt n0 := rfl
@[simp] theorem State.modRing_pkg (s : State) (r : Nat) (f : EpRing → EpRing) : (s.modRing r f).pkg = s.pkg := rfl
@[simp] theorem State.modRing_partState (s : State) (r : Nat) (f : EpRing → EpRing) (p0 : Nat) : (s.modRing r f).partState p0 = s.partState p0 := rfl
@[simp] theorem State.modRing_hwMode (s : State) (r : Nat) (f : EpRing → EpRing) (n0 : Nat) : (s.modRing r f).hwMode n0 = s.hwMode n0 := rfl

/-! modSlipG -/

@[simp] theorem State.modSlipG_pending (s : State) (d g : Nat) (f : SlipG → SlipG) : (s.modSlipG d g f).pending = s.pending := rfl
@[simp] theorem State.modSlipG_now (s : State) (d g : Nat) (f : SlipG → SlipG) : (s.modSlipG d g f).now = s.now := rfl
@[simp] theorem State.modSlipG_tb (s : State) (d g : Nat) (f : SlipG → SlipG) : (s.modSlipG d g f).tb = s.tb := rfl
@[simp] theorem State.modSlipG_tbPhase (s : State) (d g : Nat) (f : SlipG → SlipG) : (s.modSlipG d g f).tbPhase = s.tbPhase := rfl
@[simp] theorem State.modSlipG_fBase (s : State) (d g : Nat) (f : SlipG → SlipG) : (s.modSlipG d g f).fBase = s.fBase := rfl
@[simp] theorem State.modSlipG_cs (s : State) (d g : Nat) (f : SlipG → SlipG) : (s.modSlipG d g f).cs = s.cs := rfl
@[simp] theorem State.modSlipG_cores (s : State) (d g : Nat) (f : SlipG → SlipG) : (s.modSlipG d g f).cores = s.cores := rfl
@[simp] theorem State.modSlipG_parts (s : State) (d g : Nat) (f : SlipG → SlipG) : (s.modSlipG d g f).parts = s.parts := rfl
@[simp] theorem State.modSlipG_home (s : State) (d g : Nat) (f : SlipG → SlipG) : (s.modSlipG d g f).home = s.home := rfl
@[simp] theorem State.modSlipG_fab (s : State) (d g : Nat) (f : SlipG → SlipG) : (s.modSlipG d g f).fab = s.fab := rfl
@[simp] theorem State.modSlipG_mem (s : State) (d g : Nat) (f : SlipG → SlipG) : (s.modSlipG d g f).mem = s.mem := rfl
@[simp] theorem State.modSlipG_reel (s : State) (d g : Nat) (f : SlipG → SlipG) : (s.modSlipG d g f).reel = s.reel := rfl
@[simp] theorem State.modSlipG_kiln (s : State) (d g : Nat) (f : SlipG → SlipG) : (s.modSlipG d g f).kiln = s.kiln := rfl
@[simp] theorem State.modSlipG_ioFuses (s : State) (d g : Nat) (f : SlipG → SlipG) : (s.modSlipG d g f).ioFuses = s.ioFuses := rfl
@[simp] theorem State.modSlipG_pwr (s : State) (d g : Nat) (f : SlipG → SlipG) : (s.modSlipG d g f).pwr = s.pwr := rfl
@[simp] theorem State.modSlipG_ep (s : State) (d g : Nat) (f : SlipG → SlipG) : (s.modSlipG d g f).ep = s.ep := rfl
@[simp] theorem State.modSlipG_dmaCh (s : State) (d g : Nat) (f : SlipG → SlipG) : (s.modSlipG d g f).dmaCh = s.dmaCh := rfl
@[simp] theorem State.modSlipG_dmaEng (s : State) (d g : Nat) (f : SlipG → SlipG) : (s.modSlipG d g f).dmaEng = s.dmaEng := rfl
@[simp] theorem State.modSlipG_pmu (s : State) (d g : Nat) (f : SlipG → SlipG) : (s.modSlipG d g f).pmu = s.pmu := rfl
@[simp] theorem State.modSlipG_rpts (s : State) (d g : Nat) (f : SlipG → SlipG) : (s.modSlipG d g f).rpts = s.rpts := rfl
@[simp] theorem State.modSlipG_pins (s : State) (d g : Nat) (f : SlipG → SlipG) : (s.modSlipG d g f).pins = s.pins := rfl
@[simp] theorem State.modSlipG_free (s : State) (d g : Nat) (f : SlipG → SlipG) : (s.modSlipG d g f).free = s.free := rfl
@[simp] theorem State.modSlipG_core (s : State) (d g : Nat) (f : SlipG → SlipG) (c0 : Nat) : (s.modSlipG d g f).core c0 = s.core c0 := rfl
@[simp] theorem State.modSlipG_ctx (s : State) (d g : Nat) (f : SlipG → SlipG) (c0 i0 : Nat) : (s.modSlipG d g f).ctx c0 i0 = s.ctx c0 i0 := rfl
@[simp] theorem State.modSlipG_rget (s : State) (d g : Nat) (f : SlipG → SlipG) (k0 : RegKind) (i0 j0 : Nat) : (s.modSlipG d g f).rget k0 i0 j0 = s.rget k0 i0 j0 := rfl
@[simp] theorem State.modSlipG_fget (s : State) (d g : Nat) (f : SlipG → SlipG) (f0 : Fld) (i0 j0 : Nat) : (s.modSlipG d g f).fget f0 i0 j0 = s.fget f0 i0 j0 := rfl
@[simp] theorem State.modSlipG_part (s : State) (d g : Nat) (f : SlipG → SlipG) (p0 : Nat) : (s.modSlipG d g f).part p0 = s.part p0 := rfl
@[simp] theorem State.modSlipG_fcyc (s : State) (d g : Nat) (f : SlipG → SlipG) : (s.modSlipG d g f).fcyc = s.fcyc := rfl
@[simp] theorem State.modSlipG_time (s : State) (d g : Nat) (f : SlipG → SlipG) : (s.modSlipG d g f).time = s.time := rfl
@[simp] theorem State.modSlipG_rport (s : State) (d g : Nat) (f : SlipG → SlipG) (k0 : Nat) : (s.modSlipG d g f).rport k0 = s.rport k0 := rfl
@[simp] theorem State.modSlipG_slice (s : State) (d g : Nat) (f : SlipG → SlipG) (n0 : Nat) : (s.modSlipG d g f).slice n0 = s.slice n0 := rfl
@[simp] theorem State.modSlipG_msc (s : State) (d g : Nat) (f : SlipG → SlipG) (l0 : Nat) : (s.modSlipG d g f).msc l0 = s.msc l0 := rfl
@[simp] theorem State.modSlipG_kfind (s : State) (d g : Nat) (f : SlipG → SlipG) (id0 : Nat) : (s.modSlipG d g f).kfind id0 = s.kfind id0 := rfl
@[simp] theorem State.modSlipG_chan (s : State) (d g : Nat) (f : SlipG → SlipG) (ch0 : Nat) : (s.modSlipG d g f).chan ch0 = s.chan ch0 := rfl
@[simp] theorem State.modSlipG_eng (s : State) (d g : Nat) (f : SlipG → SlipG) (e0 : Nat) : (s.modSlipG d g f).eng e0 = s.eng e0 := rfl
@[simp] theorem State.modSlipG_rpt (s : State) (d g : Nat) (f : SlipG → SlipG) (n0 : Nat) : (s.modSlipG d g f).rpt n0 = s.rpt n0 := rfl
@[simp] theorem State.modSlipG_cfgW (s : State) (d g : Nat) (f : SlipG → SlipG) (o0 : Nat) : (s.modSlipG d g f).cfgW o0 = s.cfgW o0 := rfl
@[simp] theorem State.modSlipG_pkg (s : State) (d g : Nat) (f : SlipG → SlipG) : (s.modSlipG d g f).pkg = s.pkg := rfl
@[simp] theorem State.modSlipG_partState (s : State) (d g : Nat) (f : SlipG → SlipG) (p0 : Nat) : (s.modSlipG d g f).partState p0 = s.partState p0 := rfl
@[simp] theorem State.modSlipG_hwMode (s : State) (d g : Nat) (f : SlipG → SlipG) (n0 : Nat) : (s.modSlipG d g f).hwMode n0 = s.hwMode n0 := rfl

end Sys2Proof.Machine
end

