-- ==== Sys2Proof/Laws/Regs.lean ====
section
/-! SUPPORT. Laws of the registers, cores, contexts and the other indexed parts: what a write leaves to be read. -/

namespace Sys2Proof.Machine

theorem RegKind.num_inj {k l : RegKind} (h : k.num = l.num) : k = l := by
  have := congrArg RegKind.ofNat h
  simpa only [RegKind.num, RegKind.ofNat_ctorIdx] using this

/-- A register written is read back, and no other register changes. -/
theorem State.rget_rput (s : State) (k l : RegKind) (i j i' j' : Nat) (v : W64) :
    (s.rput k i j v).rget l i' j' = if l = k ∧ i' = i ∧ j' = j then v else s.rget l i' j' := by
  by_cases hk : l = k
  · subst hk
    by_cases hi : i' = i
    · subst hi
      by_cases hj : j' = j
      · subst hj; simp [State.rget, State.rput]
      · simp [State.rget, State.rput, hj, Tab.get_put_ne]
    · simp [State.rget, State.rput, hi]
  · have : ¬ l.num = k.num := fun h => hk (RegKind.num_inj h)
    simp [State.rget, State.rput, hk, this]

@[simp] theorem State.rget_rput_same (s : State) (k : RegKind) (i j : Nat) (v : W64) : (s.rput k i j v).rget k i j = v := by
  simp [State.rget_rput]

theorem State.rget_rput_ne (s : State) (k l : RegKind) (i j i' j' : Nat) (v : W64) (h : l ≠ k) :
    (s.rput k i j v).rget l i' j' = s.rget l i' j' := by
  simp [State.rget_rput, h]

/-- A field written is read back, cut to its width. -/
theorem State.fget_fput (s : State) (f : Fld) (i j v : Nat) (h : f.lo + f.len ≤ 64) : (s.fput f i j v).fget f i j = v % 2 ^ f.len := by
  simp [State.fget, State.fput, bits_setBits _ _ _ _ h]

/-- A field of another register kind is unchanged. -/
theorem State.fget_fput_ne (s : State) (f g : Fld) (i j i' j' v : Nat) (h : g.kind ≠ f.kind) :
    (s.fput f i j v).fget g i' j' = s.fget g i' j' := by
  simp [State.fget, State.fput, State.rget_rput, h]

/-- A field of another index is unchanged. -/
theorem State.fget_fput_idx (s : State) (f g : Fld) (i j i' j' v : Nat) (h : i' ≠ i ∨ j' ≠ j) :
    (s.fput f i j v).fget g i' j' = s.fget g i' j' := by
  have : ¬ (g.kind = f.kind ∧ i' = i ∧ j' = j) := fun ⟨_, a, b⟩ => h.elim (· a) (· b)
  simp [State.fget, State.fput, State.rget_rput, this]

/-- A field that does not overlap the one written is unchanged. -/
theorem State.fget_fput_disjoint (s : State) (f g : Fld) (i j i' j' v : Nat) (h : g.lo + g.len ≤ f.lo ∨ f.lo + f.len ≤ g.lo) :
    (s.fput f i j v).fget g i' j' = s.fget g i' j' := by
  unfold State.fget State.fput
  rw [State.rget_rput]
  split
  · rename_i e; obtain ⟨e1, e2, e3⟩ := e
    rw [bits_setBits_disjoint _ _ _ _ _ _ h, e1, e2, e3]
  · rfl

theorem State.rget_fput_ne (s : State) (f : Fld) (l : RegKind) (i j i' j' v : Nat) (h : l ≠ f.kind) :
    (s.fput f i j v).rget l i' j' = s.rget l i' j' := by
  simp [State.fput, State.rget_rput, h]

theorem State.fget_rput_ne (s : State) (k : RegKind) (g : Fld) (i j i' j' : Nat) (v : W64) (h : g.kind ≠ k) :
    (s.rput k i j v).fget g i' j' = s.fget g i' j' := by
  simp [State.fget, State.rget_rput, h]

theorem State.fget_lt (s : State) (f : Fld) (i j : Nat) : s.fget f i j < 2 ^ f.len := bits_lt _ _ _

/-- A core replaced is read back, and no other core changes. -/
@[simp] theorem State.core_setCore (s : State) (c c' : Nat) (k : Core) : (s.setCore c k).core c' = if c' = c then k else s.core c' := by
  simp [State.core, State.setCore]

@[simp] theorem State.core_modCore (s : State) (c c' : Nat) (f : Core → Core) :
    (s.modCore c f).core c' = if c' = c then f (s.core c) else s.core c' := by
  simp [State.modCore]

/-- A context replaced is read back, and no other context of the core changes. -/
@[simp] theorem Core.ctx_setCtx (k : Core) (i j : Nat) (x : Ctx) : (k.setCtx i x).ctx j = if j = i then x else k.ctx j := by
  simp [Core.ctx, Core.setCtx]

@[simp] theorem Core.ctx_modCtx (k : Core) (i j : Nat) (f : Ctx → Ctx) : (k.modCtx i f).ctx j = if j = i then f (k.ctx i) else k.ctx j := by
  simp [Core.modCtx]

@[simp] theorem State.ctx_setCore (s : State) (c c' i : Nat) (k : Core) : (s.setCore c k).ctx c' i = if c' = c then k.ctx i else s.ctx c' i := by
  unfold State.ctx; rw [State.core_setCore]; split <;> rfl

@[simp] theorem State.ctx_modCore (s : State) (c c' i : Nat) (f : Core → Core) :
    (s.modCore c f).ctx c' i = if c' = c then (f (s.core c)).ctx i else s.ctx c' i := by
  simp [State.modCore]

@[simp] theorem State.ctx_modCtx (s : State) (c i c' i' : Nat) (f : Ctx → Ctx) :
    (s.modCtx c i f).ctx c' i' = if c' = c ∧ i' = i then f (s.ctx c i) else s.ctx c' i' := by
  unfold State.modCtx
  rw [State.ctx_modCore, Core.ctx_modCtx]
  by_cases h1 : c' = c
  · subst h1
    by_cases h2 : i' = i <;> simp [h2, State.ctx]
  · simp [h1]

@[simp] theorem State.part_modPart (s : State) (p q : Nat) (f : Part → Part) : (s.modPart p f).part q = if q = p then f (s.part p) else s.part q := by
  simp [State.part, State.modPart]

@[simp] theorem State.die_modDie (s : State) (d e : Nat) (f : Die → Die) : (s.modDie d f).die e = if e = d then f (s.die d) else s.die e := by
  simp [State.die, State.modDie]

@[simp] theorem State.slice_modSlice (s : State) (n m : Nat) (f : Slice → Slice) :
    (s.modSlice n f).slice m = if m = n then f (s.slice n) else s.slice m := by
  simp [State.slice, State.modSlice]

@[simp] theorem State.rport_modRport (s : State) (k l : Nat) (f : RPort → RPort) :
    (s.modRport k f).rport l = if l = k then f (s.rport k) else s.rport l := by
  simp [State.rport, State.modRport]

@[simp] theorem State.chan_modChan (s : State) (c d : Nat) (f : DmaCh → DmaCh) : (s.modChan c f).chan d = if d = c then f (s.chan c) else s.chan d := by
  simp [State.chan, State.modChan]

@[simp] theorem State.eng_modEng (s : State) (e d : Nat) (f : DmaEng → DmaEng) : (s.modEng e f).eng d = if d = e then f (s.eng e) else s.eng d := by
  simp [State.eng, State.modEng]

@[simp] theorem State.rpt_modRpt (s : State) (n m : Nat) (f : Rpt → Rpt) : (s.modRpt n f).rpt m = if m = n then f (s.rpt n) else s.rpt m := by
  simp [State.rpt, State.modRpt]

@[simp] theorem State.ring_modRing (s : State) (r q : Nat) (f : EpRing → EpRing) :
    (s.modRing r f).ring q = if q = r then f (s.ring r) else s.ring q := by
  simp [State.ring, State.modRing]

@[simp] theorem State.setCfg_cfgW (s : State) (o : Nat) (v : BitVec 32) : (s.setCfg o v).cfgW o = v := by
  simp [State.cfgW, State.setCfg]

theorem State.cfgW_setCfg_ne (s : State) (o p : Nat) (v : BitVec 32) (h : p / 4 ≠ o / 4) : (s.setCfg o v).cfgW p = s.cfgW p := by
  simp [State.cfgW, State.setCfg, h, Tab.get_put_ne]

/-- x0 reads 0. -/
@[simp] theorem Ctx.getX_zero (x : Ctx) : x.getX 0 = 0 := rfl

/-- An integer register written is read back, but for x0, and no other changes. -/
@[simp] theorem Ctx.getX_setX (x : Ctx) (r q : Nat) (v : W64) : (x.setX r v).getX q = if q = r ∧ r ≠ 0 then v else x.getX q := by
  unfold Ctx.setX Ctx.getX
  by_cases hr : r = 0
  · subst hr; simp
  · by_cases hq : q = 0
    · subst hq; simp [Ne.symm hr, hr]
    · simp [hr, hq]

end Sys2Proof.Machine
end

