-- ==== Sys2Proof/Laws/Issue.lean ====
section
/-! SUPPORT. What issue, completion and traps do to a core and its contexts, said once. -/

namespace Sys2Proof.Machine

@[simp] theorem Core.ctx_ev (k : Core) (code i n j : Nat) : (k.ev code i n).ctx j = k.ctx j := rfl
@[simp] theorem Core.l2_ev (k : Core) (code i n : Nat) : (k.ev code i n).l2 = k.l2 := rfl
@[simp] theorem Core.sb_ev (k : Core) (code i n : Nat) : (k.ev code i n).sb = k.sb := rfl
@[simp] theorem Core.evb_ev (k : Core) (code i n : Nat) : (k.ev code i n).evb = k.evb := rfl
@[simp] theorem Core.l2_setCtx (k : Core) (i : Nat) (x : Ctx) : (k.setCtx i x).l2 = k.l2 := rfl
@[simp] theorem Core.sb_setCtx (k : Core) (i : Nat) (x : Ctx) : (k.setCtx i x).sb = k.sb := rfl
@[simp] theorem Core.evb_setCtx (k : Core) (i : Nat) (x : Ctx) : (k.setCtx i x).evb = k.evb := rfl
@[simp] theorem Core.l2_modCtx (k : Core) (i : Nat) (f : Ctx → Ctx) : (k.modCtx i f).l2 = k.l2 := rfl
@[simp] theorem Core.sb_modCtx (k : Core) (i : Nat) (f : Ctx → Ctx) : (k.modCtx i f).sb = k.sb := rfl
@[simp] theorem Core.evb_modCtx (k : Core) (i : Nat) (f : Ctx → Ctx) : (k.modCtx i f).evb = k.evb := rfl

theorem Core.useLane_parts (k : Core) (t lane slot : Nat) :
    (k.useLane t lane slot).ctxs = k.ctxs ∧ (k.useLane t lane slot).l2 = k.l2 ∧ (k.useLane t lane slot).sb = k.sb ∧
      (k.useLane t lane slot).evb = k.evb ∧ (k.useLane t lane slot).slots = k.slots := by
  unfold Core.useLane
  dsimp only
  split <;> split <;> (try split) <;> (try split) <;> (try split) <;> exact ⟨rfl, rfl, rfl, rfl, rfl⟩

@[simp] theorem Core.ctx_useLane (k : Core) (t lane slot j : Nat) : (k.useLane t lane slot).ctx j = k.ctx j := by
  unfold Core.ctx; rw [(k.useLane_parts t lane slot).1]

/-- A context's part of issuing: its slot's cycle and the bytes it fetched. -/
def Ctx.marked (x : Ctx) (t : Nat) (h : Ins) : Ctx := { x with iss := t + 1, fbuf := consume x.fbuf (x.pc.toNat + insLen h) }

@[simp] theorem Core.ctx_mark (k : Core) (t : Nat) (h : Ins) (q : IssQ) (j : Nat) :
    (k.mark t h q).ctx j = if j = h.ctx then (k.ctx h.ctx).marked t h else k.ctx j := by
  unfold Core.mark
  simp only [Core.ctx_modCtx, Core.ctx_useLane]
  rfl

@[simp] theorem Core.l2_mark (k : Core) (t : Nat) (h : Ins) (q : IssQ) : (k.mark t h q).l2 = k.l2 := (k.useLane_parts t q.lane _).2.1
@[simp] theorem Core.sb_mark (k : Core) (t : Nat) (h : Ins) (q : IssQ) : (k.mark t h q).sb = k.sb := (k.useLane_parts t q.lane _).2.2.1
@[simp] theorem Core.evb_mark (k : Core) (t : Nat) (h : Ins) (q : IssQ) : (k.mark t h q).evb = k.evb := (k.useLane_parts t q.lane _).2.2.2.1

/-- A context's samples have been given an instruction. -/
def Ctx.sampled (x : Ctx) : Ctx := { x with smp := [], sflags := 0 }

@[simp] theorem Core.ctx_retired (k : Core) (r : Retire) (j : Nat) : (k.retired r).ctx j = if j = r.ctx then (k.ctx r.ctx).sampled else k.ctx j := by
  unfold Core.retired
  dsimp only
  split
  · rename_i h
    simp only [Bool.and_eq_true, beq_iff_eq, List.isEmpty_iff] at h
    have e : (k.ctx r.ctx).sampled = k.ctx r.ctx := by
      have h1 : (k.ctx r.ctx).smp = [] := h.1
      have h2 : (k.ctx r.ctx).sflags = 0 := h.2
      unfold Ctx.sampled
      rw [← h1, ← h2]
    change k.ctx j = _
    split
    · rename_i e'; rw [e, e']
    · rfl
  · rw [Core.ctx_modCtx]; rfl

@[simp] theorem Core.l2_retired (k : Core) (r : Retire) : (k.retired r).l2 = k.l2 := by unfold Core.retired; dsimp only; split <;> rfl
@[simp] theorem Core.sb_retired (k : Core) (r : Retire) : (k.retired r).sb = k.sb := by unfold Core.retired; dsimp only; split <;> rfl
@[simp] theorem Core.evb_retired (k : Core) (r : Retire) : (k.retired r).evb = k.evb := by unfold Core.retired; dsimp only; split <;> rfl

@[simp] theorem Core.ctx_finish (k : Core) (i j : Nat) (pc addr : W64) (raw : BitVec 32) (a b c : Nat) :
    (k.finish i pc addr raw a b c).ctx j = if j = i then (k.ctx i).sampled else k.ctx j := by
  unfold Core.finish
  dsimp only
  rw [Core.ctx_retired]
  split <;> split <;> rfl

@[simp] theorem Core.l2_finish (k : Core) (i : Nat) (pc addr : W64) (raw : BitVec 32) (a b c : Nat) : (k.finish i pc addr raw a b c).l2 = k.l2 := by
  unfold Core.finish; dsimp only; rw [Core.l2_retired]; split <;> rfl
@[simp] theorem Core.sb_finish (k : Core) (i : Nat) (pc addr : W64) (raw : BitVec 32) (a b c : Nat) : (k.finish i pc addr raw a b c).sb = k.sb := by
  unfold Core.finish; dsimp only; rw [Core.sb_retired]; split <;> rfl
@[simp] theorem Core.evb_finish (k : Core) (i : Nat) (pc addr : W64) (raw : BitVec 32) (a b c : Nat) : (k.finish i pc addr raw a b c).evb = k.evb := by
  unfold Core.finish; dsimp only; rw [Core.evb_retired]; split <;> rfl

/-- An instruction done: its context has its effect, its result's latency and its pc past it. -/
@[simp] theorem Core.ctx_done (k : Core) (t : Nat) (h : Ins) (lat : Nat) (rd : Option Nat) (f : Ctx → Ctx) (j : Nat) :
    (k.done t h lat rd f).ctx j = if j = h.ctx then ((f (k.ctx h.ctx).sampled).owe t lat rd).adv (insLen h) else k.ctx j := by
  unfold Core.done
  dsimp only
  rw [Core.ctx_modCtx]
  split
  · simp
  · rename_i e; simp [e]

@[simp] theorem Core.l2_done (k : Core) (t : Nat) (h : Ins) (lat : Nat) (rd : Option Nat) (f : Ctx → Ctx) : (k.done t h lat rd f).l2 = k.l2 := by
  unfold Core.done; simp
@[simp] theorem Core.sb_done (k : Core) (t : Nat) (h : Ins) (lat : Nat) (rd : Option Nat) (f : Ctx → Ctx) : (k.done t h lat rd f).sb = k.sb := by
  unfold Core.done; simp
@[simp] theorem Core.evb_done (k : Core) (t : Nat) (h : Ins) (lat : Nat) (rd : Option Nat) (f : Ctx → Ctx) : (k.done t h lat rd f).evb = k.evb := by
  unfold Core.done; simp

@[simp] theorem Core.ctx_serialDone (k : Core) (t : Nat) (h : Ins) (rd : Option Nat) (f : Ctx → Ctx) (j : Nat) :
    (k.serialDone t h rd f).ctx j = if j = h.ctx then
      { (((f (k.ctx h.ctx).sampled).owe t 1 rd).adv (insLen h)).restart (((f (k.ctx h.ctx).sampled).owe t 1 rd).adv (insLen h)).pc (t + 2) with
        nextIssue := t + 2 } else k.ctx j := by
  unfold Core.serialDone
  dsimp only
  rw [Core.ctx_ev, Core.ctx_modCtx, Core.ctx_done, Core.ctx_done]
  split <;> simp_all

@[simp] theorem Core.l2_serialDone (k : Core) (t : Nat) (h : Ins) (rd : Option Nat) (f : Ctx → Ctx) : (k.serialDone t h rd f).l2 = k.l2 := by
  unfold Core.serialDone; simp
@[simp] theorem Core.sb_serialDone (k : Core) (t : Nat) (h : Ins) (rd : Option Nat) (f : Ctx → Ctx) : (k.serialDone t h rd f).sb = k.sb := by
  unfold Core.serialDone; simp
@[simp] theorem Core.evb_serialDone (k : Core) (t : Nat) (h : Ins) (rd : Option Nat) (f : Ctx → Ctx) : (k.serialDone t h rd f).evb = k.evb := by
  unfold Core.serialDone; simp

@[simp] theorem Core.ctx_transfer (k : Core) (t : Nat) (h : Ins) (target : W64) (rd : Option Nat) (f : Ctx → Ctx) (j : Nat) :
    (k.transfer t h target rd f).ctx j = if j = h.ctx then
      (((f (k.ctx h.ctx).sampled).owe t 1 rd).adv (insLen h)).restart target (t + 2) else k.ctx j := by
  unfold Core.transfer
  dsimp only
  rw [Core.ctx_ev, Core.ctx_modCtx, Core.ctx_done, Core.ctx_done]
  split <;> simp_all

@[simp] theorem Core.l2_transfer (k : Core) (t : Nat) (h : Ins) (a : W64) (rd : Option Nat) (f : Ctx → Ctx) : (k.transfer t h a rd f).l2 = k.l2 := by
  unfold Core.transfer; simp
@[simp] theorem Core.sb_transfer (k : Core) (t : Nat) (h : Ins) (a : W64) (rd : Option Nat) (f : Ctx → Ctx) : (k.transfer t h a rd f).sb = k.sb := by
  unfold Core.transfer; simp
@[simp] theorem Core.evb_transfer (k : Core) (t : Nat) (h : Ins) (a : W64) (rd : Option Nat) (f : Ctx → Ctx) : (k.transfer t h a rd f).evb = k.evb := by
  unfold Core.transfer; simp

@[simp] theorem Core.ctx_takeTrap (k : Core) (i : Nat) (b : Bool) (tr : Trap) (a j : Nat) :
    (k.takeTrap i b tr a).ctx j = if j = i then (k.ctx i).trap b tr a else k.ctx j := by
  unfold Core.takeTrap; rw [Core.ctx_modCtx]; rfl

@[simp] theorem Core.l2_takeTrap (k : Core) (i : Nat) (b : Bool) (tr : Trap) (a : Nat) : (k.takeTrap i b tr a).l2 = k.l2 := rfl
@[simp] theorem Core.sb_takeTrap (k : Core) (i : Nat) (b : Bool) (tr : Trap) (a : Nat) : (k.takeTrap i b tr a).sb = k.sb := rfl
@[simp] theorem Core.evb_takeTrap (k : Core) (i : Nat) (b : Bool) (tr : Trap) (a : Nat) : (k.takeTrap i b tr a).evb = k.evb := rfl

/-- A synchronous trap: the context traps, and its shadow and next issue follow. -/
@[simp] theorem Core.ctx_syncTrap (k : Core) (t : Nat) (h : Ins) (tr : Trap) (a j : Nat) :
    (k.syncTrap t h tr a).ctx j = if j = h.ctx then ((k.ctx h.ctx).sampled.trap false tr a).trapped t a else k.ctx j := by
  unfold Core.syncTrap
  dsimp only
  rw [Core.ctx_modCtx, Core.ctx_takeTrap, Core.ctx_takeTrap]
  split <;> simp_all

@[simp] theorem Core.l2_syncTrap (k : Core) (t : Nat) (h : Ins) (tr : Trap) (a : Nat) : (k.syncTrap t h tr a).l2 = k.l2 := by
  unfold Core.syncTrap; simp
@[simp] theorem Core.sb_syncTrap (k : Core) (t : Nat) (h : Ins) (tr : Trap) (a : Nat) : (k.syncTrap t h tr a).sb = k.sb := by
  unfold Core.syncTrap; simp
@[simp] theorem Core.evb_syncTrap (k : Core) (t : Nat) (h : Ins) (tr : Trap) (a : Nat) : (k.syncTrap t h tr a).evb = k.evb := by
  unfold Core.syncTrap; simp

/-- An instruction that issues has its effect on the state after what issuing uses up. -/
theorem State.issue_issues {s : State} {h : Ins} {q : IssQ} (hi : Issues s h q) (f : State → Nat → State) :
    s.issue h q f = .next (f (s.setCore h.core ((s.core h.core).mark (s.cyc h.core) h q)) (s.cyc h.core)) := by
  unfold State.issue
  simp [hi.1, hi.2]

/-- An instruction that issues and whose effect is on its core alone. -/
theorem State.issueK_issues {s : State} {h : Ins} {q : IssQ} (hi : Issues s h q) (f : Core → Nat → Core) :
    s.issueK h q f = .next ((s.setCore h.core ((s.core h.core).mark (s.cyc h.core) h q)).modCore h.core (fun k => f k (s.cyc h.core))) :=
  s.issue_issues hi _

/-- The state beside the cores is unchanged by a change of a core. -/
theorem sameBesideCores_setCore (s t : State) (c : Nat) (k : Core) (h : SameBesideCores s t) : SameBesideCores s (t.setCore c k) := h
theorem sameBesideCores_modCore (s t : State) (c : Nat) (f : Core → Core) (h : SameBesideCores s t) : SameBesideCores s (t.modCore c f) := h
theorem sameBesideCores_refl (s : State) : SameBesideCores s s := rfl

/-- An instruction whose effect is on its core alone stays in its core. -/
theorem sameBesideCore_issueK (s : State) (h : Ins) (k : Core) (f : Core → Core) : SameBesideCore s ((s.setCore h.core k).modCore h.core f) h.core :=
  ⟨rfl, fun d hd => by simp [hd]⟩

/-- One core is like itself, and likeness carries over. -/
theorem SameBesidePipe.refl (k : Core) : SameBesidePipe k k := rfl
theorem SameBesidePipe.trans {k l m : Core} (h : SameBesidePipe k l) (g : SameBesidePipe l m) : SameBesidePipe k m := by
  unfold SameBesidePipe at *
  rw [← h, ← g]
theorem SameBesideFlow.refl (x : Ctx) : SameBesideFlow x x := rfl
theorem SameBesideFlow.trans {x y z : Ctx} (h : SameBesideFlow x y) (g : SameBesideFlow y z) : SameBesideFlow x z := by
  unfold SameBesideFlow at *
  rw [← h, ← g]

theorem Core.pipe_ev (k : Core) (code i n : Nat) : SameBesidePipe k (k.ev code i n) := rfl
theorem Core.pipe_setCtx (k : Core) (i : Nat) (x : Ctx) : SameBesidePipe k (k.setCtx i x) := rfl
theorem Core.pipe_modCtx (k : Core) (i : Nat) (f : Ctx → Ctx) : SameBesidePipe k (k.modCtx i f) := rfl
theorem Core.pipe_useLane (k : Core) (t lane slot : Nat) : SameBesidePipe k (k.useLane t lane slot) := by
  unfold Core.useLane
  dsimp only
  split <;> split <;> (try split) <;> (try split) <;> (try split) <;> rfl
theorem Core.pipe_mark (k : Core) (t : Nat) (h : Ins) (q : IssQ) : SameBesidePipe k (k.mark t h q) :=
  (k.pipe_useLane t q.lane _).trans rfl
theorem Core.pipe_retired (k : Core) (r : Retire) : SameBesidePipe k (k.retired r) := by
  unfold Core.retired; dsimp only; split <;> rfl
theorem Core.pipe_finish (k : Core) (i : Nat) (pc addr : W64) (raw : BitVec 32) (a b c : Nat) : SameBesidePipe k (k.finish i pc addr raw a b c) := by
  unfold Core.finish
  dsimp only
  refine SameBesidePipe.trans (l := if bit k.mcountinhibit 2 then k else { k with minstret := k.minstret + 1 }) ?_
    ((Core.pipe_ev _ _ _ _).trans (Core.pipe_retired _ _))
  split <;> rfl
theorem Core.pipe_done (k : Core) (t : Nat) (h : Ins) (lat : Nat) (rd : Option Nat) (f : Ctx → Ctx) : SameBesidePipe k (k.done t h lat rd f) :=
  (k.pipe_finish _ _ _ _ _ _ _).trans (Core.pipe_modCtx _ _ _)
theorem Core.pipe_serialDone (k : Core) (t : Nat) (h : Ins) (rd : Option Nat) (f : Ctx → Ctx) : SameBesidePipe k (k.serialDone t h rd f) :=
  (k.pipe_done t h 1 rd f).trans ((Core.pipe_modCtx _ _ _).trans (Core.pipe_ev _ _ _ _))
theorem Core.pipe_transfer (k : Core) (t : Nat) (h : Ins) (a : W64) (rd : Option Nat) (f : Ctx → Ctx) : SameBesidePipe k (k.transfer t h a rd f) :=
  (k.pipe_done t h 1 rd f).trans ((Core.pipe_modCtx _ _ _).trans (Core.pipe_ev _ _ _ _))
theorem Core.pipe_clearResv {k l : Core} (h : SameBesidePipe k l) (i : Nat) : SameBesidePipe (k.clearResv i) (l.clearResv i) := by
  unfold SameBesidePipe at h
  rw [← h]; rfl
/-- A trap changes the reservations of its core as well (R53). -/
theorem Core.pipe_syncTrap (k : Core) (t : Nat) (h : Ins) (tr : Trap) (a : Nat) : SameBesidePipe (k.clearResv h.ctx) (k.syncTrap t h tr a) := by
  unfold Core.syncTrap Core.takeTrap
  refine SameBesidePipe.trans (Core.pipe_clearResv (k.pipe_retired _) h.ctx) ((Core.pipe_modCtx _ _ _).trans (Core.pipe_modCtx _ _ _))

theorem Ctx.flow_marked (x : Ctx) (t : Nat) (h : Ins) : SameBesideFlow x (x.marked t h) := rfl
theorem Ctx.flow_sampled (x : Ctx) : SameBesideFlow x x.sampled := rfl
theorem Ctx.flow_adv (x : Ctx) (n : Nat) : SameBesideFlow x (x.adv n) := rfl
theorem Ctx.flow_restart (x : Ctx) (pc : W64) (a : Nat) : SameBesideFlow x (x.restart pc a) := rfl
theorem Ctx.flow_owe (x : Ctx) (t lat : Nat) (rd : Option Nat) : SameBesideFlow x (x.owe t lat rd) := by
  unfold Ctx.owe; cases rd with
  | none => rfl
  | some r => dsimp only; split <;> rfl
theorem Ctx.flow_setX {x y : Ctx} (h : SameBesideFlow x y) (r : Nat) (v : W64) : SameBesideFlow (x.setX r v) (y.setX r v) := by
  unfold SameBesideFlow at h
  unfold Ctx.setX
  split
  · exact h
  · rw [← h]; rfl
@[simp] theorem Ctx.getX_marked (x : Ctx) (t : Nat) (h : Ins) (r : Nat) : (x.marked t h).getX r = x.getX r := rfl
@[simp] theorem Ctx.getX_sampled (x : Ctx) (r : Nat) : x.sampled.getX r = x.getX r := rfl
@[simp] theorem Ctx.pc_owe (x : Ctx) (t lat : Nat) (rd : Option Nat) : (x.owe t lat rd).pc = x.pc := by
  unfold Ctx.owe; cases rd with
  | none => rfl
  | some r => dsimp only; split <;> rfl
@[simp] theorem Ctx.pc_setX (x : Ctx) (r : Nat) (v : W64) : (x.setX r v).pc = x.pc := by unfold Ctx.setX; split <;> rfl

/-- What an instruction that issues and acts on its core leaves. -/
theorem leavesAs_issueK {s : State} {h : Ins} {q : IssQ} (hi : Issues s h q) {f : Core → Nat → Core} {K : Core} {X : Ctx} {P : State → Prop}
    (h1 : SameOthers (s.core h.core) (f ((s.core h.core).mark (s.cyc h.core) h q) (s.cyc h.core)) h.ctx)
    (h2 : SameBesidePipe K (f ((s.core h.core).mark (s.cyc h.core) h q) (s.cyc h.core)))
    (h3 : SameBesideFlow X ((f ((s.core h.core).mark (s.cyc h.core) h q) (s.cyc h.core)).ctx h.ctx))
    (hp : P ((s.setCore h.core ((s.core h.core).mark (s.cyc h.core) h q)).modCore h.core (fun k => f k (s.cyc h.core)))) :
    ∃ t, s.issueK h q f = .next t ∧ LeavesAs s t h K X ∧ P t := by
  refine ⟨_, State.issueK_issues hi f, ⟨sameBesideCore_issueK _ _ _ _, ?_, ?_, ?_⟩, hp⟩
  · simpa using h1
  · simpa using h2
  · simpa [State.ctx] using h3

@[simp] theorem Core.minstret_ev (k : Core) (code i n : Nat) : (k.ev code i n).minstret = k.minstret := rfl
@[simp] theorem Core.minstret_modCtx (k : Core) (i : Nat) (f : Ctx → Ctx) : (k.modCtx i f).minstret = k.minstret := rfl
theorem Core.minstret_useLane (k : Core) (t lane slot : Nat) :
    (k.useLane t lane slot).minstret = k.minstret ∧ (k.useLane t lane slot).mcountinhibit = k.mcountinhibit := by
  unfold Core.useLane
  dsimp only
  split <;> split <;> (try split) <;> (try split) <;> (try split) <;> exact ⟨rfl, rfl⟩
@[simp] theorem Core.minstret_mark (k : Core) (t : Nat) (h : Ins) (q : IssQ) : (k.mark t h q).minstret = k.minstret := (k.minstret_useLane t q.lane _).1
@[simp] theorem Core.mcountinhibit_mark (k : Core) (t : Nat) (h : Ins) (q : IssQ) : (k.mark t h q).mcountinhibit = k.mcountinhibit :=
  (k.minstret_useLane t q.lane _).2
@[simp] theorem Core.minstret_retired (k : Core) (r : Retire) : (k.retired r).minstret = k.minstret := by unfold Core.retired; dsimp only; split <;> rfl
@[simp] theorem Core.minstret_finish (k : Core) (i : Nat) (pc addr : W64) (raw : BitVec 32) (a b c : Nat) :
    (k.finish i pc addr raw a b c).minstret = k.minstret + (if bit k.mcountinhibit 2 then 0 else 1) := by
  unfold Core.finish; dsimp only; rw [Core.minstret_retired]; split <;> simp [Core.ev]
@[simp] theorem Core.minstret_done (k : Core) (t : Nat) (h : Ins) (lat : Nat) (rd : Option Nat) (f : Ctx → Ctx) :
    (k.done t h lat rd f).minstret = k.minstret + (if bit k.mcountinhibit 2 then 0 else 1) := by
  unfold Core.done; exact Core.minstret_finish _ _ _ _ _ _ _ _
@[simp] theorem Core.minstret_serialDone (k : Core) (t : Nat) (h : Ins) (rd : Option Nat) (f : Ctx → Ctx) :
    (k.serialDone t h rd f).minstret = k.minstret + (if bit k.mcountinhibit 2 then 0 else 1) := by
  unfold Core.serialDone; simp
@[simp] theorem Core.minstret_transfer (k : Core) (t : Nat) (h : Ins) (a : W64) (rd : Option Nat) (f : Ctx → Ctx) :
    (k.transfer t h a rd f).minstret = k.minstret + (if bit k.mcountinhibit 2 then 0 else 1) := by
  unfold Core.transfer; simp

/-- What the pipeline keeps of an instruction that is about to be done: its core as `K` beside the pipeline, the contexts as marked. -/
def Core.About (K k : Core) (G : Core) : Prop :=
  (∀ j, G.ctx j = k.ctx j) ∧ SameBesidePipe K G ∧ G.minstret = k.minstret ∧ G.mcountinhibit = k.mcountinhibit

theorem Core.about_mark (k : Core) (t : Nat) (h : Ins) (q : IssQ) : Core.About k (k.mark t h q) (k.mark t h q) :=
  ⟨fun _ => rfl, k.pipe_mark t h q, rfl, rfl⟩

theorem Ctx.ready_owe (x : Ctx) (t lat rd : Nat) (h : rd ≠ 0) : Tab.get 0 (x.owe t lat (some rd)).regReady rd = t + lat := by
  unfold Ctx.owe; simp [h]

/-- An instruction that issues and is done. -/
theorem doneAs_issueK {s : State} {h : Ins} {q : IssQ} (hi : Issues s h q) {f : Core → Nat → Core} {K G : Core} {X : Ctx} {lat rd : Nat}
    {F : Ctx → Ctx} (hf : f ((s.core h.core).mark (s.cyc h.core) h q) (s.cyc h.core) = G.done (s.cyc h.core) h lat (some rd) F)
    (hG : Core.About K ((s.core h.core).mark (s.cyc h.core) h q) G)
    (hx : SameBesideFlow X (F ((s.ctx h.core h.ctx).marked (s.cyc h.core) h).sampled))
    (hpc : (F ((s.ctx h.core h.ctx).marked (s.cyc h.core) h).sampled).pc = (s.ctx h.core h.ctx).pc) :
    ∃ t, s.issueK h q f = .next t ∧ DoneAs s t h lat rd K X := by
  have hc : ∀ j, G.ctx j = if j = h.ctx then (s.ctx h.core h.ctx).marked (s.cyc h.core) h else (s.core h.core).ctx j := by
    intro j; rw [hG.1]; simp [State.ctx]
  refine leavesAs_issueK hi ?_ ?_ ?_ ⟨?_, ?_, ?_⟩
  · intro j hj; rw [hf]; simp [hj, hc]
  · rw [hf]; exact hG.2.1.trans (Core.pipe_done _ _ _ _ _ _)
  · rw [hf]
    simp only [Core.ctx_done, if_true, hc]
    exact hx.trans ((Ctx.flow_owe _ _ _ _).trans (Ctx.flow_adv _ _))
  · simp only [State.ctx, State.core_modCore, State.core_setCore, if_true, hf, Core.ctx_done, hc, Ctx.adv, Ctx.pc_owe]
    simpa [State.ctx] using hpc
  · intro hr
    simp only [State.ctx, State.core_modCore, State.core_setCore, if_true, hf, Core.ctx_done, hc, Ctx.adv]
    exact Ctx.ready_owe _ _ _ _ hr
  · simp [hf, hG.2.2.1, hG.2.2.2]

/-- An instruction that issues and writes one integer register. -/
theorem doneX_issueK {s : State} {h : Ins} {q : IssQ} (hi : Issues s h q) {f : Core → Nat → Core} {lat rd : Nat} {v : W64} (g : Ctx → W64)
    (hf : ∀ k t, f k t = k.done t h lat (some rd) (fun x => x.setX rd (g x))) (hg : g ((s.ctx h.core h.ctx).marked (s.cyc h.core) h).sampled = v) :
    ∃ t, s.issueK h q f = .next t ∧ DoneIn s t h lat rd ((s.ctx h.core h.ctx).setX rd v) := by
  refine doneAs_issueK (F := fun x => x.setX rd (g x)) hi (hf _ _) (Core.about_mark _ _ _ _) ?_ ?_
  · rw [hg]
    exact Ctx.flow_setX ((Ctx.flow_marked _ _ _).trans (Ctx.flow_sampled _)) rd v
  · rw [Ctx.pc_setX]; rfl

@[simp] theorem Ctx.pc_marked (x : Ctx) (t : Nat) (h : Ins) : (x.marked t h).pc = x.pc := rfl
@[simp] theorem Ctx.pc_sampled (x : Ctx) : x.sampled.pc = x.pc := rfl
@[simp] theorem Ctx.src2_marked (x : Ctx) (t : Nat) (h : Ins) (b : Src2) : (x.marked t h).src2 b = x.src2 b := by cases b <;> rfl
@[simp] theorem Ctx.src2_sampled (x : Ctx) (b : Src2) : x.sampled.src2 b = x.src2 b := by cases b <;> rfl

@[simp] theorem Ctx.setX_zero (x : Ctx) (v : W64) : x.setX 0 v = x := rfl

/-- A transfer that issues. -/
theorem transfersTo_issueK {s : State} {h : Ins} {q : IssQ} (hi : Issues s h q) {f : Core → Nat → Core} {rd : Option Nat} {pc : W64} {X : Ctx}
    {F : Ctx → Ctx} (hf : f ((s.core h.core).mark (s.cyc h.core) h q) (s.cyc h.core) =
      ((s.core h.core).mark (s.cyc h.core) h q).transfer (s.cyc h.core) h pc rd F)
    (hx : SameBesideFlow X (F ((s.ctx h.core h.ctx).marked (s.cyc h.core) h).sampled)) :
    ∃ t, s.issueK h q f = .next t ∧ TransfersTo s t h pc (s.core h.core) X := by
  refine leavesAs_issueK hi ?_ ?_ ?_ ⟨?_, ?_, ?_, ?_, ?_⟩
  · intro j hj; rw [hf]; simp [hj]
  · rw [hf]; exact (Core.pipe_mark _ _ _ _).trans (Core.pipe_transfer _ _ _ _ _ _)
  · rw [hf]
    simp only [Core.ctx_transfer, if_true, Core.ctx_mark]
    exact hx.trans ((Ctx.flow_owe _ _ _ _).trans ((Ctx.flow_adv _ _).trans (Ctx.flow_restart _ _ _)))
  all_goals simp [State.ctx, hf, Ctx.restart]

@[simp] theorem Ctx.pc_setF (x : Ctx) (r : Nat) (v : W64) : (x.setF r v).pc = x.pc := rfl
@[simp] theorem Ctx.pc_accrue (x : Ctx) (n : Nat) : (x.accrue n).pc = x.pc := by unfold Ctx.accrue; split <;> rfl
@[simp] theorem Ctx.getF_marked (x : Ctx) (t : Nat) (h : Ins) (r : Nat) : (x.marked t h).getF r = x.getF r := rfl
@[simp] theorem Ctx.getF_sampled (x : Ctx) (r : Nat) : x.sampled.getF r = x.getF r := rfl
theorem Ctx.flow_fpDirtied {x y : Ctx} (h : SameBesideFlow x y) : SameBesideFlow x.fpDirtied y.fpDirtied := by
  unfold SameBesideFlow at *; rw [← h]; rfl
theorem Ctx.flow_setF {x y : Ctx} (h : SameBesideFlow x y) (r : Nat) (v : W64) : SameBesideFlow (x.setF r v) (y.setF r v) := by
  unfold SameBesideFlow at *; rw [← h]; rfl
theorem Ctx.flow_accrue {x y : Ctx} (h : SameBesideFlow x y) (n : Nat) : SameBesideFlow (x.accrue n) (y.accrue n) := by
  unfold Ctx.accrue; split
  · exact h
  · unfold SameBesideFlow at *; rw [← h]; rfl
theorem Ctx.flow_pc (x : Ctx) (p : W64) : SameBesideFlow x { x with pc := p } := rfl
/-- A context as issuing and finishing leave it. -/
theorem Ctx.flow_ms (x : Ctx) (t : Nat) (h : Ins) : SameBesideFlow x (x.marked t h).sampled := (x.flow_marked t h).trans (Ctx.flow_sampled _)

theorem SameBesidePipe.divu {k l : Core} (h : SameBesidePipe k l) (o : Option UnitOp) : SameBesidePipe { k with divu := o } { l with divu := o } := by
  unfold SameBesidePipe at h; rw [← h]; rfl
theorem SameBesidePipe.fdivu {k l : Core} (h : SameBesidePipe k l) (o : Option UnitOp) : SameBesidePipe { k with fdivu := o } { l with fdivu := o } := by
  unfold SameBesidePipe at h; rw [← h]; rfl
theorem Core.ctx_divu (k : Core) (o : Option UnitOp) (j : Nat) : ({ k with divu := o } : Core).ctx j = k.ctx j := rfl
theorem Core.ctx_fdivu (k : Core) (o : Option UnitOp) (j : Nat) : ({ k with fdivu := o } : Core).ctx j = k.ctx j := rfl

/-- With the FP part in the slot and FS on, an FP instruction issues as any other (R41, R56). -/
theorem State.issueFpS_here (s : State) (h : Ins) (q : IssQ) (f : State → Nat → State) (h1 : (s.ctx h.core h.ctx).fs ≠ 0)
    (h2 : (s.ctx h.core h.ctx).fpHere = true) : s.issueFpS h q f = s.issue h q f := by
  have h1' : ((s.core h.core).ctx h.ctx).fs ≠ 0 := h1
  have h2' : ((s.core h.core).ctx h.ctx).fpHere = true := h2
  unfold State.issueFpS
  simp only [h1', h2', if_true, if_false]
theorem State.issueFp_here (s : State) (h : Ins) (q : IssQ) (f : Core → Nat → Core) (h1 : (s.ctx h.core h.ctx).fs ≠ 0)
    (h2 : (s.ctx h.core h.ctx).fpHere = true) : s.issueFp h q f = s.issueK h q f := s.issueFpS_here h q _ h1 h2
/-- With FS Off it is illegal (R56). -/
theorem State.issueFpS_off (s : State) (h : Ins) (q : IssQ) (f : State → Nat → State) (h1 : (s.ctx h.core h.ctx).fs = 0) :
    s.issueFpS h q f = s.issueK h { q with safe := false } (fun k t => k.illegal t h) := by
  have h1' : ((s.core h.core).ctx h.ctx).fs = 0 := h1
  unfold State.issueFpS
  simp only [h1', if_true]

theorem Ctx.flow_trap {x y : Ctx} (hp : y.pc = x.pc) (h : SameBesideFlow x y) (b : Bool) (tr : Trap) (a : Nat) :
    SameBesideFlow (x.trap b tr a) (y.trap b tr a) := by
  unfold SameBesideFlow at h
  have e : y = { x with
      pc := x.pc, nextIssue := y.nextIssue, iss := y.iss, memFree := y.memFree, shadowEnd := y.shadowEnd, shadowKill := y.shadowKill,
      inflight := y.inflight, regReady := y.regReady, fbuf := y.fbuf, fnext := y.fnext, fmin := y.fmin, fstop := y.fstop, ffault := y.ffault,
      facc := y.facc, tmiss := y.tmiss, wfault := y.wfault, heldHint := y.heldHint, smp := y.smp, sflags := y.sflags } := by
    rw [← h, ← hp]
  rw [e]
  unfold Ctx.trap Ctx.delegated
  by_cases c : (decide (x.prv ≠ .m) && bit (if b then x.mideleg else x.medeleg) tr.cause) = true <;>
  by_cases d : (!b && (tr.cause == 1 || tr.cause == 5 || tr.cause == 7 || tr.cause == 26)) = true <;>
  simp only [c, d, if_true, if_false, Bool.false_eq_true] <;> rfl
theorem Ctx.trap_pc_flow {x y : Ctx} (h : SameBesideFlow x y) (b : Bool) (tr : Trap) (a : Nat) : (y.trap b tr a).pc = (x.trap b tr a).pc := by
  unfold SameBesideFlow at h
  rw [← h]
  unfold Ctx.trap Ctx.delegated
  by_cases c : (decide (y.prv ≠ .m) && bit (if b then y.mideleg else y.medeleg) tr.cause) = true <;>
  by_cases d : (!b && (tr.cause == 1 || tr.cause == 5 || tr.cause == 7 || tr.cause == 26)) = true <;>
  simp only [c, d, if_true, if_false, Bool.false_eq_true] <;> rfl
@[simp] theorem Ctx.fmin_trap (x : Ctx) (b : Bool) (tr : Trap) (a : Nat) : (x.trap b tr a).fmin = a := by
  unfold Ctx.trap Ctx.delegated
  by_cases c : (decide (x.prv ≠ .m) && bit (if b then x.mideleg else x.medeleg) tr.cause) = true <;>
  by_cases d : (!b && (tr.cause == 1 || tr.cause == 5 || tr.cause == 7 || tr.cause == 26)) = true <;>
  simp only [c, d, if_true, if_false, Bool.false_eq_true] <;> rfl
@[simp] theorem Ctx.fbuf_trap (x : Ctx) (b : Bool) (tr : Trap) (a : Nat) : (x.trap b tr a).fbuf = [] := by
  unfold Ctx.trap Ctx.delegated
  by_cases c : (decide (x.prv ≠ .m) && bit (if b then x.mideleg else x.medeleg) tr.cause) = true <;>
  by_cases d : (!b && (tr.cause == 1 || tr.cause == 5 || tr.cause == 7 || tr.cause == 26)) = true <;>
  simp only [c, d, if_true, if_false, Bool.false_eq_true] <;> rfl

theorem Ctx.flow_trapped (x : Ctx) (t a : Nat) : SameBesideFlow x (x.trapped t a) := rfl

/-- An instruction that issues and traps. -/
theorem trapsTo_issueK {s : State} {h : Ins} {q : IssQ} (hi : Issues s h q) {f : Core → Nat → Core} {tr : Trap} {a : Nat}
    (hf : f ((s.core h.core).mark (s.cyc h.core) h q) (s.cyc h.core) = ((s.core h.core).mark (s.cyc h.core) h q).syncTrap (s.cyc h.core) h tr a) :
    ∃ t, s.issueK h q f = .next t ∧ TrapsTo s t h tr a := by
  have hx := Ctx.flow_ms (s.ctx h.core h.ctx) (s.cyc h.core) h
  refine leavesAs_issueK hi ?_ ?_ ?_ ⟨?_, ?_, ?_, ?_⟩
  · intro j hj; rw [hf]; simp [hj]
  · rw [hf]; exact (Core.pipe_clearResv (Core.pipe_mark _ _ _ _) _).trans (Core.pipe_syncTrap _ _ _ _ _)
  · rw [hf, Core.ctx_syncTrap, if_pos rfl, Core.ctx_mark, if_pos rfl]
    have e : (((s.ctx h.core h.ctx).marked (s.cyc h.core) h).sampled).pc = (s.ctx h.core h.ctx).pc := rfl
    exact SameBesideFlow.trans (y := (((s.ctx h.core h.ctx).marked (s.cyc h.core) h).sampled).trap false tr a) (Ctx.flow_trap e hx false tr a)
      (Ctx.flow_trapped _ _ _)
  all_goals
    unfold State.ctx
    rw [State.core_modCore, if_pos rfl, State.core_setCore, if_pos rfl, hf, Core.ctx_syncTrap, if_pos rfl, Core.ctx_mark, if_pos rfl]
  · exact Ctx.trap_pc_flow hx false tr a
  · exact Ctx.fmin_trap _ _ _ _
  · rfl
  · exact Ctx.fbuf_trap _ _ _ _

end Sys2Proof.Machine
end

