-- ==== Sys2Proof/Laws/Kept.lean ====
section
/-! SUPPORT. What every shared operation of the block leaves: the queue, the fuses and the time as they were, and memories in canonical form (`Kept`);
a command built from such operations leaves it too. -/

namespace Sys2Proof.Machine

@[simp] theorem kept_refl (s : State) : Kept s s := ⟨rfl, rfl, rfl, id⟩

theorem Kept.trans {s t u : State} (h : Kept s t) (g : Kept t u) : Kept s u :=
  ⟨g.pending.trans h.pending, g.fuses.trans h.fuses, g.now.trans h.now, fun m => g.mem (h.mem m)⟩

theorem Kept.of {s t u : State} (h : Kept s t) (hp : u.pending = t.pending) (hf : u.ioFuses = t.ioFuses) (hn : u.now = t.now)
    (hd : u.mem.dram = t.mem.dram) (hc : u.mem.chk = t.mem.chk) (hm : u.kiln.mbx = t.kiln.mbx) : Kept s u :=
  ⟨hp.trans h.pending, hf.trans h.fuses, hn.trans h.now, fun m => ⟨hd ▸ (h.mem m).dram, hc ▸ (h.mem m).chk, hm ▸ (h.mem m).mbx⟩⟩

@[simp] theorem kept_ite {s : State} (c : Prop) [Decidable c] (a b : State) (ha : c → Kept s a) (hb : ¬c → Kept s b) : Kept s (if c then a else b) := by
  split
  · exact ha ‹_›
  · exact hb ‹_›

@[simp] theorem kept_foldl {α : Type} {s0 : State} (f : State → α → State) (l : List α) {s : State} (h : Kept s0 s) (hf : ∀ t x, Kept t (f t x)) :
    Kept s0 (l.foldl f s) := by
  induction l generalizing s with
  | nil => exact h
  | cons x l ih => exact ih (h.trans (hf s x))

@[simp] theorem kept_mk {s0 s : State} {x_now : Nat} {x_tb : W64} {x_tbPhase : Nat} {x_fBase : Nat} {x_cs : Tab (Tab (Tab W64))} {x_cores : Tab Core} {x_parts : Tab Part} {x_home : Home} {x_fab : Fab} {x_mem : Mem} {x_reel : Reel} {x_kiln : Kiln} {x_dies : Tab Die} {x_ioFuses : List W64} {x_pwr : Pwr} {x_ep : Ep} {x_dmaCh : Tab DmaCh} {x_dmaEng : Tab DmaEng} {x_pmu : Pmu} {x_rpts : Tab Rpt} {x_pins : Pins} {x_free : Nat} (h : Kept s0 s) (hf : x_ioFuses = s.ioFuses) (hn : x_now = s.now)
    (hd : x_mem.dram = s.mem.dram) (hc : x_mem.chk = s.mem.chk) (hm : x_kiln.mbx = s.kiln.mbx) :
    Kept s0 ⟨s.pending, x_now, x_tb, x_tbPhase, x_fBase, x_cs, x_cores, x_parts, x_home, x_fab, x_mem, x_reel, x_kiln, x_dies, x_ioFuses, x_pwr, x_ep, x_dmaCh, x_dmaEng, x_pmu, x_rpts, x_pins, x_free⟩ := h.of rfl hf hn hd hc hm

@[simp] theorem keptOut_next {s0 s : State} : KeptOut s0 (.next s) ↔ Kept s0 s := ⟨fun ⟨_, h, g⟩ => by cases h; exact g, fun h => ⟨s, rfl, h⟩⟩

@[simp] theorem keptOut_ite {s : State} (c : Prop) [Decidable c] (a b : Out) (ha : c → KeptOut s a) (hb : ¬c → KeptOut s b) : KeptOut s (if c then a else b) := by
  split
  · exact ha ‹_›
  · exact hb ‹_›

theorem kept_foldl_fst {α β : Type} {s0 : State} (f : State × β → α → State × β) (l : List α) {z : State × β} (h : Kept s0 z.1)
    (hf : ∀ z x, Kept z.1 (f z x).1) : Kept s0 (l.foldl f z).1 := by
  induction l generalizing z with
  | nil => exact h
  | cons x l ih => exact ih (h.trans (hf z x))

theorem Kept.of_mem {s t u : State} (h : Kept s t) (hp : u.pending = t.pending) (hf : u.ioFuses = t.ioFuses) (hn : u.now = t.now)
    (hm : t.MemOk → u.MemOk) : Kept s u :=
  ⟨hp.trans h.pending, hf.trans h.fuses, hn.trans h.now, fun m => hm (h.mem m)⟩

theorem Tab.sortedFrom_filter {V : Type} (p : Nat × V → Bool) : ∀ {b : Nat} {m : Tab V}, Tab.sortedFrom b m = true → Tab.sortedFrom b (m.filter p) = true
  | _, [], _ => rfl
  | b, (k, v) :: m, hs => by
    simp only [Tab.sortedFrom, Bool.and_eq_true, decide_eq_true_eq] at hs
    rw [List.filter_cons]
    split
    · simp only [Tab.sortedFrom, Bool.and_eq_true, decide_eq_true_eq]
      exact ⟨hs.1, Tab.sortedFrom_filter p hs.2⟩
    · exact Tab.sortedFrom_filter p (Tab.sortedFrom_mono (by omega) hs.2)

theorem Memory.wf_filter {m : List Host.Cell} (p : Host.Cell → Bool) (h : Memory.wf m = true) : Memory.wf (m.filter p) = true := by
  simp only [Memory.wf, Tab.wf, Bool.and_eq_true, List.all_eq_true] at h ⊢
  exact ⟨Tab.sortedFrom_filter p h.1, fun e he => h.2 e ((List.mem_filter.mp he).1)⟩

theorem Memory.wf_put {m : List Host.Cell} (h : Memory.wf m = true) (a : Nat) (v : Byte) : Memory.wf (Memory.put m a v) = true := Tab.wf_put h a v

theorem Memory.wf_putN : ∀ {m : List Host.Cell} (_ : Memory.wf m = true) (a n v : Nat), Memory.wf (Memory.putN m a n v) = true
  | _, h, _, 0, _ => h
  | _, h, a, n + 1, v => Memory.wf_putN (Memory.wf_put h a _) (a + 1) n (v / 256)


@[simp] theorem rput_kept {s0 s : State} (k i j v) (h : Kept s0 s) : Kept s0 (s.rput k i j v) := by
  unfold State.rput; simp (maxDischargeDepth := 40) [h]
@[simp] theorem fput_kept {s0 s : State} (f i j v) (h : Kept s0 s) : Kept s0 (s.fput f i j v) := by
  unfold State.fput; simp (maxDischargeDepth := 40) [h]
@[simp] theorem fbump_kept {s0 s : State} (f i j n) (h : Kept s0 s) : Kept s0 (s.fbump f i j n) := by
  unfold State.fbump; simp (maxDischargeDepth := 40) [h]
@[simp] theorem rwrite_kept {s0 s : State} (k i j v) (h : Kept s0 s) : Kept s0 (s.rwrite k i j v) := by
  unfold State.rwrite; simp (maxDischargeDepth := 40) [h]
@[simp] theorem setCore_kept {s0 s : State} (c k) (h : Kept s0 s) : Kept s0 (s.setCore c k) := by
  unfold State.setCore; simp (maxDischargeDepth := 40) [h]
@[simp] theorem modCore_kept {s0 s : State} (c f) (h : Kept s0 s) : Kept s0 (s.modCore c f) := by
  unfold State.modCore; simp (maxDischargeDepth := 40) [h]
@[simp] theorem modCtx_kept {s0 s : State} (c i f) (h : Kept s0 s) : Kept s0 (s.modCtx c i f) := by
  unfold State.modCtx; simp (maxDischargeDepth := 40) [h]
@[simp] theorem setMapBit_kept {s0 s : State} (k i n b) (h : Kept s0 s) : Kept s0 (s.setMapBit k i n b) := by
  unfold State.setMapBit; simp (maxDischargeDepth := 40) [h]
@[simp] theorem modPart_kept {s0 s : State} (p f) (h : Kept s0 s) : Kept s0 (s.modPart p f) := by
  unfold State.modPart; simp (maxDischargeDepth := 40) [h]
@[simp] theorem modDie_kept {s0 s : State} (d f) (h : Kept s0 s) : Kept s0 (s.modDie d f) := by
  unfold State.modDie; simp (maxDischargeDepth := 40) [h]
@[simp] theorem send_kept {s0 s : State} (m at_) (h : Kept s0 s) : Kept s0 (s.send m at_) := by
  unfold State.send; simp (maxDischargeDepth := 40) [h]
@[simp] theorem takeMsg_kept {s0 s : State} (m) (h : Kept s0 s) : Kept s0 (s.takeMsg m) := by
  unfold State.takeMsg; simp (maxDischargeDepth := 40) [h]
@[simp] theorem takeFree_kept {s0 s : State} (h : Kept s0 s) : Kept s0 (s.takeFree) := by
  unfold State.takeFree; simp (maxDischargeDepth := 40) [h]
@[simp] theorem issue_kept {s0 s : State} (i q f) (h : Kept s0 s) (hf : ∀ t n, Kept t (f t n)) : KeptOut s0 (s.issue i q f) := by
  unfold State.issue; simp only []; (repeat' split) <;> simp [h]
  exact Kept.trans (setCore_kept _ _ h) (hf _ _)
@[simp] theorem issueK_kept {s0 s : State} (hh q f) (h : Kept s0 s) : KeptOut s0 (s.issueK hh q f) := by
  unfold State.issueK; simp (maxDischargeDepth := 40) [h]
@[simp] theorem issueFpS_kept {s0 s : State} (i q f) (h : Kept s0 s) (hf : ∀ t n, Kept t (f t n)) : KeptOut s0 (s.issueFpS i q f) := by
  unfold State.issueFpS; simp only []; (repeat' split) <;> simp (maxDischargeDepth := 40) [h, hf]
@[simp] theorem issueFp_kept {s0 s : State} (hh q f) (h : Kept s0 s) : KeptOut s0 (s.issueFp hh q f) := by
  unfold State.issueFp; simp (maxDischargeDepth := 40) [h]
@[simp] theorem modRport_kept {s0 s : State} (k f) (h : Kept s0 s) : Kept s0 (s.modRport k f) := by
  unfold State.modRport; simp (maxDischargeDepth := 40) [h]
@[simp] theorem queueOn_kept {s0 s : State} (k m) (h : Kept s0 s) : Kept s0 (s.queueOn k m) := by
  unfold State.queueOn; simp (maxDischargeDepth := 40) [h]
@[simp] theorem reelSend_kept {s0 s : State} (q m) (h : Kept s0 s) : Kept s0 (s.reelSend q m) := by
  unfold State.reelSend; simp only []; (repeat' split) <;> simp (maxDischargeDepth := 40) [h]
@[simp] theorem notify_kept {s0 s : State} (part n) (h : Kept s0 s) : Kept s0 (s.notify part n) := by
  unfold State.notify; split <;> simp (maxDischargeDepth := 40) [h]
@[simp] theorem sendDeliver_kept {s0 s : State} (r hart vec) (h : Kept s0 s) : Kept s0 (s.sendDeliver r hart vec) := by
  unfold State.sendDeliver; split <;> simp (maxDischargeDepth := 40) [h]
@[simp] theorem errBit_kept {s0 s : State} (cls) (h : Kept s0 s) : Kept s0 (s.errBit cls) := by
  unfold State.errBit; simp (maxDischargeDepth := 40) [h]
@[simp] theorem logRaw_kept {s0 s : State} (e) (h : Kept s0 s) : Kept s0 (s.logRaw e).1 := by
  unfold State.logRaw; simp only []; (repeat' split) <;> simp (maxDischargeDepth := 40) [h]
@[simp] theorem routeIdle_kept {s0 s : State} (r) (h : Kept s0 s) : Kept s0 (s.routeIdle r) := by
  unfold State.routeIdle; simp (maxDischargeDepth := 40) [h]
@[simp] theorem tryDeliver_kept {s0 s : State} (r) (h : Kept s0 s) : Kept s0 (s.tryDeliver r).1 := by
  unfold State.tryDeliver; split
  · split <;> simp (maxDischargeDepth := 40) [h]
  · exact h
@[simp] theorem fireCe_kept {s0 s : State} (h : Kept s0 s) : Kept s0 (s.fireCe) := by
  unfold State.fireCe; simp (maxDischargeDepth := 40) [h]
@[simp] theorem logEvent_kept {s0 s : State} (e) (h : Kept s0 s) : Kept s0 (s.logEvent e) := by
  unfold State.logEvent; simp (maxDischargeDepth := 40) [h]
@[simp] theorem routeLost_kept {s0 s : State} (r) (h : Kept s0 s) : Kept s0 (s.routeLost r) := by
  unfold State.routeLost; simp (maxDischargeDepth := 40) [h]
@[simp] theorem redeliver_kept {s0 s : State} (r) (h : Kept s0 s) : Kept s0 (s.redeliver r) := by
  unfold State.redeliver; simp (maxDischargeDepth := 40) [h]
@[simp] theorem fireRoute_kept {s0 s : State} (r) (h : Kept s0 s) : Kept s0 (s.fireRoute r) := by
  unfold State.fireRoute; simp (maxDischargeDepth := 40) [h]
@[simp] theorem sendComplete_kept {s0 s : State} (hart vec) (h : Kept s0 s) : Kept s0 (s.sendComplete hart vec) := by
  unfold State.sendComplete; simp (maxDischargeDepth := 40) [h]
@[simp] theorem emptyCtx_kept {s0 s : State} (c i) (h : Kept s0 s) : Kept s0 (s.emptyCtx c i) := by
  unfold State.emptyCtx; simp (maxDischargeDepth := 40) [h]
@[simp] theorem loseCtx_kept {s0 s : State} (c i structure_) (h : Kept s0 s) : Kept s0 (s.loseCtx c i structure_) := by
  unfold State.loseCtx; simp (maxDischargeDepth := 40) [h]
@[simp] theorem coreCe_kept {s0 s : State} (c structure_) (h : Kept s0 s) : Kept s0 (s.coreCe c structure_) := by
  unfold State.coreCe; simp (maxDischargeDepth := 40) [h]
@[simp] theorem logStores_kept {s0 s : State} (c) (h : Kept s0 s) : Kept s0 (s.logStores c) := by
  unfold State.logStores; simp (maxDischargeDepth := 40) [h]
@[simp] theorem pev_kept {s0 s : State} (kind code idx part n) (h : Kept s0 s) : Kept s0 (s.pev kind code idx part n) := by
  unfold State.pev; simp (maxDischargeDepth := 40) [h]
@[simp] theorem bytes_kept {s0 s : State} (kind idx part a n) (h : Kept s0 s) : Kept s0 (s.bytes kind idx part a n) := by
  unfold State.bytes; simp (maxDischargeDepth := 40) [h]
@[simp] theorem dramStore_kept {s0 s : State} (line d delta) (h : Kept s0 s) : Kept s0 (s.dramStore line d delta) :=
  h.of_mem rfl rfl rfl (fun m => ⟨Memory.wf_putN m.dram _ _ _, Memory.wf_putN m.chk _ _ _, m.mbx⟩)
@[simp] theorem openRow_kept {s0 s : State} (line) (h : Kept s0 s) : Kept s0 (s.openRow line) := by
  unfold State.openRow; simp (maxDischargeDepth := 40) [h]
@[simp] theorem dramEvents_kept {s0 s : State} (line write) (h : Kept s0 s) : Kept s0 (s.dramEvents line write) := by
  unfold State.dramEvents; simp (maxDischargeDepth := 40) [h]
@[simp] theorem dramWrite_kept {s0 s : State} (line d poison) (h : Kept s0 s) : Kept s0 (s.dramWrite line d poison) := by
  unfold State.dramWrite; simp (maxDischargeDepth := 40) [h]
@[simp] theorem setMsc_kept {s0 s : State} (line m) (h : Kept s0 s) : Kept s0 (s.setMsc line m) := by
  unfold State.setMsc; simp (maxDischargeDepth := 40) [h]
@[simp] theorem dropMsc_kept {s0 s : State} (line) (h : Kept s0 s) : Kept s0 (s.dropMsc line) := by
  unfold State.dropMsc; simp (maxDischargeDepth := 40) [h]
@[simp] theorem evictMsc_kept {s0 s : State} (line) (h : Kept s0 s) : Kept s0 (s.evictMsc line) := by
  unfold State.evictMsc; split <;> simp (maxDischargeDepth := 40) [h]
@[simp] theorem mscInstall_kept {s0 s : State} (line d dirty poison) (h : Kept s0 s) : Kept s0 (s.mscInstall line d dirty poison) := by
  unfold State.mscInstall; simp only []; (repeat' split) <;> simp (maxDischargeDepth := 40) [h]
@[simp] theorem trigMatch_kept {s0 s : State} (line) (h : Kept s0 s) : Kept s0 (s.trigMatch line) := by
  unfold State.trigMatch; simp (maxDischargeDepth := 40) [h]
@[simp] theorem mscWrite_kept {s0 s : State} (line d poison) (h : Kept s0 s) : Kept s0 (s.mscWrite line d poison) := by
  unfold State.mscWrite; simp (maxDischargeDepth := 40) [h]
@[simp] theorem poisonLine_kept {s0 s : State} (line lost) (h : Kept s0 s) : Kept s0 (s.poisonLine line lost) := by
  unfold State.poisonLine; simp (maxDischargeDepth := 40) [h]
@[simp] theorem eccCount_kept {s0 s : State} (line d patrol) (h : Kept s0 s) : Kept s0 (s.eccCount line d patrol) := by
  unfold State.eccCount; split <;> simp (maxDischargeDepth := 40) [h]
@[simp] theorem modSlice_kept {s0 s : State} (n f) (h : Kept s0 s) : Kept s0 (s.modSlice n f) := by
  unfold State.modSlice; simp (maxDischargeDepth := 40) [h]
@[simp] theorem dupDel_kept {s0 s : State} (line core) (h : Kept s0 s) : Kept s0 (s.dupDel line core) := by
  unfold State.dupDel; simp (maxDischargeDepth := 40) [h]
@[simp] theorem dupSet_kept {s0 s : State} (line core m way) (h : Kept s0 s) : Kept s0 (s.dupSet line core m way) := by
  unfold State.dupSet; simp (maxDischargeDepth := 40) [h]
@[simp] theorem setVec_kept {s0 s : State} (line v) (h : Kept s0 s) : Kept s0 (s.setVec line v) := by
  unfold State.setVec; simp only []; split <;> simp (maxDischargeDepth := 40) [h]
@[simp] theorem countTrk_kept {s0 s : State} (sl) (h : Kept s0 s) : Kept s0 (s.countTrk sl) := by
  unfold State.countTrk; simp (maxDischargeDepth := 40) [h]
@[simp] theorem modTrk_kept {s0 s : State} (n line f) (h : Kept s0 s) : Kept s0 (s.modTrk n line f) := by
  unfold State.modTrk; simp (maxDischargeDepth := 40) [h]
@[simp] theorem respond_kept {s0 s : State} (r kind op launch data status val) (h : Kept s0 s) : Kept s0 (s.respond r kind op launch data status val) := by
  unfold State.respond; simp (maxDischargeDepth := 40) [h]
@[simp] theorem sendLong_kept {s0 s : State} (n t launch) (h : Kept s0 s) : Kept s0 (s.sendLong n t launch) := by
  unfold State.sendLong; simp (maxDischargeDepth := 40) [h]
@[simp] theorem closeAt_kept {s0 s : State} (n line f) (h : Kept s0 s) : Kept s0 (s.closeAt n line f) := by
  unfold State.closeAt; split <;> simp (maxDischargeDepth := 40) [h]
@[simp] theorem tidy_kept {s0 s : State} (n) (h : Kept s0 s) : Kept s0 (s.tidy n) := by
  unfold State.tidy; simp (maxDischargeDepth := 40) [h]
@[simp] theorem snoop_kept {s0 s : State} (n line core inv launch) (h : Kept s0 s) : Kept s0 (s.snoop n line core inv launch) := by
  unfold State.snoop; simp (maxDischargeDepth := 40) [h]
@[simp] theorem grantTo_kept {s0 s : State} (r m) (h : Kept s0 s) : Kept s0 (s.grantTo r m) := by
  unfold State.grantTo; simp (maxDischargeDepth := 40) [h]
@[simp] theorem refuse_kept {s0 s : State} (n t launch reason) (h : Kept s0 s) : Kept s0 (s.refuse n t launch reason) := by
  unfold State.refuse; simp (maxDischargeDepth := 40) [h]
@[simp] theorem grantDone_kept {s0 s : State} (n line f) (h : Kept s0 s) : Kept s0 (s.grantDone n line f) := by
  unfold State.grantDone; simp (maxDischargeDepth := 40) [h]
@[simp] theorem farWrite_kept {s0 s : State} (line d) (h : Kept s0 s) : Kept s0 (s.farWrite line d) := by
  unfold State.farWrite; split <;> simp (maxDischargeDepth := 40) [h]
@[simp] theorem grantNow_kept {s0 s : State} (n line launch t) (h : Kept s0 s) : Kept s0 (s.grantNow n line launch t) := by
  unfold State.grantNow; cases t.data <;> simp (maxDischargeDepth := 40) [h]
@[simp] theorem tryGrant_kept {s0 s : State} (n line launch) (h : Kept s0 s) : Kept s0 (s.tryGrant n line launch) := by
  unfold State.tryGrant; split <;> simp (maxDischargeDepth := 40) [h]
@[simp] theorem snoopRemote_kept {s0 s : State} (n line) (h : Kept s0 s) : Kept s0 (s.snoopRemote n line) := by
  unfold State.snoopRemote; split <;> simp (maxDischargeDepth := 40) [h]
@[simp] theorem startDram_kept {s0 s : State} (n t) (h : Kept s0 s) : Kept s0 (s.startDram n t) := by
  have k := openRow_kept t.req.line (dramEvents_kept t.req.line false (sendLong_kept n t (s.fcyc + 1) h))
  unfold State.startDram; dsimp only
  generalize ((s.sendLong n t (s.fcyc + 1)).dramEvents t.req.line false).openRow t.req.line = u at k
  exact modTrk_kept _ _ _ (k.of rfl rfl rfl rfl rfl rfl)
@[simp] theorem lookupGrant_kept {s0 s : State} (n t f) (h : Kept s0 s) : Kept s0 (s.lookupGrant n t f) := by
  unfold State.lookupGrant; simp (maxDischargeDepth := 40) [h]
@[simp] theorem lookupData_kept {s0 s : State} (n t) (h : Kept s0 s) : Kept s0 (s.lookupData n t) := by
  unfold State.lookupData; simp only []; (repeat' split) <;> simp (maxDischargeDepth := 40) [h]
@[simp] theorem lookupHome_kept {s0 s : State} (n t) (h : Kept s0 s) : Kept s0 (s.lookupHome n t) := by
  unfold State.lookupHome; simp only []; (repeat' split) <;> simp_all (maxDischargeDepth := 40)
@[simp] theorem lookupRemote_kept {s0 s : State} (n t) (h : Kept s0 s) : Kept s0 (s.lookupRemote n t) := by
  unfold State.lookupRemote; simp (maxDischargeDepth := 40) [h]
@[simp] theorem lookup_kept {s0 s : State} (n t) (h : Kept s0 s) : Kept s0 (s.lookup n t) := by
  unfold State.lookup; simp (maxDischargeDepth := 40) [h]
@[simp] theorem writeReleased_kept {s0 s : State} (n m) (h : Kept s0 s) : Kept s0 (s.writeReleased n m) := by
  unfold State.writeReleased; simp (maxDischargeDepth := 40) [h]
@[simp] theorem flushWbuf_kept {s0 s : State} (n line) (h : Kept s0 s) : Kept s0 (s.flushWbuf n line) := by
  unfold State.flushWbuf; simp (maxDischargeDepth := 40) [h]
@[simp] theorem remoteAnswer_kept {s0 s : State} (n t) (h : Kept s0 s) : Kept s0 (s.remoteAnswer n t) := by
  unfold State.remoteAnswer; simp (maxDischargeDepth := 40) [h]
@[simp] theorem copyEnds_kept {s0 s : State} (n line core data poison answer) (h : Kept s0 s) : Kept s0 (s.copyEnds n line core data poison answer) := by
  unfold State.copyEnds; simp (maxDischargeDepth := 40) [h]
@[simp] theorem forwardRelease_kept {s0 s : State} (n m) (h : Kept s0 s) : Kept s0 (s.forwardRelease n m) := by
  unfold State.forwardRelease; simp (maxDischargeDepth := 40) [h]
@[simp] theorem settle_kept {s0 s : State} (n line) (h : Kept s0 s) : Kept s0 (s.settle n line) := by
  unfold State.settle; split <;> simp (maxDischargeDepth := 40) [h]
@[simp] theorem loseHolder_kept {s0 s : State} (d e) (h : Kept s0 s) : Kept s0 (s.loseHolder d e) := by
  unfold State.loseHolder; simp (maxDischargeDepth := 40) [h]
@[simp] theorem sliceLoses_kept {s0 s : State} (d n) (h : Kept s0 s) : Kept s0 (s.sliceLoses d n) := by
  unfold State.sliceLoses; simp (maxDischargeDepth := 40) [h]
@[simp] theorem loseCore_kept {s0 s : State} (c) (h : Kept s0 s) : Kept s0 (s.loseCore c) := by
  unfold State.loseCore; simp (maxDischargeDepth := 40) [h]
@[simp] theorem fenceDie_kept {s0 s : State} (d cause) (h : Kept s0 s) : Kept s0 (s.fenceDie d cause) := by
  unfold State.fenceDie; simp (maxDischargeDepth := 40) [h]
@[simp] theorem fenceCore_kept {s0 s : State} (c) (h : Kept s0 s) : Kept s0 (s.fenceCore c) := by
  unfold State.fenceCore; simp (maxDischargeDepth := 40) [h]
@[simp] theorem newId_kept {s0 s : State} (h : Kept s0 s) : Kept s0 (s.newId).2 := by
  unfold State.newId; simp (maxDischargeDepth := 40) [h]
@[simp] theorem ncSend_kept {s0 s : State} (agent use write pa len val poison way) (h : Kept s0 s) : Kept s0 (s.ncSend agent use write pa len val poison way).2 := by
  unfold State.ncSend; simp only []; split <;> simp (maxDischargeDepth := 40) [h]
@[simp] theorem devSend_kept {s0 s : State} (who pa sz write val) (h : Kept s0 s) : Kept s0 (s.devSend who pa sz write val).2 := by
  unfold State.devSend; simp (maxDischargeDepth := 40) [h]
@[simp] theorem directSend_kept {s0 s : State} (c i pa sz write val) (h : Kept s0 s) : Kept s0 (s.directSend c i pa sz write val) := by
  unfold State.directSend; simp (maxDischargeDepth := 40) [h]
@[simp] theorem devDone_kept {s0 s : State} (id status rdata) (h : Kept s0 s) : Kept s0 (s.devDone id status rdata) := by
  unfold State.devDone; simp (maxDischargeDepth := 40) [h]
@[simp] theorem ctlWrite_kept {s0 s : State} (q off sz v f) (h : Kept s0 s) (hf : ∀ t, Kept t (f t)) : KeptOut s0 (s.ctlWrite q off sz v f) := by
  unfold State.ctlWrite; (repeat' split) <;> simp [h, h.trans (hf s)]
@[simp] theorem regWrite_kept {s0 s : State} (q k i j v f) (h : Kept s0 s) (hf : ∀ t, Kept t (f t)) : KeptOut s0 (s.regWrite q k i j v f) := by
  unfold State.regWrite; split
  · exact ctlWrite_kept _ _ _ _ _ h hf
  · simp [h]
@[simp] theorem meetErr_kept {s0 s : State} (c i line e) (h : Kept s0 s) : Kept s0 (s.meetErr c i line e).1 := by
  unfold State.meetErr; simp only []; (repeat' split) <;> simp (maxDischargeDepth := 40) [h]
@[simp] theorem loadGo_kept {s0 s : State} (t hh m rd va pa mt e) (h : Kept s0 s) : Kept s0 (s.loadGo t hh m rd va pa mt e) := by
  unfold State.loadGo; simp only []; (repeat' split) <;> simp (maxDischargeDepth := 40) [h]
@[simp] theorem storeGo_kept {s0 s : State} (t hh sz va pa mt fp v) (h : Kept s0 s) : Kept s0 (s.storeGo t hh sz va pa mt fp v) := by
  unfold State.storeGo; simp (maxDischargeDepth := 40) [h]
@[simp] theorem issueDrained_kept {s0 s : State} (i q f) (h : Kept s0 s) (hf : ∀ t n, Kept t (f t n)) : KeptOut s0 (s.issueDrained i q f) := by
  unfold State.issueDrained; simp only []; split
  · exact issue_kept _ _ _ h (fun t n => (modCtx_kept _ _ _ (kept_refl t)).trans (hf _ n))
  · split <;> simp [h]
@[simp] theorem accGo_kept {s0 s : State} (t i a) (h : Kept s0 s) : Kept s0 (s.accGo t i a) := by
  unfold State.accGo; simp (maxDischargeDepth := 40) [h]
theorem check_kept {s0 s u : State} (t i old kind va size atomic misaligned) (h : Kept s0 s)
    (e : s.check t i old kind va size atomic misaligned = .stop u) : Kept s0 u := by
  revert e; unfold State.check; simp only []
  (repeat' split) <;> intro e <;> first | (injection e with e; subst e; simp (maxDischargeDepth := 40) [h]) | contradiction
@[simp] theorem cbom_kept {s0 s : State} (i op lo len rs1) (h : Kept s0 s) : KeptOut s0 (s.cbom i op lo len rs1) := by
  unfold State.cbom; simp only []; split
  · simp [h]
  · refine issueDrained_kept _ _ _ h (fun t n => ?_)
    split
    · rename_i e; exact check_kept _ _ _ _ _ _ _ _ (kept_refl t) e
    · simp
@[simp] theorem up_kept {s0 s : State} (m line) (h : Kept s0 s) : Kept s0 (s.up m line) := by
  unfold State.up; simp (maxDischargeDepth := 40) [h]
@[simp] theorem evictL2_kept {s0 s : State} (c line l) (h : Kept s0 s) : Kept s0 (s.evictL2 c line l) := by
  unfold State.evictL2; simp (maxDischargeDepth := 40) [h]
theorem makeRoom_kept {s0 s : State} (c line) {r : State × Nat} (h : Kept s0 s) (e : s.makeRoom c line = some r) : Kept s0 r.1 := by
  revert e; unfold State.makeRoom; simp only []; (repeat' split) <;> (intro e; cases e) <;> simp [h]
@[simp] theorem request_kept {s0 s : State} (c m kind way) (h : Kept s0 s) : Kept s0 (s.request c m kind way) := by
  unfold State.request; simp (maxDischargeDepth := 40) [h]
@[simp] theorem cboWb_kept {s0 s : State} (c m l) (h : Kept s0 s) : Kept s0 (s.cboWb c m l) := by
  unfold State.cboWb; simp (maxDischargeDepth := 40) [h]
@[simp] theorem setUsed_kept {s0 s : State} (d p n v) (h : Kept s0 s) : Kept s0 (s.setUsed d p n v) := by
  unfold State.setUsed; simp (maxDischargeDepth := 40) [h]
@[simp] theorem answer_kept {s0 s : State} (c line data keep poison byway) (h : Kept s0 s) : Kept s0 (s.answer c line data keep poison byway) := by
  unfold State.answer; simp (maxDischargeDepth := 40) [h]
@[simp] theorem takeSnoop_kept {s0 s : State} (c line inv m) (h : Kept s0 s) : Kept s0 (s.takeSnoop c line inv m) := by
  unfold State.takeSnoop; simp only []; (repeat' split) <;> simp (maxDischargeDepth := 40) [h]
@[simp] theorem takeByway_kept {s0 s : State} (c m) (h : Kept s0 s) : Kept s0 (s.takeByway c m) := by
  unfold State.takeByway; split <;> simp (maxDischargeDepth := 40) [h]
@[simp] theorem spawnReply_kept {s0 s : State} (m v) (h : Kept s0 s) : Kept s0 (s.spawnReply m v) := by
  unfold State.spawnReply; split <;> simp (maxDischargeDepth := 40) [h]
@[simp] theorem xltbasePut_kept {s0 s : State} (c i v) (h : Kept s0 s) : Kept s0 (s.xltbasePut c i v) := by
  unfold State.xltbasePut; simp only []; (repeat' split) <;> simp (maxDischargeDepth := 40) [h]
@[simp] theorem shootLocal_kept {s0 s : State} (p tag from_ v far) (h : Kept s0 s) : Kept s0 (s.shootLocal p tag from_ v far) := by
  unfold State.shootLocal; simp (maxDischargeDepth := 40) [h]
@[simp] theorem xltinvPut_kept {s0 s : State} (c i v) (h : Kept s0 s) : Kept s0 (s.xltinvPut c i v) := by
  unfold State.xltinvPut; simp (maxDischargeDepth := 40) [h]
@[simp] theorem postHere_kept {s0 s : State} (c i vec part) (h : Kept s0 s) : Kept s0 (s.postHere c i vec part) := by
  unfold State.postHere; simp (maxDischargeDepth := 40) [h]
@[simp] theorem postPut_kept {s0 s : State} (c v) (h : Kept s0 s) : Kept s0 (s.postPut c v) := by
  unfold State.postPut; simp only []; split <;> simp (maxDischargeDepth := 40) [h]
@[simp] theorem eoiPut_kept {s0 s : State} (c i v) (h : Kept s0 s) : Kept s0 (s.eoiPut c i v) := by
  unfold State.eoiPut; simp (maxDischargeDepth := 40) [h]
@[simp] theorem inhibitPut_kept {s0 s : State} (c v) (h : Kept s0 s) : Kept s0 (s.inhibitPut c v) := by
  unfold State.inhibitPut; simp (maxDischargeDepth := 40) [h]
@[simp] theorem csrPut_kept {s0 s : State} (c i csr v ones) (h : Kept s0 s) : Kept s0 (s.csrPut c i csr v ones) := by
  unfold State.csrPut; simp only []; (repeat' split) <;> simp (maxDischargeDepth := 40) [h]
@[simp] theorem csrDo_kept {s0 s : State} (hh op csr rd src) (h : Kept s0 s) : KeptOut s0 (s.csrDo hh op csr rd src) := by
  unfold State.csrDo; simp (maxDischargeDepth := 40) [h]
@[simp] theorem routeComplete_kept {s0 s : State} (r) (h : Kept s0 s) : Kept s0 (s.routeComplete r) := by
  unfold State.routeComplete; simp (maxDischargeDepth := 40) [h]
@[simp] theorem routePut_kept {s0 s : State} (r v) (h : Kept s0 s) : Kept s0 (s.routePut r v) := by
  unfold State.routePut; simp (maxDischargeDepth := 40) [h]
@[simp] theorem doorbellLost_kept {s0 s : State} (r part) (h : Kept s0 s) : Kept s0 (s.doorbellLost r part) := by
  unfold State.doorbellLost; simp (maxDischargeDepth := 40) [h]
@[simp] theorem msiPut_kept {s0 s : State} (v port) (h : Kept s0 s) : Kept s0 (s.msiPut v port) := by
  unfold State.msiPut; simp (maxDischargeDepth := 40) [h]
@[simp] theorem clearRoutes_kept {s0 s : State} (p) (h : Kept s0 s) : Kept s0 (s.clearRoutes p) := by
  unfold State.clearRoutes; simp (maxDischargeDepth := 40) [h]
@[simp] theorem shootEnd_kept {s0 s : State} (tag from_) (h : Kept s0 s) : Kept s0 (s.shootEnd tag from_) := by
  unfold State.shootEnd; split <;> simp (maxDischargeDepth := 40) [h]
@[simp] theorem kmod_kept {s0 s : State} (id f) (h : Kept s0 s) : Kept s0 (s.kmod id f) := by
  unfold State.kmod; simp (maxDischargeDepth := 40) [h]
@[simp] theorem krelaySend_kept {s0 s : State} (q k) (h : Kept s0 s) : Kept s0 (s.krelaySend q k) := by
  unfold State.krelaySend; simp (maxDischargeDepth := 40) [h]
@[simp] theorem kfinish_kept {s0 s : State} (c pkt) (h : Kept s0 s) : Kept s0 (s.kfinish c pkt) := by
  unfold State.kfinish; split <;> simp (maxDischargeDepth := 40) [h]
@[simp] theorem kgather_kept {s0 s : State} (c) (h : Kept s0 s) : Kept s0 (s.kgather c) := by
  unfold State.kgather; simp only []; (repeat' split) <;> simp (maxDischargeDepth := 40) [h]
@[simp] theorem partReason_kept {s0 s : State} (c status) (h : Kept s0 s) : Kept s0 (s.partReason c status) := by
  unfold State.partReason; simp (maxDischargeDepth := 40) [h]
@[simp] theorem kreply_kept {s0 s : State} (id status result more) (h : Kept s0 s) : Kept s0 (s.kreply id status result more) := by
  unfold State.kreply; split <;> simp (maxDischargeDepth := 40) [h]
@[simp] theorem krelayCmd_kept {s0 s : State} (c q pkt here) (h : Kept s0 s) : Kept s0 (s.krelayCmd c q pkt here) := by
  unfold State.krelayCmd; simp (maxDischargeDepth := 40) [h]
@[simp] theorem kaccept_kept {s0 s : State} (src pkt) (h : Kept s0 s) : Kept s0 (s.kaccept src pkt) := by
  unfold State.kaccept; simp (maxDischargeDepth := 40) [h]
@[simp] theorem kreplied_kept {s0 s : State} (rid pkt) (h : Kept s0 s) : Kept s0 (s.kreplied rid pkt) := by
  unfold State.kreplied; simp only []; (repeat' split) <;> simp (maxDischargeDepth := 40) [h]
@[simp] theorem krun_kept {s0 s : State} (id op f) (h : Kept s0 s) (hf : ∀ c t, Kept t (f c t)) : KeptOut s0 (s.krun id op f) := by
  unfold State.krun; split
  · simp [h.trans (hf _ s)]
  · simp [h]
@[simp] theorem krunning_kept {s0 s : State} (id acc) (h : Kept s0 s) : Kept s0 (s.krunning id acc) := by
  unfold State.krunning; simp (maxDischargeDepth := 40) [h]
@[simp] theorem vecsLose_kept {s0 s : State} (r) (h : Kept s0 s) : Kept s0 (s.vecsLose r) := by
  unfold State.vecsLose; simp (maxDischargeDepth := 40) [h]
@[simp] theorem trkLoses_kept {s0 s : State} (n r t) (h : Kept s0 s) : Kept s0 (s.trkLoses n r t) := by
  unfold State.trkLoses; simp (maxDischargeDepth := 40) [h]
@[simp] theorem sliceLosesPkg_kept {s0 s : State} (r n) (h : Kept s0 s) : Kept s0 (s.sliceLosesPkg r n) := by
  unfold State.sliceLosesPkg; simp (maxDischargeDepth := 40) [h]
@[simp] theorem relaysLose_kept {s0 s : State} (r) (h : Kept s0 s) : Kept s0 (s.relaysLose r) := by
  unfold State.relaysLose; refine kept_foldl _ _ h (fun t x => ?_); split <;> simp (maxDischargeDepth := 40)
@[simp] theorem spawnsLose_kept {s0 s : State} (r) (h : Kept s0 s) : Kept s0 (s.spawnsLose r) := by
  unfold State.spawnsLose; refine kept_foldl _ _ h (fun t x => kept_foldl _ _ (kept_refl t) (fun u y => ?_))
  (repeat' split) <;> simp (maxDischargeDepth := 40)
@[simp] theorem ncLoses_kept {s0 s : State} (r) (h : Kept s0 s) : Kept s0 (s.ncLoses r) := by
  unfold State.ncLoses; simp (maxDischargeDepth := 40) [h]
@[simp] theorem partsLose_kept {s0 s : State} (r) (h : Kept s0 s) : Kept s0 (s.partsLose r) := by
  unfold State.partsLose; simp (maxDischargeDepth := 40) [h]
@[simp] theorem routesLose_kept {s0 s : State} (r) (h : Kept s0 s) : Kept s0 (s.routesLose r) := by
  unfold State.routesLose; simp (maxDischargeDepth := 40) [h]
@[simp] theorem linksDown_kept {s0 s : State} (r reason) (h : Kept s0 s) : Kept s0 (s.linksDown r reason) := by
  unfold State.linksDown; refine kept_foldl _ _ h (fun t x => ?_); split <;> simp (maxDischargeDepth := 40)
@[simp] theorem losePackage_kept {s0 s : State} (r) (h : Kept s0 s) : Kept s0 (s.losePackage r) := by
  unfold State.losePackage; simp (maxDischargeDepth := 40) [h]
@[simp] theorem tellExpel_kept {s0 s : State} (x) (h : Kept s0 s) : Kept s0 (s.tellExpel x) := by
  unfold State.tellExpel; simp (maxDischargeDepth := 40) [h]
@[simp] theorem expelSelf_kept {s0 s : State} (h : Kept s0 s) : Kept s0 (s.expelSelf) := by
  unfold State.expelSelf; simp (maxDischargeDepth := 40) [h]
@[simp] theorem expelled_kept {s0 s : State} (x) (h : Kept s0 s) : Kept s0 (s.expelled x) := by
  unfold State.expelled; simp (maxDischargeDepth := 40) [h]
@[simp] theorem decideExpel_kept {s0 s : State} (x) (h : Kept s0 s) : Kept s0 (s.decideExpel x) := by
  unfold State.decideExpel; simp (maxDischargeDepth := 40) [h]
@[simp] theorem bundleFailed_kept {s0 s : State} (q) (h : Kept s0 s) : Kept s0 (s.bundleFailed q) := by
  unfold State.bundleFailed; simp only []; (repeat' split) <;> simp (maxDischargeDepth := 40) [h]
@[simp] theorem linkFail_kept {s0 s : State} (k reason) (h : Kept s0 s) : Kept s0 (s.linkFail k reason) := by
  unfold State.linkFail; split <;> simp (maxDischargeDepth := 40) [h]
@[simp] theorem bundleTimeout_kept {s0 s : State} (q) (h : Kept s0 s) : Kept s0 (s.bundleTimeout q) := by
  unfold State.bundleTimeout; simp (maxDischargeDepth := 40) [h]
@[simp] theorem fatal_kept {s0 s : State} (structure_ kind idx) (h : Kept s0 s) : Kept s0 (s.fatal structure_ kind idx) := by
  unfold State.fatal; simp (maxDischargeDepth := 40) [h]
@[simp] theorem startRemoval_kept {s0 s : State} (base n) (h : Kept s0 s) : Kept s0 (s.startRemoval base n) := by
  unfold State.startRemoval; simp (maxDischargeDepth := 40) [h]
@[simp] theorem flushMsc_kept {s0 s : State} (base n) (h : Kept s0 s) : Kept s0 (s.flushMsc base n) := by
  unfold State.flushMsc; simp (maxDischargeDepth := 40) [h]
@[simp] theorem pageLog_kept {s0 s : State} (page what) (h : Kept s0 s) : Kept s0 (s.pageLog page what) := by
  unfold State.pageLog; simp (maxDischargeDepth := 40) [h]
@[simp] theorem installRetired_kept {s0 s : State} (page tag) (h : Kept s0 s) : Kept s0 (s.installRetired page tag) := by
  unfold State.installRetired; simp (maxDischargeDepth := 40) [h]
@[simp] theorem finishRemovals_kept {s0 s : State} (h : Kept s0 s) : Kept s0 (s.finishRemovals) := by
  unfold State.finishRemovals; simp (maxDischargeDepth := 40) [h]
@[simp] theorem startRetire_kept {s0 s : State} (page tag) (h : Kept s0 s) : Kept s0 (s.startRetire page tag) := by
  unfold State.startRetire; simp (maxDischargeDepth := 40) [h]
@[simp] theorem pageDue_kept {s0 s : State} (page) (h : Kept s0 s) : Kept s0 (s.pageDue page) := by
  unfold State.pageDue; simp (maxDischargeDepth := 40) [h]
@[simp] theorem setMark_kept {s0 s : State} (mc sub rank dev) (h : Kept s0 s) : Kept s0 (s.setMark mc sub rank dev) := by
  unfold State.setMark; simp (maxDischargeDepth := 40) [h]
@[simp] theorem deviceDue_kept {s0 s : State} (line dev) (h : Kept s0 s) : Kept s0 (s.deviceDue line dev) := by
  unfold State.deviceDue; simp (maxDischargeDepth := 40) [h]
@[simp] theorem deviceEvents_kept {s0 s : State} (line d) (h : Kept s0 s) : Kept s0 (s.deviceEvents line d) := by
  unfold State.deviceEvents; simp (maxDischargeDepth := 40) [h]
@[simp] theorem pageEvent_kept {s0 s : State} (line) (h : Kept s0 s) : Kept s0 (s.pageEvent line) := by
  unfold State.pageEvent; simp (maxDischargeDepth := 40) [h]
@[simp] theorem readOutcome_kept {s0 s : State} (line d patrol) (h : Kept s0 s) : Kept s0 (s.readOutcome line d patrol) := by
  unfold State.readOutcome; split <;> simp (maxDischargeDepth := 40) [h]
theorem arrive_kept {s0 s t : State} (n m) (h : Kept s0 s) (e : s.arrive n m = some t) : Kept s0 t := by
  revert e; unfold State.arrive; (repeat' split) <;> (intro e; cases e) <;> simp [h]
@[simp] theorem reqArrives_kept {s0 s : State} (n k) (h : Kept s0 s) : KeptOut s0 (s.reqArrives n k) := by
  unfold State.reqArrives; split
  · simp [h]
  · rename_i m _
    cases e : s.arrive n m with
    | none => simp [h]
    | some t => simp [arrive_kept n m h e]
@[simp] theorem ackRelease_kept {s0 s : State} (n m) (h : Kept s0 s) : Kept s0 (s.ackRelease n m) := by
  unfold State.ackRelease; simp (maxDischargeDepth := 40) [h]
@[simp] theorem storeReleased_kept {s0 s : State} (n m) (h : Kept s0 s) : Kept s0 (s.storeReleased n m) := by
  unfold State.storeReleased; simp (maxDischargeDepth := 40) [h]
@[simp] theorem releaseWb_kept {s0 s : State} (n m) (h : Kept s0 s) : Kept s0 (s.releaseWb n m) := by
  unfold State.releaseWb; split <;> simp (maxDischargeDepth := 40) [h]
@[simp] theorem releaseEvc_kept {s0 s : State} (n m) (h : Kept s0 s) : Kept s0 (s.releaseEvc n m) := by
  unfold State.releaseEvc; simp (maxDischargeDepth := 40) [h]
@[simp] theorem redoLookup_kept {s0 s : State} (n line) (h : Kept s0 s) : Kept s0 (s.redoLookup n line) := by
  unfold State.redoLookup; split <;> simp (maxDischargeDepth := 40) [h]
@[simp] theorem rcAnswered_kept {s0 s : State} (n line core) (h : Kept s0 s) : Kept s0 (s.rcAnswered n line core) := by
  unfold State.rcAnswered; simp (maxDischargeDepth := 40) [h]
@[simp] theorem takeSnpData_kept {s0 s : State} (n m) (h : Kept s0 s) : Kept s0 (s.takeSnpData n m) := by
  unfold State.takeSnpData; split <;> simp (maxDischargeDepth := 40) [h]
@[simp] theorem recoverDup_kept {s0 s : State} (n line core set way) (h : Kept s0 s) : Kept s0 (s.recoverDup n line core set way) := by
  unfold State.recoverDup; simp (maxDischargeDepth := 40) [h]
@[simp] theorem recoverDir_kept {s0 s : State} (n line) (h : Kept s0 s) : Kept s0 (s.recoverDir n line) := by
  unfold State.recoverDir; simp only []; split <;> simp (maxDischargeDepth := 40) [h]
@[simp] theorem homeErr_kept {s0 s : State} (n line e) (h : Kept s0 s) : Kept s0 (s.homeErr n line e).1 := by
  unfold State.homeErr; (repeat' split) <;> simp (maxDischargeDepth := 40) [h]
@[simp] theorem drainWbuf_kept {s0 s : State} (n) (h : Kept s0 s) : Kept s0 (s.drainWbuf n) := by
  unfold State.drainWbuf; split <;> simp (maxDischargeDepth := 40) [h]
@[simp] theorem admitLookup_kept {s0 s : State} (n line e) (h : Kept s0 s) : Kept s0 (s.admitLookup n line e) := by
  unfold State.admitLookup; simp only []; (repeat' split) <;> simp (maxDischargeDepth := 40) [h]
@[simp] theorem admitOne_kept {s0 s : State} (n e) (h : Kept s0 s) : Kept s0 (s.admitOne n e) := by
  unfold State.admitOne; simp only []; (repeat' split) <;> simp (maxDischargeDepth := 40) [h]
@[simp] theorem takeReel_kept {s0 s : State} (m) (h : Kept s0 s) : Kept s0 (s.takeReel m) := by
  unfold State.takeReel; split <;> simp (maxDischargeDepth := 40) [h]
@[simp] theorem takeRsnp_kept {s0 s : State} (n r inv) (h : Kept s0 s) : Kept s0 (s.takeRsnp n r inv) := by
  unfold State.takeRsnp; simp (maxDischargeDepth := 40) [h]
@[simp] theorem rsnpAnswered_kept {s0 s : State} (n r data) (h : Kept s0 s) : Kept s0 (s.rsnpAnswered n r data) := by
  unfold State.rsnpAnswered; simp only []; (repeat' split) <;> simp (maxDischargeDepth := 40) [h]
@[simp] theorem takeForwarded_kept {s0 s : State} (n r) (h : Kept s0 s) : Kept s0 (s.takeForwarded n r) := by
  unfold State.takeForwarded; simp (maxDischargeDepth := 40) [h]
@[simp] theorem tmoCount_kept {s0 s : State} (n line kind) (h : Kept s0 s) : Kept s0 (s.tmoCount n line kind) := by
  unfold State.tmoCount; simp (maxDischargeDepth := 40) [h]
@[simp] theorem ncEnd_kept {s0 s : State} (r status data at_) (h : Kept s0 s) : Kept s0 (s.ncEnd r status data at_) := by
  unfold State.ncEnd; split <;> simp (maxDischargeDepth := 40) [h]
@[simp] theorem ncDiscard_kept {s0 s : State} (r reason at_) (h : Kept s0 s) : Kept s0 (s.ncDiscard r reason at_) := by
  unfold State.ncDiscard; simp (maxDischargeDepth := 40) [h]
@[simp] theorem ncStore_kept {s0 s : State} (r old at_) (h : Kept s0 s) : Kept s0 (s.ncStore r old at_) := by
  unfold State.ncStore; simp (maxDischargeDepth := 40) [h]
@[simp] theorem ncDram_kept {s0 s : State} (n r) (h : Kept s0 s) : Kept s0 (s.ncDram n r) := by
  unfold State.ncDram; simp (maxDischargeDepth := 40) [h]
@[simp] theorem ncReturned_kept {s0 s : State} (r d) (h : Kept s0 s) : Kept s0 (s.ncReturned r d) := by
  unfold State.ncReturned; simp only []; (repeat' split) <;> simp (maxDischargeDepth := 40) [h]
@[simp] theorem lineReturned_kept {s0 s : State} (rd d) (h : Kept s0 s) : Kept s0 (s.lineReturned rd d) := by
  unfold State.lineReturned; simp only []; (repeat' split) <;> simp (maxDischargeDepth := 40) [h]
@[simp] theorem memThermal_kept {s0 s : State} (h : Kept s0 s) : Kept s0 (s.memThermal) := by
  unfold State.memThermal; simp (maxDischargeDepth := 40) [h]
@[simp] theorem thermNotice_kept {s0 s : State} (src idx temp up) (h : Kept s0 s) : Kept s0 (s.thermNotice src idx temp up) := by
  unfold State.thermNotice; simp (maxDischargeDepth := 40) [h]
@[simp] theorem channelLost_kept {s0 s : State} (mc) (h : Kept s0 s) : Kept s0 (s.channelLost mc) := by
  unfold State.channelLost
  refine logEvent_kept _ (kept_foldl _ _ (by simp (maxDischargeDepth := 40) [h]) (fun t x => ?_)); (repeat' split) <;> simp (maxDischargeDepth := 40)
@[simp] theorem scrubLine_kept {s0 s : State} (line errs) (h : Kept s0 s) : Kept s0 (s.scrubLine line errs) := by
  unfold State.scrubLine; simp only []; split <;> simp (maxDischargeDepth := 40) [h]
@[simp] theorem ectStart_kept {s0 s : State} (op) (h : Kept s0 s) : Kept s0 (s.ectStart op) := by
  unfold State.ectStart; simp only []; split
  · simp [h]
  · have k : Kept s0 ((s.fput .ectStatusBusy 0 0 1).fput .ectStatusDone 0 0 0) := by simp (maxDischargeDepth := 40) [h]
    have g := startRemoval_kept (s.fget .ectAddrLine) 1 k
    exact ⟨g.pending, g.fuses, g.now, fun m => ⟨(k.mem m).dram, (k.mem m).chk, (g.mem m).mbx⟩⟩
@[simp] theorem putEctLine_kept {s0 s : State} (d) (h : Kept s0 s) : Kept s0 (s.putEctLine d) := by
  unfold State.putEctLine; simp (maxDischargeDepth := 40) [h]
@[simp] theorem putEctChecks_kept {s0 s : State} (cs) (h : Kept s0 s) : Kept s0 (s.putEctChecks cs) := by
  unfold State.putEctChecks; simp (maxDischargeDepth := 40) [h]
@[simp] theorem ectPerform_kept {s0 s : State} (op line) (h : Kept s0 s) : Kept s0 (s.ectPerform op line) := by
  unfold State.ectPerform; split <;> simp (maxDischargeDepth := 40) [h]
@[simp] theorem fireUnit_kept {s0 s : State} (u) (h : Kept s0 s) : Kept s0 (s.fireUnit u) := by
  unfold State.fireUnit
  exact rput_kept _ _ _ _ (h.of_mem rfl rfl rfl (fun m => ⟨Memory.wf_filter _ m.dram, Memory.wf_filter _ m.chk, m.mbx⟩))
@[simp] theorem unfire_kept {s0 s : State} (us cmd) (h : Kept s0 s) : Kept s0 (s.unfire us cmd) := by
  unfold State.unfire; simp (maxDischargeDepth := 40) [h]
theorem scrubOne_kept {s0 : State} (z line) (h : Kept s0 z.1) : Kept s0 (State.scrubOne z line).1 := by
  unfold State.scrubOne; simp only []; (repeat' split) <;> simp [h]
@[simp] theorem modSlipG_kept {s0 s : State} (d g f) (h : Kept s0 s) : Kept s0 (s.modSlipG d g f) := by
  unfold State.modSlipG; simp (maxDischargeDepth := 40) [h]
@[simp] theorem retireGroup_kept {s0 s : State} (d g) (h : Kept s0 s) : Kept s0 (s.retireGroup d g) := by
  unfold State.retireGroup; simp only []; (repeat' split) <;> simp (maxDischargeDepth := 40) [h]
@[simp] theorem wireLog_kept {s0 s : State} (d g w) (h : Kept s0 s) : Kept s0 (s.wireLog d g w) := by
  unfold State.wireLog; simp (maxDischargeDepth := 40) [h]
@[simp] theorem startRepair_kept {s0 s : State} (d g) (h : Kept s0 s) : Kept s0 (s.startRepair d g) := by
  unfold State.startRepair; simp (maxDischargeDepth := 40) [h]
@[simp] theorem wireDue_kept {s0 s : State} (d g w) (h : Kept s0 s) : Kept s0 (s.wireDue d g w) := by
  unfold State.wireDue; simp (maxDischargeDepth := 40) [h]
@[simp] theorem beatFixed_kept {s0 s : State} (d g b) (h : Kept s0 s) : Kept s0 (s.beatFixed d g b) := by
  unfold State.beatFixed; simp only []; (repeat' split) <;> simp (maxDischargeDepth := 40) [h]
@[simp] theorem beatBad_kept {s0 s : State} (d g) (h : Kept s0 s) : Kept s0 (s.beatBad d g) := by
  unfold State.beatBad; simp (maxDischargeDepth := 40) [h]
@[simp] theorem addFailed_kept {s0 s : State} (d g w) (h : Kept s0 s) : Kept s0 (s.addFailed d g w) := by
  unfold State.addFailed; simp (maxDischargeDepth := 40) [h]
@[simp] theorem repairReply_kept {s0 s : State} (d g) (h : Kept s0 s) : Kept s0 (s.repairReply d g) := by
  unfold State.repairReply; split <;> simp (maxDischargeDepth := 40) [h]
@[simp] theorem trainGroup_kept {s0 s : State} (d g bad dead) (h : Kept s0 s) : Kept s0 (s.trainGroup d g bad dead) := by
  unfold State.trainGroup; simp (maxDischargeDepth := 40) [h]
@[simp] theorem trainDie_kept {s0 s : State} (d badWires badClocks recheckBad) (h : Kept s0 s) : Kept s0 (s.trainDie d badWires badClocks recheckBad).1 := by
  unfold State.trainDie; simp only []; split <;> simp (maxDischargeDepth := 40) [h]
@[simp] theorem startRetrain_kept {s0 s : State} (k) (h : Kept s0 s) : Kept s0 (s.startRetrain k) := by
  unfold State.startRetrain; simp (maxDischargeDepth := 40) [h]
@[simp] theorem ctlArrives_kept {s0 s : State} (q m at_) (h : Kept s0 s) : Kept s0 (s.ctlArrives q m at_) := by
  unfold State.ctlArrives; split <;> simp (maxDischargeDepth := 40) [h]
@[simp] theorem reelDeliver_kept {s0 s : State} (k m at_) (h : Kept s0 s) : Kept s0 (s.reelDeliver k m at_) := by
  unfold State.reelDeliver; split <;> simp (maxDischargeDepth := 40) [h]
@[simp] theorem cellArrives_kept {s0 s : State} (k fseq hold c) (h : Kept s0 s) : Kept s0 (s.cellArrives k fseq hold c) := by
  unfold State.cellArrives; simp (maxDischargeDepth := 40) [h]
@[simp] theorem stopHeard_kept {s0 s : State} (k) (h : Kept s0 s) : Kept s0 (s.stopHeard k) := by
  unfold State.stopHeard; simp (maxDischargeDepth := 40) [h]
@[simp] theorem resume_kept {s0 s : State} (q first) (h : Kept s0 s) : Kept s0 (s.resume q first) := by
  unfold State.resume; simp (maxDischargeDepth := 40) [h]
@[simp] theorem portReply_kept {s0 s : State} (k status) (h : Kept s0 s) : Kept s0 (s.portReply k status) := by
  unfold State.portReply; split <;> simp (maxDischargeDepth := 40) [h]
@[simp] theorem dropOutsiders_kept {s0 s : State} (members reason) (h : Kept s0 s) : Kept s0 (s.dropOutsiders members reason) := by
  unfold State.dropOutsiders; simp (maxDischargeDepth := 40) [h]
@[simp] theorem formSys_kept {s0 s : State} (members lead reason) (h : Kept s0 s) : Kept s0 (s.formSys members lead reason) := by
  unfold State.formSys; simp (maxDischargeDepth := 40) [h]
@[simp] theorem runAlone_kept {s0 s : State} (reason) (h : Kept s0 s) : Kept s0 (s.runAlone reason) := by
  unfold State.runAlone; simp (maxDischargeDepth := 40) [h]
@[simp] theorem formSystem_kept {s0 s : State} (h : Kept s0 s) : Kept s0 (s.formSystem) := by
  unfold State.formSystem; simp (maxDischargeDepth := 40) [h]
@[simp] theorem tryForm_kept {s0 s : State} (h : Kept s0 s) : Kept s0 (s.tryForm) := by
  unfold State.tryForm; simp only []; (repeat' split) <;> simp (maxDischargeDepth := 40) [h]
@[simp] theorem trainFail_kept {s0 s : State} (k reason) (h : Kept s0 s) : Kept s0 (s.trainFail k reason) := by
  unfold State.trainFail; simp (maxDischargeDepth := 40) [h]
@[simp] theorem startTraining_kept {s0 s : State} (k cmd) (h : Kept s0 s) : Kept s0 (s.startTraining k cmd) := by
  unfold State.startTraining; simp (maxDischargeDepth := 40) [h]
@[simp] theorem stopCore_kept {s0 s : State} (c n) (h : Kept s0 s) : Kept s0 (s.stopCore c n) := by
  unfold State.stopCore; simp (maxDischargeDepth := 40) [h]
@[simp] theorem flushL2_kept {s0 s : State} (c) (h : Kept s0 s) : Kept s0 (s.flushL2 c) := by
  unfold State.flushL2; simp (maxDischargeDepth := 40) [h]
@[simp] theorem startExit_kept {s0 s : State} (c dest) (h : Kept s0 s) : Kept s0 (s.startExit c dest) := by
  unfold State.startExit; simp (maxDischargeDepth := 40) [h]
@[simp] theorem exitCore_kept {s0 s : State} (c dest) (h : Kept s0 s) : Kept s0 (s.exitCore c dest) := by
  unfold State.exitCore; simp (maxDischargeDepth := 40) [h]
@[simp] theorem startDieExit_kept {s0 s : State} (d wait) (h : Kept s0 s) : Kept s0 (s.startDieExit d wait) := by
  unfold State.startDieExit; simp (maxDischargeDepth := 40) [h]
@[simp] theorem limitCore_kept {s0 s : State} (c n) (h : Kept s0 s) : Kept s0 (s.limitCore c n) := by
  unfold State.limitCore; simp only []; (repeat' split) <;> simp (maxDischargeDepth := 40) [h]
@[simp] theorem limitDie_kept {s0 s : State} (d n) (h : Kept s0 s) : Kept s0 (s.limitDie d n) := by
  unfold State.limitDie; simp only []; (repeat' split) <;> simp (maxDischargeDepth := 40) [h]
@[simp] theorem spillPut_kept {s0 s : State} (c v) (h : Kept s0 s) : Kept s0 (s.spillPut c v) := by
  unfold State.spillPut; simp only []; (repeat' split) <;> simp (maxDischargeDepth := 40) [h]
@[simp] theorem startCoreReset_kept {s0 s : State} (c ex) (h : Kept s0 s) : Kept s0 (s.startCoreReset c ex) := by
  unfold State.startCoreReset; simp (maxDischargeDepth := 40) [h]
@[simp] theorem showGrants_kept {s0 s : State} (h : Kept s0 s) : Kept s0 (s.showGrants) := by
  unfold State.showGrants; simp (maxDischargeDepth := 40) [h]
@[simp] theorem endPair_kept {s0 s : State} (d p) (h : Kept s0 s) : Kept s0 (s.endPair d p) := by
  unfold State.endPair; simp (maxDischargeDepth := 40) [h]
@[simp] theorem resetCore_kept {s0 s : State} (c) (h : Kept s0 s) : Kept s0 (s.resetCore c) := by
  unfold State.resetCore; simp only []; split <;> simp (maxDischargeDepth := 40) [h]
@[simp] theorem pkgReply_kept {s0 s : State} (status result) (h : Kept s0 s) : Kept s0 (s.pkgReply status result) := by
  unfold State.pkgReply; split <;> simp (maxDischargeDepth := 40) [h]
@[simp] theorem holdAll_kept {s0 s : State} (h : Kept s0 s) : Kept s0 (s.holdAll) := by
  unfold State.holdAll; simp (maxDischargeDepth := 40) [h]
@[simp] theorem unholdAll_kept {s0 s : State} (h : Kept s0 s) : Kept s0 (s.unholdAll) := by
  unfold State.unholdAll; simp (maxDischargeDepth := 40) [h]
@[simp] theorem reachPs0_kept {s0 s : State} (h : Kept s0 s) : Kept s0 (s.reachPs0) := by
  unfold State.reachPs0; simp (maxDischargeDepth := 40) [h]
@[simp] theorem pkgNext_kept {s0 s : State} (h : Kept s0 s) : Kept s0 (s.pkgNext) := by
  unfold State.pkgNext; simp (maxDischargeDepth := 40) [h]
@[simp] theorem wakePkg_kept {s0 s : State} (src port) (h : Kept s0 s) : Kept s0 (s.wakePkg src port) := by
  unfold State.wakePkg; simp (maxDischargeDepth := 40) [h]
@[simp] theorem setMasked_kept {s0 s : State} (kind idx on) (h : Kept s0 s) : Kept s0 (s.setMasked kind idx on) := by
  unfold State.setMasked; split <;> simp (maxDischargeDepth := 40) [h]
@[simp] theorem chatEvent_kept {s0 s : State} (kind idx) (h : Kept s0 s) : Kept s0 (s.chatEvent kind idx) := by
  unfold State.chatEvent; simp (maxDischargeDepth := 40) [h]
@[simp] theorem wakeEvent_kept {s0 s : State} (src kind idx) (h : Kept s0 s) : Kept s0 (s.wakeEvent src kind idx) := by
  unfold State.wakeEvent; simp (maxDischargeDepth := 40) [h]
@[simp] theorem selfRefresh_kept {s0 s : State} (h : Kept s0 s) : Kept s0 (s.selfRefresh) := by
  unfold State.selfRefresh; simp (maxDischargeDepth := 40) [h]
@[simp] theorem suspectBank_kept {s0 s : State} (mc sub rank bank) (h : Kept s0 s) : Kept s0 (s.suspectBank mc sub rank bank) := by
  unfold State.suspectBank; simp (maxDischargeDepth := 40) [h]
@[simp] theorem suspectRank_kept {s0 s : State} (mc rank) (h : Kept s0 s) : Kept s0 (s.suspectRank mc rank) := by
  unfold State.suspectRank; simp (maxDischargeDepth := 40) [h]
@[simp] theorem wakeCheck_kept {s0 s : State} (h : Kept s0 s) : Kept s0 (s.wakeCheck) := by
  unfold State.wakeCheck; simp (maxDischargeDepth := 40) [h]
@[simp] theorem cleanMsc_kept {s0 s : State} (h : Kept s0 s) : Kept s0 (s.cleanMsc) := by
  unfold State.cleanMsc; simp (maxDischargeDepth := 40) [h]
@[simp] theorem saggarOff_kept {s0 s : State} (h : Kept s0 s) : Kept s0 (s.saggarOff) := by
  unfold State.saggarOff; simp (maxDischargeDepth := 40) [h]
@[simp] theorem saggarOn_kept {s0 s : State} (h : Kept s0 s) : Kept s0 (s.saggarOn) := by
  unfold State.saggarOn; simp (maxDischargeDepth := 40) [h]
theorem entryStep_kept {s0 s t : State} (h : Kept s0 s) (e : s.entryStep = some t) : Kept s0 t := by
  revert e; unfold State.entryStep
  (repeat' split) <;> intro e <;> first | (have g := Option.some.inj e; subst g; simp (maxDischargeDepth := 40) [h]; done) | exact absurd e (by simp)
theorem exitStep_kept {s0 s t : State} (h : Kept s0 s) (e : s.exitStep = some t) : Kept s0 t := by
  revert e; unfold State.exitStep
  (repeat' split) <;> intro e <;> first | (have g := Option.some.inj e; subst g; simp (maxDischargeDepth := 40) [h]; done) | exact absurd e (by simp)
@[simp] theorem autoEnter_kept {s0 s : State} (n) (h : Kept s0 s) : Kept s0 (s.autoEnter n) := by
  unfold State.autoEnter; simp (maxDischargeDepth := 40) [h]
@[simp] theorem gatherChoices_kept {s0 s : State} (h : Kept s0 s) : Kept s0 (s.gatherChoices) := by
  unfold State.gatherChoices; simp (maxDischargeDepth := 40) [h]
@[simp] theorem takeChoice_kept {s0 s : State} (q n) (h : Kept s0 s) : Kept s0 (s.takeChoice q n) := by
  unfold State.takeChoice; simp (maxDischargeDepth := 40) [h]
@[simp] theorem setStuck_kept {s0 s : State} (i on) (h : Kept s0 s) : Kept s0 (s.setStuck i on) := by
  unfold State.setStuck; simp (maxDischargeDepth := 40) [h]
@[simp] theorem setCfg_kept {s0 s : State} (off v) (h : Kept s0 s) : Kept s0 (s.setCfg off v) := by
  unfold State.setCfg; simp (maxDischargeDepth := 40) [h]
@[simp] theorem epUse_kept {s0 s : State} (h : Kept s0 s) : Kept s0 (s.epUse) := by
  unfold State.epUse; simp (maxDischargeDepth := 40) [h]
@[simp] theorem showWake_kept {s0 s : State} (h : Kept s0 s) : Kept s0 (s.showWake) := by
  unfold State.showWake; simp (maxDischargeDepth := 40) [h]
@[simp] theorem aer_kept {s0 s : State} (b) (h : Kept s0 s) : Kept s0 (s.aer b) := by
  unfold State.aer; simp (maxDischargeDepth := 40) [h]
@[simp] theorem showIntx_kept {s0 s : State} (h : Kept s0 s) : Kept s0 (s.showIntx) := by
  unfold State.showIntx; simp (maxDischargeDepth := 40) [h]
@[simp] theorem setMsixW_kept {s0 s : State} (i v) (h : Kept s0 s) : Kept s0 (s.setMsixW i v) := by
  unfold State.setMsixW; simp (maxDischargeDepth := 40) [h]
@[simp] theorem sendVec_kept {s0 s : State} (v) (h : Kept s0 s) : Kept s0 (s.sendVec v) := by
  unfold State.sendVec; simp (maxDischargeDepth := 40) [h]
@[simp] theorem sendVecs_kept {s0 s : State} (h : Kept s0 s) : Kept s0 (s.sendVecs) := by
  unfold State.sendVecs; simp (maxDischargeDepth := 40) [h]
@[simp] theorem pmeEvent_kept {s0 s : State} (h : Kept s0 s) : Kept s0 (s.pmeEvent) := by
  unfold State.pmeEvent; simp (maxDischargeDepth := 40) [h]
@[simp] theorem epEvent_kept {s0 s : State} (b) (h : Kept s0 s) : Kept s0 (s.epEvent b) := by
  unfold State.epEvent; simp (maxDischargeDepth := 40) [h]
@[simp] theorem msixMode_kept {s0 s : State} (on) (h : Kept s0 s) : Kept s0 (s.msixMode on) := by
  unfold State.msixMode; simp (maxDischargeDepth := 40) [h]
@[simp] theorem modRing_kept {s0 s : State} (r f) (h : Kept s0 s) : Kept s0 (s.modRing r f) := by
  unfold State.modRing; simp (maxDischargeDepth := 40) [h]
@[simp] theorem showReads_kept {s0 s : State} (h : Kept s0 s) : Kept s0 (s.showReads) := by
  unfold State.showReads; simp (maxDischargeDepth := 40) [h]
@[simp] theorem issueRead_kept {s0 s : State} (h : Kept s0 s) : Kept s0 (s.issueRead) := by
  unfold State.issueRead; simp only []; split <;> simp (maxDischargeDepth := 40) [h]
@[simp] theorem fetchRings_kept {s0 s : State} (h : Kept s0 s) : Kept s0 (s.fetchRings) := by
  unfold State.fetchRings; simp (maxDischargeDepth := 40) [h]
@[simp] theorem ringFault_kept {s0 s : State} (r reason unit) (h : Kept s0 s) : Kept s0 (s.ringFault r reason unit) := by
  unfold State.ringFault; simp (maxDischargeDepth := 40) [h]
@[simp] theorem hostWake_kept {s0 s : State} (op) (h : Kept s0 s) : Kept s0 (s.hostWake op) := by
  unfold State.hostWake; simp (maxDischargeDepth := 40) [h]
@[simp] theorem kreceive_kept {s0 s : State} (src pkt) (h : Kept s0 s) : Kept s0 (s.kreceive src pkt) := by
  unfold State.kreceive; simp (maxDischargeDepth := 40) [h]
@[simp] theorem passOne_kept {s0 s : State} (r) (h : Kept s0 s) : Kept s0 (s.passOne r) := by
  unfold State.passOne; simp only []; split <;> simp (maxDischargeDepth := 40) [h]
@[simp] theorem passPackets_kept {s0 s : State} (r) (h : Kept s0 s) : Kept s0 (s.passPackets r) := by
  unfold State.passPackets; simp (maxDischargeDepth := 40) [h]
@[simp] theorem cplStatus_kept {s0 s : State} (st) (h : Kept s0 s) : Kept s0 (s.cplStatus st) := by
  unfold State.cplStatus; split <;> simp (maxDischargeDepth := 40) [h]
@[simp] theorem dropReplies_kept {s0 s : State} (r) (h : Kept s0 s) : Kept s0 (s.dropReplies r) := by
  unfold State.dropReplies; simp (maxDischargeDepth := 40) [h]
@[simp] theorem ringOff_kept {s0 s : State} (r) (h : Kept s0 s) : Kept s0 (s.ringOff r) := by
  unfold State.ringOff; simp (maxDischargeDepth := 40) [h]
@[simp] theorem ringPut_kept {s0 s : State} (r v) (h : Kept s0 s) : Kept s0 (s.ringPut r v) := by
  unfold State.ringPut; simp only []; (repeat' split) <;> simp (maxDischargeDepth := 40) [h]
@[simp] theorem crpiPut_kept {s0 s : State} (r v) (h : Kept s0 s) : Kept s0 (s.crpiPut r v) := by
  unfold State.crpiPut; simp (maxDischargeDepth := 40) [h]
@[simp] theorem hostWrite_kept {s0 s : State} (a us cap) (h : Kept s0 s) : Kept s0 (s.hostWrite a us cap) := by
  unfold State.hostWrite; simp (maxDischargeDepth := 40) [h]
@[simp] theorem ringWrite_kept {s0 s : State} (r pkt) (h : Kept s0 s) : Kept s0 (s.ringWrite r pkt) := by
  unfold State.ringWrite; simp (maxDischargeDepth := 40) [h]
theorem wf_foldl_putN {m : List Host.Cell} (h : Memory.wf m = true) (a : Nat) (us : List (W64 × Nat)) :
    Memory.wf (us.foldl (fun m (w, i) => Memory.putN m (a + 8 * i) 8 w.toNat) m) = true := by
  induction us generalizing m with
  | nil => exact h
  | cons x l ih => exact ih (Memory.wf_putN h _ _ _)
@[simp] theorem mbxPut_kept {s0 s : State} (a us) (h : Kept s0 s) : Kept s0 (s.mbxPut a us) :=
  h.of_mem rfl rfl rfl (fun m => ⟨m.dram, m.chk, wf_foldl_putN m.mbx a _⟩)
@[simp] theorem mbxReply_kept {s0 s : State} (p n r) (h : Kept s0 s) : Kept s0 (s.mbxReply p n r) := by
  unfold State.mbxReply; simp (maxDischargeDepth := 40) [h]
@[simp] theorem pageNotice_kept {s0 s : State} (p n) (h : Kept s0 s) : Kept s0 (s.pageNotice p n) := by
  unfold State.pageNotice; simp (maxDischargeDepth := 40) [h]
@[simp] theorem hostResume_kept {s0 s : State} (h : Kept s0 s) : Kept s0 (s.hostResume) := by
  unfold State.hostResume; simp (maxDischargeDepth := 40) [h]
@[simp] theorem pmcsrPut_kept {s0 s : State} (v) (h : Kept s0 s) : Kept s0 (s.pmcsrPut v) := by
  unfold State.pmcsrPut; simp (maxDischargeDepth := 40) [h]
@[simp] theorem flrCfg_kept {s0 s : State} (h : Kept s0 s) : Kept s0 (s.flrCfg) := by
  unfold State.flrCfg; simp (maxDischargeDepth := 40) [h]
@[simp] theorem epFuncReset_kept {s0 s : State} (h : Kept s0 s) : Kept s0 (s.epFuncReset) := by
  unfold State.epFuncReset; simp (maxDischargeDepth := 40) [h]
@[simp] theorem flr_kept {s0 s : State} (h : Kept s0 s) : Kept s0 (s.flr) := by
  unfold State.flr; simp (maxDischargeDepth := 40) [h]
@[simp] theorem epLinkReset_kept {s0 s : State} (h : Kept s0 s) : Kept s0 (s.epLinkReset) := by
  unfold State.epLinkReset; simp (maxDischargeDepth := 40) [h]
@[simp] theorem modChan_kept {s0 s : State} (ch f) (h : Kept s0 s) : Kept s0 (s.modChan ch f) := by
  unfold State.modChan; simp (maxDischargeDepth := 40) [h]
@[simp] theorem modEng_kept {s0 s : State} (e f) (h : Kept s0 s) : Kept s0 (s.modEng e f) := by
  unfold State.modEng; simp (maxDischargeDepth := 40) [h]
@[simp] theorem showEng_kept {s0 s : State} (e) (h : Kept s0 s) : Kept s0 (s.showEng e) := by
  unfold State.showEng; simp only []; split <;> simp (maxDischargeDepth := 40) [h]
@[simp] theorem showChan_kept {s0 s : State} (ch) (h : Kept s0 s) : Kept s0 (s.showChan ch) := by
  unfold State.showChan; simp (maxDischargeDepth := 40) [h]
@[simp] theorem haltChan_kept {s0 s : State} (ch reason) (h : Kept s0 s) : Kept s0 (s.haltChan ch reason) := by
  unfold State.haltChan; simp (maxDischargeDepth := 40) [h]
@[simp] theorem dmaSend_kept {s0 s : State} (ch use write pa len val poison way) (h : Kept s0 s) : Kept s0 (s.dmaSend ch use write pa len val poison way).2 := by
  unfold State.dmaSend; simp (maxDischargeDepth := 40) [h]
theorem ncTake_kept {s0 s : State} (id) {r : NcReq × State} (h : Kept s0 s) (e : s.ncTake id = some r) : Kept s0 r.2 := by
  revert e; unfold State.ncTake; split <;> (intro e; cases e) <;> simp [h]
@[simp] theorem readTrigger_kept {s0 s : State} (ch) (h : Kept s0 s) : Kept s0 (s.readTrigger ch) := by
  unfold State.readTrigger; simp (maxDischargeDepth := 40) [h]
@[simp] theorem dmaStop_kept {s0 s : State} (ch) (h : Kept s0 s) : Kept s0 (s.dmaStop ch) := by
  unfold State.dmaStop; simp (maxDischargeDepth := 40) [h]
@[simp] theorem chctlPut_kept {s0 s : State} (ch v) (h : Kept s0 s) : Kept s0 (s.chctlPut ch v) := by
  unfold State.chctlPut; simp only []; (repeat' split) <;> simp (maxDischargeDepth := 40) [h]
@[simp] theorem applyPi_kept {s0 s : State} (ch p) (h : Kept s0 s) : Kept s0 (s.applyPi ch p) := by
  unfold State.applyPi; simp (maxDischargeDepth := 40) [h]
@[simp] theorem trigger_kept {s0 s : State} (ch p resume) (h : Kept s0 s) : Kept s0 (s.trigger ch p resume) := by
  unfold State.trigger; simp only []; (repeat' split) <;> simp (maxDischargeDepth := 40) [h]
@[simp] theorem modEnt_kept {s0 s : State} (ch idx f) (h : Kept s0 s) : Kept s0 (s.modEnt ch idx f) := by
  unfold State.modEnt; simp (maxDischargeDepth := 40) [h]
@[simp] theorem finishHead_kept {s0 s : State} (ch) (h : Kept s0 s) : Kept s0 (s.finishHead ch) := by
  unfold State.finishHead; split <;> simp (maxDischargeDepth := 40) [h]
@[simp] theorem finishEnts_kept {s0 s : State} (ch) (h : Kept s0 s) : Kept s0 (s.finishEnts ch) := by
  unfold State.finishEnts; simp (maxDischargeDepth := 40) [h]
@[simp] theorem startEnt_kept {s0 s : State} (x) (h : Kept s0 s) : Kept s0 (s.startEnt x) := by
  unfold State.startEnt; simp (maxDischargeDepth := 40) [h]
@[simp] theorem leaveCur_kept {s0 s : State} (e x) (h : Kept s0 s) : Kept s0 (s.leaveCur e x) := by
  unfold State.leaveCur; simp (maxDischargeDepth := 40) [h]
@[simp] theorem dmaWrite_kept {s0 s : State} (e x) (h : Kept s0 s) : Kept s0 (s.dmaWrite e x).1 := by
  unfold State.dmaWrite; simp only []; split <;> simp (maxDischargeDepth := 40) [h]
@[simp] theorem dmaRead_kept {s0 s : State} (e x) (h : Kept s0 s) : Kept s0 (s.dmaRead e x).1 := by
  unfold State.dmaRead; simp (maxDischargeDepth := 40) [h]
@[simp] theorem endX_kept {s0 s : State} (e x) (h : Kept s0 s) : Kept s0 (s.endX e x) := by
  unfold State.endX; simp (maxDischargeDepth := 40) [h]
@[simp] theorem dmaPump_kept {s0 s : State} (e) (h : Kept s0 s) : Kept s0 (s.dmaPump e) := by
  unfold State.dmaPump; simp only []; (repeat' split) <;> simp (maxDischargeDepth := 40) [h]
theorem dmaAnswer_kept {s0 s : State} (n use) {r : NcReq × State} (h : Kept s0 s) (e : s.dmaAnswer n use = some r) : Kept s0 r.2 := by
  revert e; unfold State.dmaAnswer; intro e
  obtain ⟨_, _, e⟩ := Option.bind_eq_some_iff.mp e
  exact ncTake_kept _ h e
@[simp] theorem countCore_kept {s0 s : State} (c t) (h : Kept s0 s) : Kept s0 (s.countCore c t) := by
  unfold State.countCore; simp (maxDischargeDepth := 40) [h]
@[simp] theorem showBuffered_kept {s0 s : State} (c) (h : Kept s0 s) : Kept s0 (s.showBuffered c) := by
  unfold State.showBuffered; simp (maxDischargeDepth := 40) [h]
@[simp] theorem spillLines_kept {s0 s : State} (c room cs3) (h : Kept s0 s) : Kept s0 (s.spillLines c room cs3) := by
  unfold State.spillLines
  refine showBuffered_kept _ (modCore_kept _ _ (kept_foldl_fst _ _ h (fun z x => ?_)))
  simp (maxDischargeDepth := 40)
@[simp] theorem smpHeader_kept {s0 s : State} (c) (h : Kept s0 s) : Kept s0 (s.smpHeader c).2 := by
  unfold State.smpHeader; simp (maxDischargeDepth := 40) [h]
@[simp] theorem smpPut_kept {s0 s : State} (c v) (h : Kept s0 s) : Kept s0 (s.smpPut c v) := by
  unfold State.smpPut; simp only []; (repeat' split) <;> simp (maxDischargeDepth := 40) [h]
@[simp] theorem countBank_kept {s0 s : State} (kind idx n) (h : Kept s0 s) : Kept s0 (s.countBank kind idx n) := by
  unfold State.countBank; simp (maxDischargeDepth := 40) [h]
@[simp] theorem countBlocks_kept {s0 s : State} (h : Kept s0 s) : Kept s0 (s.countBlocks) := by
  unfold State.countBlocks; simp (maxDischargeDepth := 40) [h]
@[simp] theorem setWays_kept {s0 s : State} (p m) (h : Kept s0 s) : Kept s0 (s.setWays p m) := by
  unfold State.setWays; simp (maxDischargeDepth := 40) [h]
@[simp] theorem setHomeSlots_kept {s0 s : State} (p mask) (h : Kept s0 s) : Kept s0 (s.setHomeSlots p mask) := by
  unfold State.setHomeSlots; simp (maxDischargeDepth := 40) [h]
@[simp] theorem setFlitSlots_kept {s0 s : State} (k p mask) (h : Kept s0 s) : Kept s0 (s.setFlitSlots k p mask) := by
  unfold State.setFlitSlots; simp (maxDischargeDepth := 40) [h]
@[simp] theorem tellSpan_kept {s0 s : State} (p) (h : Kept s0 s) : Kept s0 (s.tellSpan p) := by
  unfold State.tellSpan; simp (maxDischargeDepth := 40) [h]
@[simp] theorem kaddReply_kept {s0 s t : State} (id p result f) (h : Kept s0 s) (k : Kept s0 t) (hf : ∀ u, Kept u (f u)) :
    Kept s0 (s.kaddReply t id p result f) := by
  unfold State.kaddReply; simp only []
  exact kept_ite _ _ _ (fun _ => kreply_kept _ _ _ _ h) (fun _ => kreply_kept _ _ _ _ (k.trans (hf t)))
@[simp] theorem dropCore_kept {s0 s : State} (p c) (h : Kept s0 s) : Kept s0 (s.dropCore p c) := by
  unfold State.dropCore; simp (maxDischargeDepth := 40) [h]
@[simp] theorem makePairs_kept {s0 s : State} (p cores) (h : Kept s0 s) : Kept s0 (s.makePairs p cores) := by
  unfold State.makePairs; simp (maxDischargeDepth := 40) [h]
@[simp] theorem dropWindow_kept {s0 s : State} (p w) (h : Kept s0 s) : Kept s0 (s.dropWindow p w) := by
  unfold State.dropWindow; simp (maxDischargeDepth := 40) [h]
@[simp] theorem dropIo_kept {s0 s : State} (p chs ports) (h : Kept s0 s) : Kept s0 (s.dropIo p chs ports) := by
  unfold State.dropIo; simp (maxDischargeDepth := 40) [h]
@[simp] theorem startScan_kept {s0 s : State} (p id) (h : Kept s0 s) : Kept s0 (s.startScan p id) := by
  unfold State.startScan; simp (maxDischargeDepth := 40) [h]
@[simp] theorem scanEvict_kept {s0 s : State} (p) (h : Kept s0 s) : Kept s0 (s.scanEvict p) := by
  unfold State.scanEvict; simp (maxDischargeDepth := 40) [h]
@[simp] theorem qosApply_kept {s0 s : State} (c p) (h : Kept s0 s) : Kept s0 (s.qosApply c p) := by
  unfold State.qosApply; simp (maxDischargeDepth := 40) [h]
@[simp] theorem spanRelay_kept {s0 s : State} (c qs pkt) (h : Kept s0 s) : Kept s0 (s.spanRelay c qs pkt) := by
  unfold State.spanRelay; simp (maxDischargeDepth := 40) [h]
@[simp] theorem clearPage_kept {s0 s : State} (p) (h : Kept s0 s) : Kept s0 (s.clearPage p) := by
  unfold State.clearPage
  exact Kept.of_mem (t := (s.rput .mbxStatus p 0 0).rput .mbxDoorbell p 0 0) (by simp (maxDischargeDepth := 40) [h]) rfl rfl rfl
    (fun m => ⟨m.dram, m.chk, Memory.wf_filter _ m.mbx⟩)
@[simp] theorem makePart_kept {s0 s : State} (p isot plat span) (h : Kept s0 s) : Kept s0 (s.makePart p isot plat span) := by
  unfold State.makePart; simp (maxDischargeDepth := 40) [h]
@[simp] theorem freePart_kept {s0 s : State} (p) (h : Kept s0 s) : Kept s0 (s.freePart p) := by
  unfold State.freePart; simp (maxDischargeDepth := 40) [h]
@[simp] theorem startFirst_kept {s0 s : State} (c p) (h : Kept s0 s) : Kept s0 (s.startFirst c p) := by
  unfold State.startFirst; split <;> simp (maxDischargeDepth := 40) [h]
@[simp] theorem enableNext_kept {s0 s : State} (c p) (h : Kept s0 s) : Kept s0 (s.enableNext c p) := by
  unfold State.enableNext; simp only []; (repeat' split) <;> simp (maxDischargeDepth := 40) [h]
@[simp] theorem dropMailbox_kept {s0 s : State} (p keep) (h : Kept s0 s) : Kept s0 (s.dropMailbox p keep) := by
  unfold State.dropMailbox; simp (maxDischargeDepth := 40) [h]
@[simp] theorem startDrain_kept {s0 s : State} (p id) (h : Kept s0 s) : Kept s0 (s.startDrain p id) := by
  unfold State.startDrain; simp (maxDischargeDepth := 40) [h]
@[simp] theorem doorbell_kept {s0 s : State} (p host v) (h : Kept s0 s) : Kept s0 (s.doorbell p host v) := by
  unfold State.doorbell; simp (maxDischargeDepth := 40) [h]
@[simp] theorem putMode_kept {s0 s : State} (fn p on) (h : Kept s0 s) : Kept s0 (s.putMode fn p on) := by
  unfold State.putMode; split <;> simp (maxDischargeDepth := 40) [h]
@[simp] theorem kilnWrite_kept {s0 s : State} (pa us) (h : Kept s0 s) : Kept s0 (s.kilnWrite pa us) := by
  unfold State.kilnWrite; simp (maxDischargeDepth := 40) [h]
@[simp] theorem relaysTimeOut_kept {s0 s : State} (q) (h : Kept s0 s) : Kept s0 (s.relaysTimeOut q) := by
  unfold State.relaysTimeOut; refine kept_foldl _ _ h (fun t x => ?_); split <;> simp (maxDischargeDepth := 40)
@[simp] theorem takeCopy_kept {s0 s : State} (p q wins cores) (h : Kept s0 s) : Kept s0 (s.takeCopy p q wins cores) := by
  unfold State.takeCopy; simp (maxDischargeDepth := 40) [h]
@[simp] theorem joinSystem_kept {s0 s : State} (x members lead fTime) (h : Kept s0 s) : Kept s0 (s.joinSystem x members lead fTime) := by
  unfold State.joinSystem; simp (maxDischargeDepth := 40) [h]
@[simp] theorem relayed_kept {s0 s : State} (x src p) (h : Kept s0 s) : Kept s0 (s.relayed x src p) := by
  unfold State.relayed; split <;> simp (maxDischargeDepth := 40) [h]
@[simp] theorem dropFired_kept {s0 s : State} (h : Kept s0 s) : Kept s0 (s.dropFired) := by
  unfold State.dropFired; simp (maxDischargeDepth := 40) [h]
@[simp] theorem pkgReset_kept {s0 s : State} (h : Kept s0 s) : Kept s0 s.pkgReset := by
  unfold State.pkgReset
  refine fput_kept _ _ _ _ (fput_kept _ _ _ _ (fput_kept _ _ _ _ (h.of_mem rfl rfl rfl (fun m => ⟨?_, ?_, rfl⟩))))
  · exact Memory.wf_filter _ m.dram
  · exact Memory.wf_filter _ m.chk
@[simp] theorem aonClear_kept {s0 s : State} (h : Kept s0 s) : Kept s0 s.aonClear := by
  exact h.of_mem rfl rfl rfl (fun _ => ⟨rfl, rfl, rfl⟩)
@[simp] theorem ioLost_kept {s0 s : State} (h : Kept s0 s) : Kept s0 (s.ioLost) := by
  unfold State.ioLost; simp (maxDischargeDepth := 40) [h]
@[simp] theorem kilnReset_kept {s0 s : State} (expiries) (h : Kept s0 s) : Kept s0 (s.kilnReset expiries) := by
  unfold State.kilnReset; simp (maxDischargeDepth := 40) [h]
@[simp] theorem glbResetPut_kept {s0 s : State} (q v) (h : Kept s0 s) : Kept s0 (s.glbResetPut q v) := by
  unfold State.glbResetPut; split <;> simp (maxDischargeDepth := 40) [h]
@[simp] theorem vddqLost_kept {s0 s : State} (h : Kept s0 s) : Kept s0 (s.vddqLost) := by
  unfold State.vddqLost; simp (maxDischargeDepth := 40) [h]
@[simp] theorem stopClocks_kept {s0 s : State} (cs) (h : Kept s0 s) : Kept s0 (s.stopClocks cs) := by
  unfold State.stopClocks; simp (maxDischargeDepth := 40) [h]
@[simp] theorem startClocks_kept {s0 s : State} (cs p) (h : Kept s0 s) : Kept s0 (s.startClocks cs p) := by
  unfold State.startClocks; simp (maxDischargeDepth := 40) [h]
@[simp] theorem pstateReply_kept {s0 s : State} (d) (h : Kept s0 s) : Kept s0 (s.pstateReply d) := by
  unfold State.pstateReply; split <;> simp (maxDischargeDepth := 40) [h]
@[simp] theorem vfStart_kept {s0 s : State} (d) (h : Kept s0 s) : Kept s0 (s.vfStart d) := by
  unfold State.vfStart; simp (maxDischargeDepth := 40) [h]
@[simp] theorem pstateReq_kept {s0 s : State} (d ps mask freq id) (h : Kept s0 s) : Kept s0 (s.pstateReq d ps mask freq id) := by
  unfold State.pstateReq; simp only []; (repeat' split) <;> simp (maxDischargeDepth := 40) [h]
@[simp] theorem noteTemp_kept {s0 s : State} (b t) (h : Kept s0 s) : Kept s0 (s.noteTemp b t) := by
  unfold State.noteTemp; simp (maxDischargeDepth := 40) [h]
@[simp] theorem moveTcap_kept {s0 s : State} (d lower) (h : Kept s0 s) : Kept s0 (s.moveTcap d lower) := by
  unfold State.moveTcap; simp (maxDischargeDepth := 40) [h]
@[simp] theorem showFuses_kept {s0 s : State} (o) (h : Kept s0 s) : Kept s0 (s.showFuses o) := by
  unfold State.showFuses; simp (maxDischargeDepth := 40) [h]
@[simp] theorem bootStop_kept {s0 s : State} (reason) (h : Kept s0 s) : Kept s0 (s.bootStop reason) := by
  unfold State.bootStop; simp (maxDischargeDepth := 40) [h]
@[simp] theorem bootSlip_kept {s0 s : State} (o) (h : Kept s0 s) : Kept s0 (s.bootSlip o) := by
  unfold State.bootSlip; simp (maxDischargeDepth := 40) [h]
@[simp] theorem bootMemory_kept {s0 s : State} (o) (h : Kept s0 s) : Kept s0 (s.bootMemory o) := by
  unfold State.bootMemory; split <;> simp (maxDischargeDepth := 40) [h]
@[simp] theorem bootFire_kept {s0 s : State} (h : Kept s0 s) : Kept s0 (s.bootFire) := by
  unfold State.bootFire; simp (maxDischargeDepth := 40) [h]
@[simp] theorem platform_kept {s0 s : State} (h : Kept s0 s) : Kept s0 (s.platform) := by
  unfold State.platform; simp (maxDischargeDepth := 40) [h]
@[simp] theorem copyPayload_kept {s0 s : State} (h : Kept s0 s) : Kept s0 (s.copyPayload) := by
  unfold State.copyPayload; simp (maxDischargeDepth := 40) [h]
@[simp] theorem enterStage_kept {s0 s : State} (n) (h : Kept s0 s) : Kept s0 (s.enterStage n) := by
  unfold State.enterStage; split <;> simp (maxDischargeDepth := 40) [h]
@[simp] theorem takeImage_kept {s0 s : State} (img hw copyB) (h : Kept s0 s) : Kept s0 (s.takeImage img hw copyB) := by
  unfold State.takeImage; simp (maxDischargeDepth := 40) [h]
@[simp] theorem bootimgPut_kept {s0 s : State} (v img) (h : Kept s0 s) : Kept s0 (s.bootimgPut v img) := by
  unfold State.bootimgPut; split <;> simp (maxDischargeDepth := 40) [h]
@[simp] theorem bootSetCheck_kept {s0 s : State} (o) (h : Kept s0 s) : Kept s0 (s.bootSetCheck o) := by
  unfold State.bootSetCheck; simp only []; split <;> simp (maxDischargeDepth := 40) [h]
@[simp] theorem bootPlatform_kept {s0 s : State} (h : Kept s0 s) : Kept s0 (s.bootPlatform) := by
  unfold State.bootPlatform; simp (maxDischargeDepth := 40) [h]
@[simp] theorem modRpt_kept {s0 s : State} (n f) (h : Kept s0 s) : Kept s0 (s.modRpt n f) := by
  unfold State.modRpt; simp (maxDischargeDepth := 40) [h]
@[simp] theorem portError_kept {s0 s : State} (n) (h : Kept s0 s) : Kept s0 (s.portError n) := by
  unfold State.portError; simp (maxDischargeDepth := 40) [h]
@[simp] theorem portTakes_kept {s0 s : State} (n d) (h : Kept s0 s) : Kept s0 (s.portTakes n d) := by
  unfold State.portTakes; simp (maxDischargeDepth := 40) [h]
@[simp] theorem portTakeAll_kept {s0 s : State} (n) (h : Kept s0 s) : Kept s0 (s.portTakeAll n) := by
  unfold State.portTakeAll; simp (maxDischargeDepth := 40) [h]
@[simp] theorem downEnds_kept {s0 s : State} (n id status val) (h : Kept s0 s) : Kept s0 (s.downEnds n id status val) := by
  unfold State.downEnds; simp (maxDischargeDepth := 40) [h]
@[simp] theorem sendCpl_kept {s0 s : State} (n st data) (h : Kept s0 s) : Kept s0 (s.sendCpl n st data) := by
  unfold State.sendCpl; simp (maxDischargeDepth := 40) [h]
@[simp] theorem portReturns_kept {s0 s : State} (n) (h : Kept s0 s) : Kept s0 (s.portReturns n) := by
  unfold State.portReturns; simp (maxDischargeDepth := 40) [h]
@[simp] theorem upDiscard_kept {s0 s : State} (n addr reason) (h : Kept s0 s) : Kept s0 (s.upDiscard n addr reason) := by
  unfold State.upDiscard; simp (maxDischargeDepth := 40) [h]
@[simp] theorem upWrite_kept {s0 s : State} (n u) (h : Kept s0 s) : Kept s0 (s.upWrite n u) := by
  unfold State.upWrite; refine kept_foldl _ _ (by split <;> simp (maxDischargeDepth := 40) [h]) (fun t x => ?_); split <;> simp (maxDischargeDepth := 40)
@[simp] theorem upRead_kept {s0 s : State} (n u) (h : Kept s0 s) : Kept s0 (s.upRead n u) := by
  unfold State.upRead; simp only []; split
  · simp (maxDischargeDepth := 40) [h]
  · refine modRpt_kept _ _ (kept_foldl_fst _ _ h (fun z x => ?_))
    simp (maxDischargeDepth := 40)
@[simp] theorem upPerform_kept {s0 s : State} (n u) (h : Kept s0 s) : Kept s0 (s.upPerform n u) := by
  unfold State.upPerform; cases u.kind <;> cases s.target u.addr <;> simp (maxDischargeDepth := 40) [h]
@[simp] theorem upRun_kept {s0 : State} (n) : ∀ (k : Nat) {s : State} (_ : Kept s0 s), Kept s0 (s.upRun n k)
  | 0, _, h => h
  | k + 1, s, h => by
    unfold State.upRun
    (repeat' split) <;> simp (maxDischargeDepth := 40) [h, upRun_kept n k]
@[simp] theorem portPump_kept {s0 s : State} (n) (h : Kept s0 s) : Kept s0 (s.portPump n) := by
  unfold State.portPump; simp only []; (repeat' split) <;> simp_all (maxDischargeDepth := 40)
@[simp] theorem portRests_kept {s0 s : State} (n) (h : Kept s0 s) : Kept s0 (s.portRests n) := by
  unfold State.portRests; simp (maxDischargeDepth := 40) [h]
@[simp] theorem portDown_kept {s0 s : State} (n) (h : Kept s0 s) : Kept s0 (s.portDown n) := by
  unfold State.portDown; simp (maxDischargeDepth := 40) [h]
@[simp] theorem rptPut_kept {s0 s : State} (n v) (h : Kept s0 s) : Kept s0 (s.rptPut n v) := by
  unfold State.rptPut; simp (maxDischargeDepth := 40) [h]
@[simp] theorem regPut_kept {s0 s : State} (q k i j v) (h : Kept s0 s) : Kept s0 (s.regPut q k i j v) := by
  unfold State.regPut; split <;> simp (maxDischargeDepth := 40) [h]
@[simp] theorem ctlPut_kept {s0 s : State} (q off sz v) (h : Kept s0 s) : Kept s0 (s.ctlPut q off sz v) := by
  unfold State.ctlPut; split
  · exact h
  · exact h.of_mem rfl rfl rfl (fun m => ⟨m.dram, m.chk, Memory.wf_putN m.mbx _ _ _⟩)
  · exact regPut_kept _ _ _ _ _ h
@[simp] theorem bar0Put_kept {s0 s : State} (off sz v) (h : Kept s0 s) : Kept s0 (s.bar0Put off sz v) := by
  unfold State.bar0Put; simp only []; (repeat' split) <;> simp (maxDischargeDepth := 40) [h]
@[simp] theorem cfgPut_kept {s0 s : State} (off size v) (h : Kept s0 s) : Kept s0 (s.cfgPut off size v) := by
  unfold State.cfgPut; simp (maxDischargeDepth := 40) [h]
@[simp] theorem winErr_kept {s0 s : State} (reason bar2) (h : Kept s0 s) : Kept s0 (s.winErr reason bar2) := by
  unfold State.winErr; simp (maxDischargeDepth := 40) [h]
@[simp] theorem hostRead_kept {s0 s : State} (poisoned data) (h : Kept s0 s) : Kept s0 (s.hostRead poisoned data) := by
  unfold State.hostRead; simp (maxDischargeDepth := 40) [h]
@[simp] theorem hostError_kept {s0 s : State} (write size reason bar2) (h : Kept s0 s) : Kept s0 (s.hostError write size reason bar2) := by
  unfold State.hostError; simp (maxDischargeDepth := 40) [h]
@[simp] theorem hostCtl_kept {s0 s : State} (write off size data bar2) (h : Kept s0 s) : Kept s0 (s.hostCtl write off size data bar2) := by
  unfold State.hostCtl; simp only []; (repeat' split) <;> simp (maxDischargeDepth := 40) [h]
@[simp] theorem accEnds_kept {s0 s : State} (a) (h : Kept s0 s) : Kept s0 (s.accEnds a) := by
  unfold State.accEnds; split <;> simp (maxDischargeDepth := 40) [h]
@[simp] theorem keepAcc_kept {s0 s : State} (a) (h : Kept s0 s) : Kept s0 (s.keepAcc a) := by
  unfold State.keepAcc; simp (maxDischargeDepth := 40) [h]
@[simp] theorem winMemory_kept {s0 s : State} (write pa size data) (h : Kept s0 s) : Kept s0 (s.winMemory write pa size data) := by
  unfold State.winMemory
  refine keepAcc_kept _ (kept_foldl_fst _ _ (newId_kept h) (fun z x => ?_))
  split <;> simp (maxDischargeDepth := 40)
@[simp] theorem winPort_kept {s0 s : State} (write n pa size data) (h : Kept s0 s) : Kept s0 (s.winPort write n pa size data) := by
  unfold State.winPort; split
  · simp (maxDischargeDepth := 40) [h]
  · refine keepAcc_kept _ (kept_foldl_fst _ _ (newId_kept h) (fun z x => ?_))
    simp (maxDischargeDepth := 40)
@[simp] theorem storeEnds_kept {s0 s : State} (c i status) (h : Kept s0 s) : Kept s0 (s.storeEnds c i status) := by
  unfold State.storeEnds; split <;> simp (maxDischargeDepth := 40) [h]
@[simp] theorem loadEnds_kept {s0 s : State} (c i pa status line) (h : Kept s0 s) : Kept s0 (s.loadEnds c i pa status line) := by
  unfold State.loadEnds; simp only []; (repeat' split) <;> simp (maxDischargeDepth := 40) [h]
@[simp] theorem pieceEnds_kept {s0 s : State} (r) (h : Kept s0 s) : Kept s0 (s.pieceEnds r) := by
  unfold State.pieceEnds; split <;> simp (maxDischargeDepth := 40) [h]
@[simp] theorem devReturns_kept {s0 s : State} (d status val) (h : Kept s0 s) : Kept s0 (s.devReturns d status val) := by
  unfold State.devReturns; split <;> simp (maxDischargeDepth := 40) [h]
@[simp] theorem ncReturns_kept {s0 s : State} (r) (h : Kept s0 s) : Kept s0 (s.ncReturns r) := by
  unfold State.ncReturns; split <;> simp (maxDischargeDepth := 40) [h]
@[simp] theorem tickTime_kept {s0 s : State} (h : Kept s0 s) : Kept s0 (s.tickTime) := by
  unfold State.tickTime; simp (maxDischargeDepth := 40) [h]
@[simp] theorem tickCores_kept {s0 s : State} (h : Kept s0 s) : Kept s0 (s.tickCores) := by
  unfold State.tickCores; simp (maxDischargeDepth := 40) [h]
@[simp] theorem messagePs0_kept {s0 s : State} (h : Kept s0 s) : Kept s0 (s.messagePs0) := by
  unfold State.messagePs0; simp (maxDischargeDepth := 40) [h]
@[simp] theorem rouseFor_kept {s0 s : State} (m) (h : Kept s0 s) : Kept s0 (s.rouseFor m) := by
  unfold State.rouseFor; simp (maxDischargeDepth := 40) [h]
@[simp] theorem rouse_kept {s0 s : State} (h : Kept s0 s) : Kept s0 (s.rouse) := by
  unfold State.rouse; simp (maxDischargeDepth := 40) [h]
@[simp] theorem tickSlices_kept {s0 s : State} (h : Kept s0 s) : Kept s0 (s.tickSlices) := by
  unfold State.tickSlices; simp (maxDischargeDepth := 40) [h]
@[simp] theorem tickIo_kept {s0 s : State} (h : Kept s0 s) : Kept s0 (s.tickIo) := by
  unfold State.tickIo; simp (maxDischargeDepth := 40) [h]
@[simp] theorem tickFabric_kept {s0 s : State} (h : Kept s0 s) : Kept s0 (s.tickFabric) := by
  unfold State.tickFabric; simp (maxDischargeDepth := 40) [h]
/-- Time passes by one tick, and nothing else of what operations leave changes. -/
theorem later_kept {s t : State} (h : Kept s t) : Kept { s with now := s.now + 1 } { t with now := t.now + 1 } :=
  ⟨h.pending, h.fuses, congrArg (· + 1) h.now, fun m => ⟨(h.mem ⟨m.dram, m.chk, m.mbx⟩).dram, (h.mem ⟨m.dram, m.chk, m.mbx⟩).chk,
    (h.mem ⟨m.dram, m.chk, m.mbx⟩).mbx⟩⟩

/-- A tick adds one to the time, and leaves what every operation leaves. -/
theorem tick_kept (s : State) : Kept { s with now := s.now + 1 } s.tick := by
  unfold State.tick; simp only []; split
  · exact kept_refl _
  · split
    · exact later_kept (tickCores_kept (kept_refl s))
    · exact tickFabric_kept (later_kept (countBlocks_kept (tickCores_kept (kept_refl s))))

end Sys2Proof.Machine
end

