-- ==== Sys2Proof/Laws/Memory.lean ====
section
/-! SUPPORT. Reads of a memory after writes of it: a byte reads back, other bytes are as before, and a number written over bytes reads back. That
every write keeps the canonical form is `Memory.wf_put` and `Memory.wf_putN` of `Sys2Proof.Laws.Kept`. -/

namespace Sys2Proof.Machine

@[simp] theorem Memory.get_put (m : List Host.Cell) (a b : Nat) (v : Byte) : Memory.get (Memory.put m a v) b = if b = a then v else Memory.get m b :=
  Tab.get_put 0 m a b v

theorem Memory.get_put_same (m : List Host.Cell) (a : Nat) (v : Byte) : Memory.get (Memory.put m a v) a = v := by rw [Memory.get_put, if_pos rfl]

theorem Memory.get_put_ne (m : List Host.Cell) (a b : Nat) (v : Byte) (h : b ≠ a) : Memory.get (Memory.put m a v) b = Memory.get m b := by
  rw [Memory.get_put, if_neg h]

/-- A byte outside those written is as before. -/
theorem Memory.get_putN_ne : ∀ (n : Nat) (m : List Host.Cell) (a v b : Nat), b < a ∨ a + n ≤ b → Memory.get (Memory.putN m a n v) b = Memory.get m b
  | 0, _, _, _, _, _ => rfl
  | n + 1, m, a, v, b, h => by
    rw [Memory.putN, Memory.get_putN_ne n _ _ _ _ (by omega), Memory.get_put_ne _ _ _ _ (by omega)]

/-- Bytes read see nothing but themselves. -/
theorem Memory.getN_congr : ∀ (n : Nat) (m k : List Host.Cell) (a : Nat), (∀ b, a ≤ b → b < a + n → Memory.get m b = Memory.get k b) →
    Memory.getN m a n = Memory.getN k a n
  | 0, _, _, _, _ => rfl
  | n + 1, m, k, a, h => by
    rw [Memory.getN, Memory.getN, h a (Nat.le_refl _) (by omega), Memory.getN_congr n m k (a + 1) (fun b h1 h2 => h b (by omega) (by omega))]

/-- A number written over bytes reads back, cut to those bytes. -/
theorem Memory.getN_putN : ∀ (n : Nat) (m : List Host.Cell) (a v : Nat), Memory.getN (Memory.putN m a n v) a n = v % 256 ^ n
  | 0, _, _, v => by rw [Memory.getN, Nat.pow_zero, Nat.mod_one]
  | n + 1, m, a, v => by
    have e : v % 256 ^ (n + 1) = v % 256 + 256 * (v / 256 % 256 ^ n) := by rw [Nat.pow_succ, Nat.mul_comm (256 ^ n) 256, Nat.mod_mul]
    rw [Memory.getN, Memory.putN, Memory.get_putN_ne n _ _ _ _ (.inl (Nat.lt_succ_self a)), Memory.get_put_same, Memory.getN_putN n _ (a + 1) (v / 256), e,
      BitVec.toNat_ofNat]

/-- Bytes apart from those written read as before. -/
theorem Memory.getN_putN_ne (n k : Nat) (m : List Host.Cell) (a v b : Nat) (h : b + k ≤ a ∨ a + n ≤ b) :
    Memory.getN (Memory.putN m a n v) b k = Memory.getN m b k :=
  Memory.getN_congr k _ _ b (fun c h1 h2 => Memory.get_putN_ne n m a v c (by omega))

end Sys2Proof.Machine
end

