-- ==== Sys2Proof/WellFormed.lean ====
section
/-! DEFINITION. Well-formed commands: every operand that names a unit names one the package has (R1, R2, R3 and the unit counts
of the register headers). -/

namespace Sys2Proof

/-- R1, R2: an issue names a core and a context slot of it. -/
def Ins.wf (h : Ins) : Bool := decide (h.core < 240) && decide (h.ctx < 1024)

/-- A register source names one of 32 registers. -/
def Src2.wf : Src2 → Bool
  | .reg r => decide (r < 32)
  | .imm _ => true

/-- R1, R2: a requester that is a context names one the package has. -/
def Req.wf : Req → Bool
  | .host => true
  | .ctx c k => decide (c < 240) && decide (k < 1024)
  | .kiln => true

/-- A load or store moves 1, 2, 4 or 8 bytes; an FP access moves 4 or 8. -/
def MemOp.wf (m : MemOp) : Bool := decide (m.sz ≤ 3) && (!m.fp || decide (2 ≤ m.sz))

/-- A command is well formed. -/
def Instr.wf : Instr → Bool
  | .integerAlu h _ rd rs1 b => h.wf && decide (rd < 32) && decide (rs1 < 32) && b.wf
  | .multiply h _ rd rs1 rs2 => h.wf && decide (rd < 32) && decide (rs1 < 32) && decide (rs2 < 32)
  | .divide h _ rd rs1 rs2 => h.wf && decide (rd < 32) && decide (rs1 < 32) && decide (rs2 < 32)
  | .dividerFree core _ => decide (core < 240)
  | .fpOperation h _ _ _ rd rs1 rs2 rs3 => h.wf && decide (rd < 32) && decide (rs1 < 32) && decide (rs2 < 32) && decide (rs3 < 32)
  | .fpDivide h _ _ _ rd rs1 rs2 => h.wf && decide (rd < 32) && decide (rs1 < 32) && decide (rs2 < 32)
  | .conditionalBranch h _ rs1 rs2 _ => h.wf && decide (rs1 < 32) && decide (rs2 < 32)
  | .directJump h rd _ => h.wf && decide (rd < 32)
  | .indirectJump h rd rs1 _ => h.wf && decide (rd < 32) && decide (rs1 < 32)
  | .instructionFetch core ctx _ _ => decide (core < 240) && decide (ctx < 1024)
  | .load h m rd rs1 _ _ => h.wf && m.wf && decide (rd < 32) && decide (rs1 < 32)
  | .loadAfterDrain core ctx _ => decide (core < 240) && decide (ctx < 1024)
  | .store h m rs2 rs1 _ _ => h.wf && m.wf && decide (rs2 < 32) && decide (rs1 < 32)
  | .storeBufferDrain core ctx => decide (core < 240) && decide (ctx < 1024)
  | .deferredStoreFault core ctx => decide (core < 240) && decide (ctx < 1024)
  | .amo h _ sz rd rs1 rs2 => h.wf && decide (sz = 2 ∨ sz = 3) && decide (rd < 32) && decide (rs1 < 32) && decide (rs2 < 32)
  | .lr h sz rd rs1 => h.wf && decide (sz = 2 ∨ sz = 3) && decide (rd < 32) && decide (rs1 < 32)
  | .sc h sz rd rs1 rs2 => h.wf && decide (sz = 2 ∨ sz = 3) && decide (rd < 32) && decide (rs1 < 32) && decide (rs2 < 32)
  | .fence h => h.wf
  | .fenceI h => h.wf
  | .csrAccess h _ csr rd src => h.wf && decide (csr < 4096) && decide (rd < 32) && decide (src < 32)
  | .ecall h => h.wf
  | .ebreak h => h.wf
  | .illegalInstruction h => h.wf
  | .mret h => h.wf
  | .sret h => h.wf
  | .wfi h => h.wf
  | .sfenceVma h rs1 rs2 => h.wf && decide (rs1 < 32) && decide (rs2 < 32)
  | .cboClean h rs1 => h.wf && decide (rs1 < 32)
  | .cboFlush h rs1 => h.wf && decide (rs1 < 32)
  | .cboInval h rs1 => h.wf && decide (rs1 < 32)
  | .cboZero h rs1 => h.wf && decide (rs1 < 32)
  | .ctxYield h => h.wf
  | .ctxWait h rs1 => h.wf && decide (rs1 < 32)
  | .ctxSleep h rs1 => h.wf && decide (rs1 < 32)
  | .ctxWake h rs1 => h.wf && decide (rs1 < 32)
  | .ctxSpawn h rd rs1 rs2 => h.wf && decide (rd < 32) && decide (rs1 < 32) && decide (rs2 < 32)
  | .ctxExit h => h.wf
  | .interruptTaken core ctx => decide (core < 240) && decide (ctx < 1024)
  | .longHint core => decide (core < 240)
  | .heldFetchHint core ctx => decide (core < 240) && decide (ctx < 1024)
  | .contextPark core ctx => decide (core < 240) && decide (ctx < 1024)
  | .contextUnpark core islot => decide (core < 240) && decide (islot < 8)
  | .quantumExpiry core ctx => decide (core < 240) && decide (ctx < 1024)
  | .recordFill core ctx => decide (core < 240) && decide (ctx < 1024)
  | .recordBusError core ctx => decide (core < 240) && decide (ctx < 1024)
  | .parkedStoreError core ctx => decide (core < 240) && decide (ctx < 1024)
  | .wakeDelivery core => decide (core < 240)
  | .spawnRequest core => decide (core < 240)
  | .spawnResponse core => decide (core < 240)
  | .deadlineExpiry core => decide (core < 240)
  | .mtimerCompare core => decide (core < 240)
  | .stimerCompare core ctx => decide (core < 240) && decide (ctx < 1024)
  | .mctxdataAccess h _ rd src => h.wf && decide (rd < 32) && decide (src < 32)
  | .mctxholdWrite h _ rd src => h.wf && decide (rd < 32) && decide (src < 32)
  | .sxltWrite h _ rd src => h.wf && decide (rd < 32) && decide (src < 32)
  | .sxltbaseWrite h _ rd src => h.wf && decide (rd < 32) && decide (src < 32)
  | .sxltinvWrite h _ rd src => h.wf && decide (rd < 32) && decide (src < 32)
  | .pmpWrite h _ csr rd src => h.wf && decide (csr < 4096) && decide (rd < 32) && decide (src < 32)
  | .ifClaim h _ _ rd src => h.wf && decide (rd < 32) && decide (src < 32)
  | .ifEoi h _ _ rd src => h.wf && decide (rd < 32) && decide (src < 32)
  | .ifPost h _ _ rd src => h.wf && decide (rd < 32) && decide (src < 32)
  | .routeEvent route _ => decide (route < 4096)
  | .deliver core => decide (core < 240)
  | .complete => true
  | .irtRouteWrite q n _ => q.wf && decide (n < 4096)
  | .msiDoorbell q _ => q.wf
  | .walkStart core ctx _ => decide (core < 240) && decide (ctx < 1024)
  | .walkRoundDecision core _ => decide (core < 240)
  | .adFlagOrReturn core _ => decide (core < 240)
  | .shootdownReceipt core => decide (core < 240)
  | .shootdownLocalDone core => decide (core < 240)
  | .shootdownAck => true
  | .l2MissRequest core _ => decide (core < 240)
  | .requestLaunch die => decide (die < 12)
  | .creditReturn die => decide (die < 12)
  | .rdS slice => decide (slice < 16)
  | .rdM slice => decide (slice < 16)
  | .upg slice => decide (slice < 16)
  | .amoH slice => decide (slice < 16)
  | .homeAdmission slice _ => decide (slice < 16)
  | .wb slice => decide (slice < 16)
  | .evc slice => decide (slice < 16)
  | .snpAck slice => decide (slice < 16)
  | .snpData slice => decide (slice < 16)
  | .dataS core _ => decide (core < 240)
  | .dataM core => decide (core < 240)
  | .amoRet core => decide (core < 240)
  | .ackUpg core => decide (core < 240)
  | .wbAck core => decide (core < 240)
  | .evcAck core => decide (core < 240)
  | .snpInv core => decide (core < 240)
  | .snpShd core => decide (core < 240)
  | .heldSnoopAnswer core _ => decide (core < 240)
  | .ncRead slice => decide (slice < 16)
  | .ncWrite slice => decide (slice < 16)
  | .dramReadComplete mc _ => decide (mc < 16)
  | .reelRequest slice => decide (slice < 16)
  | .rsnpShd slice => decide (slice < 16)
  | .rsnpInv slice => decide (slice < 16)
  | .rsnpAck slice => decide (slice < 16)
  | .rsnpData slice => decide (slice < 16)
  | .relayedResponse slice => decide (slice < 16)
  | .forwardedRelease slice => decide (slice < 16)
  | .remoteReleaseAck slice => decide (slice < 16)
  | .rangeCleanScan slice => decide (slice < 16)
  | .rangeCleanDone => true
  | .trackerTimeout slice _ => decide (slice < 16)
  | .sidebandPoll die _ => decide (die < 12)
  | .slipFrameReceive die g beats => decide (die < 12) && decide (g < 16) && decide (beats.length = 2)
  | .slipReplayRequest die g _ => decide (die < 12) && decide (g < 16)
  | .slipErrorWindow die g => decide (die < 12) && decide (g < 16)
  | .slipRepairDone die g _ => decide (die < 12) && decide (g < 16)
  | .streamHandoverEnd die g => decide (die < 12) && decide (g < 16)
  | .refresh mc => decide (mc < 16)
  | .spdSensorPoll _ => true
  | .alertN mc => decide (mc < 16)
  | .channelRetrainDone mc _ => decide (mc < 16)
  | .patrolRead mc _ => decide (mc < 16)
  | .memrasWindow => true
  | .ectWriteRaw q => q.wf
  | .ectWriteEnc q => q.wf
  | .ectReadRaw q => q.wf
  | .ectReadDec q => q.wf
  | .ectOpDone => true
  | .fireGranuleDone => true
  | .mscScanDone => true
  | .reelFlitTransmit k => decide (k < 10)
  | .reelFlitReceive k _ _ => decide (k < 10)
  | .reelSilenceTimeout k => decide (k < 10)
  | .reelRetrainDone k _ _ => decide (k < 10)
  | .reelRetrainTimeout k => decide (k < 10)
  | .resync src _ => decide (src < 8)
  | .resyncAck src _ _ => decide (src < 8)
  | .bundleQuiesced peer => decide (peer < 8)
  | .reelTrainingStage k _ _ _ _ _ => decide (k < 10)
  | .hello k _ => decide (k < 10)
  | .krelay src _ => decide (src < 8)
  | .formationTimeout => true
  | .tsyncSend => true
  | .tsync k _ => decide (k < 10)
  | .loss p q => decide (p < 8) && decide (q < 8)
  | .expel x => decide (x < 8)
  | .deputyWaitExpiry => true
  | .lossTimeout => true
  | .ncrd slice => decide (slice < 16)
  | .ncwr slice => decide (slice < 16)
  | .nccpl => true
  | .partitionDrainDone p => decide (p < 64)
  | .coreResetDone core => decide (core < 240)
  | .mbxDoorbell q p _ => q.wf && decide (p < 64)
  | .deferredCommandStart _ => true
  | .replyWrite => true
  | .noticeWrite => true
  | .echo _ => true
  | .getInfo _ => true
  | .getStatus _ => true
  | .setMode _ => true
  | .getMode _ => true
  | .partCreate _ => true
  | .partAssignCores _ => true
  | .partAssignMemory _ => true
  | .partAssignIo _ => true
  | .partSetQos _ => true
  | .partEnable _ => true
  | .partDisable _ => true
  | .partDestroy _ => true
  | .partQuery _ => true
  | .pwrSetPackage _ => true
  | .pwrSetPstate _ => true
  | .pwrQuery _ => true
  | .pwrSetLimit _ => true
  | .memFire _ => true
  | .memScrubRange _ => true
  | .scrubRangeDone => true
  | .memSetPatrol _ => true
  | .memRetirePage _ => true
  | .memMarkDevice _ => true
  | .memBankAccept _ => true
  | .memCleanRange _ => true
  | .linkQuery _ => true
  | .linkRepair _ => true
  | .linkTest _ _ _ _ => true
  | .reelEnable _ => true
  | .reelDisable _ => true
  | .logRead _ => true
  | .logClear _ => true
  | .dieOffline _ => true
  | .dieOnline _ _ _ => true
  | .pmuWindowSet _ => true
  | .fwStage _ _ => true
  | .fwActivate _ => true
  | .fwSwitch => true
  | .coreStateEntry core => decide (core < 240)
  | .coreExitDone core => decide (core < 240)
  | .dieStateEntry die => decide (die < 12)
  | .dieExitDone die => decide (die < 12)
  | .pwrSpillWrite q c _ => q.wf && decide (c < 240)
  | .pwrCorectlWrite q c _ => q.wf && decide (c < 240)
  | .pwrDiectlWrite q d _ => q.wf && decide (d < 12)
  | .pkgQuiesceDone => true
  | .pkgEntryStepDone => true
  | .packageWake src _ => decide (src < 32)
  | .pkgExitStepDone => true
  | .restoreReadyTimeout _ _ => true
  | .deadlinePrewake _ _ => true
  | .reelWakePattern k _ _ => decide (k < 10)
  | .wakeInChange i _ => decide (i < 2)
  | .wakeInStuck i => decide (i < 2)
  | .wakeInUnstuck i => decide (i < 2)
  | .wakeMaskExpiry _ _ => true
  | .vfTransitionDone die => decide (die < 12)
  | .powerSample _ _ => true
  | .thermalSample _ _ => true
  | .hotNChange _ => true
  | .memhotNChange _ => true
  | .thermtrip _ _ => true
  | .perstChange _ => true
  | .endpointLinkDown => true
  | .flr => true
  | .busMasterEnableClear => true
  | .busMasterEnableSet => true
  | .msixEnableChange _ => true
  | .msixUnmask _ => true
  | .pmcsrWrite _ => true
  | .windowAccess _ _ _ _ => true
  | .bar2Access _ _ _ _ => true
  | .ringEnable r _ => decide (r < 4)
  | .ringDisable r _ => decide (r < 4)
  | .crpiWrite r _ => decide (r < 4)
  | .ringReadCompletion tag _ _ => decide (tag < 32)
  | .ringReadTimeout tag => decide (tag < 32)
  | .aspmL1Entry => true
  | .pmeTurnOff => true
  | .dmaChannelEnable q ch _ => q.wf && decide (ch < 256)
  | .dmaChannelDisable q ch _ => q.wf && decide (ch < 256)
  | .dmaChpiWrite q ch _ => q.wf && decide (ch < 256)
  | .dmaTriggerNotice ch => decide (ch < 256)
  | .triggerLineReadDone ch => decide (ch < 256)
  | .dmaNextDescriptor e => decide (e < 8)
  | .descriptorArrival e => decide (e < 8)
  | .dmaReadReturn e => decide (e < 8)
  | .dmaWriteAck e => decide (e < 8)
  | .completionRecordAck ch => decide (ch < 256)
  | .barrierRelease ch => decide (ch < 256)
  | .dmaDrainDone ch => decide (ch < 256)
  | .counterWrap core n => decide (core < 240) && decide (3 ≤ n) && decide (n ≤ 10)
  | .sampleRecord core n => decide (core < 240) && decide (3 ≤ n) && decide (n ≤ 10)
  | .sampleSpill core => decide (core < 240)
  | .sampleSpillAck core => decide (core < 240)
  | .smpRingEnable q die l _ => q.wf && decide (die < 12) && decide (l < 20)
  | .blockCounterWrap _ _ _ => true
  | .bwWindowInterval w => decide (w < 32)
  | .aonReset => true
  | .aonResetRelease samples => decide (samples.length = 16)
  | .bootImageVerified _ _ => true
  | .glbBootimgGo q _ _ => q.wf
  | .railPowerGood rail => decide (rail < 16)
  | .railPgTimeout rail => decide (rail < 16)
  | .bootStageComplete _ => true
  | .packageReset => true
  | .glbResetPkg q _ => q.wf
  | .glbResetKiln q _ => q.wf
  | .kilnWatchdog => true
  | .pgFall rail => decide (rail < 16)
  | .rptEnable q n _ => q.wf && decide (n < 20)
  | .rptLinkDown _ n => decide (n < 20)
  | .rptDrainDone n => decide (n < 20)
  | .upstreamTlp n _ _ _ _ _ => decide (n < 20)
  | .downstreamCompletion n _ _ _ => decide (n < 20)
  | .rootPortCplTimeout n _ => decide (n < 20)
  | .configRetry n _ => decide (n < 20)
  | .registerWrite _ q _ _ _ => q.wf
  | .pkgAutoEntry => true
  | .deviceAccessCompletion _ => true
  | .rootPortLinkUp n _ _ _ => decide (n < 20)
  | .rootPortL1Change n _ => decide (n < 20)
  | .endpointLinkUp => true
  | .aspmL0sEntry => true
  | .flrComplete => true
  | .forwardedClockFailure die g => decide (die < 12) && decide (g < 16)

end Sys2Proof
end

