-- ==== Sys2Proof/Tests/Slice0.lean ====
section
/-! SUPPORT. Tests. For each statement of the certificate, states and operands that meet the hypotheses of each of its clauses (`meets_…`); small tests of
single commands whose expected values come from the standards the spec names (RISC-V, IEEE 754, RFC 3720); ill-formed commands that the check refuses. -/

open Sys2Proof Sys2Proof.Machine

namespace Sys2Proof.Tests

set_option maxRecDepth 100000
set_option linter.unusedSimpArgs false
set_option Elab.async false

/-- A state with registers set, one field at a time. -/
def withRegs (s : State) (l : List (Fld × Nat × Nat × Nat)) : State := l.foldl (fun s e => s.fput e.1 e.2.1 e.2.2.1 e.2.2.2) s

/-- Context 5 of core 0: active in slot 0 in M-mode, its next instructions fetched, FS on. -/
def ctxA : Ctx :=
  { st := .active, prv := .m, pc := 0x1000, fbuf := [{ lo := 0x1000, hi := 0x1010, ready := 0 }], mstatus := 0x6000, fpHere := true
    x := [(1, 0x2000), (2, 7)], f := [(1, 0x3FF0000000000000), (2, 0x4000000000000000)] }

/-- Core 0 with that context. -/
def coreA : Core := { slots := some 5 :: List.replicate 7 none, ctxs := [(5, ctxA)] }

/-- Core 0 in partition 0, which has PLATFORM privilege and the first 64 GiB of 512 GiB of fired memory. -/
def base : State :=
  withRegs { ({} : State) with now := 1000, cores := [(0, coreA)] }
    [(⟨.prtCore, 0, 1⟩, 0, 0, 1), (.prtCtlState, 0, 0, 2), (.prtCtlPlat, 0, 0, 1), (⟨.prtWin, 0, 64⟩, 0, 0, 1 + 64 * 2 ^ 32), (.mcCfgCapg, 0, 0, 32),
      (⟨.glbFired, 0, 64⟩, 0, 0, 2 ^ 64 - 1)]

/-- The base state with its context changed. -/
def baseX (f : Ctx → Ctx) : State := base.modCtx 0 5 f
/-- The base state with its core changed. -/
def baseK (f : Core → Core) : State := base.modCore 0 f

/-- An uncompressed instruction of context 5 of core 0. -/
def ins : Ins := { core := 0, ctx := 5, rvc := false, raw := 0x73 }
/-- A line of data. -/
def lineA : LineData := BitVec.ofNat 512 0x1122334455667788
/-- A held line. -/
def held (st : L2St) : L2Line := { st := st, way := 0, data := lineA, performed := true }
/-- The base state with one message arrived. -/
def netS (m : Msg) : State := { base with fab := { base.fab with net := [{ m with at_ := 600 }] } }
/-- The same with its core changed. -/
def netK (m : Msg) (f : Core → Core) : State := (netS m).modCore 0 f
/-- The base state with the controllers up and pieces of its home changed: the MSC, the duplicate entries and arrivals of slice 8, which homes line 0x80. -/
def homeB (msc : Tab Msc) (dup : List Dup) (arr : List Msg) (trk : List Trk) : State :=
  { withRegs base [(.mcCfgUp, 8, 0, 1), (.mcCfgD32, 0, 0, 1)] with home := { msc := msc, slices := [(8, { dup := dup, arr := arr, trk := trk })] } }
/-- The same with one message arrived. -/
def homeN (m : Msg) (msc : Tab Msc) (dup : List Dup) : State :=
  { homeB msc dup [] [] with fab := { ({} : Fab) with net := [{ m with line := 0x80, slice := 8, at_ := 600 }] } }
/-- The same with a message received from package 1. -/
def homeR (r : RMsg) (msc : Tab Msc) (dup : List Dup) (vec : BitVec 8) (trk : List Trk) (fwd : List Msg) : State :=
  { withRegs (homeB msc dup [] trk) [(.reelSysMembers, 0, 0, 3)] with
      home := { msc := msc, slices := [(8, { dup := dup, trk := trk, fwd := fwd })], vec := if vec = 0 then [] else [(0x80, vec)] }
      reel := { ({} : Reel) with rx := [{ port := 0, at_ := 600, msg := { r with src := 1 } }] } }
/-- An MSC line. -/
def mscA : Msc := { data := lineA, d := false, p := false, rmt := false, way := 0 }
/-- The base state with one kiln command of ring 0 accepted: its operation and parameters. -/
def cmdS (op : Nat) (ps : List W64) (s : State) : State :=
  { s with kiln := { s.kiln with cmds := [{ id := 1, src := .ring 0, pkt := BitVec.ofNat 64 op :: ps, started := true }] } }
/-- The endpoint's link up, with Memory Space and Bus Master enabled. -/
def epUp (s : State) : State := let s := { s with ep := { s.ep with perst := false, link := 1 } }; s.setCfg 0x04 (s.cfgW 0x04 ||| 6)

/-- With nothing but unit 0 of a kind written, every other unit holds its reset value. -/
theorem onlyZero (k : RegKind) (s : State) (h : (Tab.get [] s.cs k.num).all (fun e => e.1 == 0) = true) (q j : Nat) (g : q ≠ 0) :
    s.rget k q j = k.resetVal q j := by
  have e : ∀ m : Tab (Tab W64), m.all (fun e => e.1 == 0) = true → Tab.get [] m q = [] := by
    intro m
    induction m with
    | nil => exact fun _ => rfl
    | cons e m ih =>
      intro h
      simp only [List.all_cons, Bool.and_eq_true, beq_iff_eq] at h
      rw [Tab.get, if_neg (h.1 ▸ g)]
      exact ih h.2
  rw [State.rget, e _ h]
  rfl

/-- With no interrupt route written, none has been sent. -/
theorem noSent (s : State) (h : Tab.get [] s.cs RegKind.irtRoute.num = []) (r : Nat) : s.fget .irtRouteSent r = 0 := by
  have e : s.rget .irtRoute r 0 = RegKind.resetVal .irtRoute r 0 := by rw [State.rget, h]; rfl
  show bits (s.rget .irtRoute r 0) _ _ = 0
  rw [e, RegKind.resetVal]
  split <;> decide

theorem prtCore_reset (i j : Nat) : RegKind.prtCore.resetVal i j = 0 := rfl
theorem prtIo_reset (i j : Nat) : RegKind.prtIo.resetVal i j = 0 := rfl

/-- Each clause of `Obligations.IntegerAndControlInstructions` has a state and operands that meet its hypotheses. -/
theorem meets_IntegerAndControlInstructions :
    (∃ b : Src2, Issues base ins { lane := 2, regs := [3, 1] ++ src2Regs b, safe := true : IssQ }) ∧
    (Issues base ins { lane := 0, regs := [3, 1, 2], safe := true : IssQ }) ∧
    ((base.core ins.core).divu = none ∧ Issues base ins { lane := 0, regs := [3, 1, 2] : IssQ }) ∧
    (∃ s : State, ∃ u ∈ ((s.core 0).divu), u.fp = false ∧ u.free ≤ s.cyc 0) ∧
    (∃ s : State, ∃ u ∈ ((s.core 0).fdivu), u.fp = true ∧ u.free ≤ s.cyc 0) ∧
    (Issues base ins { lane := 0, regs := [1, 2] : IssQ }) ∧
    (Issues base ins { lane := 0, regs := [3] : IssQ }) ∧
    (Issues base ins { lane := 0, regs := [3, 1] : IssQ }) := by
  refine ⟨⟨(Src2.reg 2), ?_⟩, ?_, ?_, ⟨(baseK (fun k => { k with divu := some { ctx := 5, rd := 3, fp := false, val := 9, flags := 0, free := 1000 } })),
    ?_⟩, ⟨(baseK (fun k => { k with fdivu := some { ctx := 5, rd := 3, fp := true, val := 9, flags := 3, free := 1000 } })), ?_⟩, ?_, ?_, ?_⟩
  all_goals first | decide +kernel | (simp only [Issues, Passes, PassesDrained, FpReady, CsrCommand]; decide +kernel)

def pmpS : State := baseX (fun x => { x with prv := .u })
def xltS : State := baseX (fun x => { x with prv := .u, xlt := 12 })
def ent1 : SbEnt := { ctx := 5, va := 0x2000, pa := 0x2000, sz := 3, val := 0x55, mt := 0, fp := false, filled := 900 }
def sbS : State := baseK (fun k => { k with sb := [ent1] })
def lineS : State := baseK (fun k => { k with l2 := [(0x80, held .m)], l1d := [0x80], sb := [{ ent1 with ctx := 6 }] })
def drS : State := baseK (fun k => { k with l2 := [(0x80, held .m)], l1d := [0x80], sb := [ent1] })
def acc3 : Acc := { op := .load, kind := 0, va := 0x2000, pa := 0x2000, rd := 3, sz := 3, stage := 3 }
def lad : State := baseK (fun k => { k with ctxs := [(5, { ctxA with acc := some acc3 })] })
def dfS : State := baseX (fun x => { x with dfault := some (900, 0x2000, 0x1081) })
def amoS : State := baseX (fun x => { x with dwait := true })
def amoD : State := baseX (fun x => { x with x := [(1, 0xF00000A000000)] })
def heldK : Core := { coreA with l2 := [(0x80, held .m)], resv := [{ ctx := 5, line := 0x80 }, { ctx := 6, line := 0x80 }] }
def heldK2 : Core := { heldK with resv := [] }
def accL : Acc := { op := .load, kind := 0, va := 0x2000, pa := 0x2000, rd := 3, sz := 3, arg := 7 }
def fetS : State := baseK (fun k => { k with l2 := [(0x40, held .s)], l1i := [0x40], ctxs := [(5, { ctxA with fnext := 0x1010 })] })
def fetF : State := baseX (fun x => { x with prv := .u, xlt := 12, fnext := 0x800000000000 })
def fetT : State := baseX (fun x => { x with fbuf := [], ffault := some { cause := 12, tval := 0x2000 } })

/-- Each clause of `Obligations.FpInstructions` has a state and operands that meet its hypotheses. -/
theorem meets_FpInstructions :
    ((base.ctx ins.core ins.ctx).fs ≠ 0 ∧ (base.ctx ins.core ins.ctx).fpHere = true ∧ (roundModeOf (if FpOp.madd.rounds = true then RoundMode.dyn
      else RoundMode.rne) (bits (base.ctx ins.core ins.ctx).fcsr 5 3) = some RoundMode.rne) ∧ Issues base ins { lane := 0, regs := fpRegs FpOp.madd 3 1 2 4, safe := true : IssQ }) ∧
    ((base.ctx ins.core ins.ctx).fs ≠ 0 ∧ (base.ctx ins.core ins.ctx).fpHere = true ∧ roundModeOf RoundMode.dyn (bits (base.ctx ins.core
      ins.ctx).fcsr 5 3) = some RoundMode.rne ∧ (base.core ins.core).fdivu = none ∧ (Issues base ins { lane := 0, regs := [3 + 32, 1 + 32] ++ if false = true then [] else [2 + 32] : IssQ })) := by
  refine ⟨?_, ?_⟩
  all_goals first | decide +kernel | (simp only [Issues, Passes, PassesDrained, FpReady, CsrCommand]; decide +kernel)

/-- Each clause of `Obligations.DataAccessCheck` has a state and operands that meet its hypotheses. -/
theorem meets_DataAccessCheck :
    (0x2001 % 8 ≠ 0 ∧ 4 ≠ 0) ∧
    ((0x800000000000 % 8 = 0 ∨ 4 = 0) ∧ xltS.xlate ins.core ins.ctx AKind.load 0x800000000000 = XRes.fault { cause := AKind.load.pageFault, tval := 0x800000000000#64 : Trap }) ∧
    ((0x2000 % 8 = 0 ∨ 4 = 0) ∧ pmpS.xlate ins.core ins.ctx AKind.load 0x2000 = XRes.ok 0x2000 0 ∧ ((pmpS.core ins.core).pmpOk ((pmpS.ctx ins.core
      ins.ctx).effPrv AKind.load) AKind.load (if 4 = 0 then 0x2000 / 8 * 8 else 0x2000) 8 = false)) ∧
    ((0x1000000000000 % 8 = 0 ∨ 6 = 0) ∧ base.xlate ins.core ins.ctx AKind.amo 0x1000000000000 = XRes.ok 0x1000000000000 2 ∧ ((base.core
      ins.core).pmpOk ((base.ctx ins.core ins.ctx).effPrv AKind.amo) AKind.amo (if 6 = 0 then 0x1000000000000 / 8 * 8 else 0x1000000000000) 8 = true)
      ∧ 2 ≠ 0) ∧
    (∃ r ∈ (base.physReason (base.corePart ins.core) (if 4 = 0 then 0x2000000000 / 8 * 8 else 0x2000000000) 8), (0x2000000000 % 8 = 0 ∨ 4 = 0) ∧
      base.xlate ins.core ins.ctx AKind.load 0x2000000000 = XRes.ok 0x2000000000 0 ∧ ((base.core ins.core).pmpOk ((base.ctx ins.core ins.ctx).effPrv
      AKind.load) AKind.load (if 4 = 0 then 0x2000000000 / 8 * 8 else 0x2000000000) 8 = true) ∧ (false = false ∨ 0 = 0)) ∧
    ((0x2000 % 8 = 0 ∨ 4 = 0) ∧ base.xlate ins.core ins.ctx AKind.load 0x2000 = XRes.ok 0x2000 0 ∧ ((base.core ins.core).pmpOk ((base.ctx ins.core
      ins.ctx).effPrv AKind.load) AKind.load (if 4 = 0 then 0x2000 / 8 * 8 else 0x2000) 8 = true) ∧ (false = false ∨ 0 = 0) ∧ (base.physReason
      (base.corePart ins.core) (if 4 = 0 then 0x2000 / 8 * 8 else 0x2000) 8 = none)) := by
  refine ⟨?_, ?_, ?_, ?_, ?_, ?_⟩
  all_goals decide +kernel

/-- Each clause of `Obligations.Loads` has a state and operands that meet its hypotheses. -/
theorem meets_Loads :
    (∃ m : MemOp, ∃ b ∈ ((sbS.core ins.core).sbHit ins.ctx 0x2004 m.sz), FpReady (sbS.ctx ins.core ins.ctx) m.fp ∧ Issues sbS ins (memQ [if m.fp =
      true then 3 + 32 else 3, 1]) ∧ (Passes sbS ins (memQ [if m.fp = true then 3 + 32 else 3, 1]) AKind.load (BitVec.toNat ((sbS.ctx ins.core
      ins.ctx).ea 1 4)) (2 ^ m.sz) false 4 0x2004 0) ∧ b.covers 0x2004 m.sz = true) ∧
    (∃ m : MemOp, ∃ l ∈ ((lineS.core ins.core).l2.find (0x2000 / 64)), FpReady (lineS.ctx ins.core ins.ctx) m.fp ∧ Issues lineS ins (memQ [if m.fp =
      true then 3 + 32 else 3, 1]) ∧ (Passes lineS ins (memQ [if m.fp = true then 3 + 32 else 3, 1]) AKind.load (BitVec.toNat ((lineS.ctx ins.core
      ins.ctx).ea 1 0)) (2 ^ m.sz) false 4 0x2000 0) ∧ (lineS.core ins.core).sbHit ins.ctx 0x2000 m.sz = none ∧ AccOp.load.servedBy l.st = true ∧
      (lineS.core ins.core).l1d.contains (0x2000 / 64) = true) ∧
    (∃ m : MemOp, FpReady (base.ctx ins.core ins.ctx) m.fp ∧ Issues base ins (memQ [if m.fp = true then 3 + 32 else 3, 1]) ∧ (Passes base ins (memQ
      [if m.fp = true then 3 + 32 else 3, 1]) AKind.load (BitVec.toNat ((base.ctx ins.core ins.ctx).ea 1 0)) (2 ^ m.sz) false 4 0x2000 0) ∧
      (base.core ins.core).sbHit ins.ctx 0x2000 m.sz = none ∧ (base.core ins.core).l2.find (0x2000 / 64) = none) := by
  refine ⟨⟨{ sz := 2, sgn := true, fp := false }, ?_⟩, ⟨{ sz := 3, sgn := true, fp := true }, ?_⟩, ⟨{ sz := 3, sgn := true, fp := false }, ?_⟩⟩
  all_goals first | decide +kernel | (simp only [Issues, Passes, PassesDrained, FpReady, CsrCommand]; decide +kernel)

/-- Each clause of `Obligations.Stores` has a state and operands that meet its hypotheses. -/
theorem meets_Stores :
    (∃ m : MemOp, FpReady (base.ctx ins.core ins.ctx) m.fp ∧ (base.core ins.core).sb.length < 16 ∧ CoreErr.none ≠ CoreErr.sbUe ∧ Issues base ins
      (memQ [if m.fp = true then 2 + 32 else 2, 1]) ∧ (Passes base ins (memQ [if m.fp = true then 2 + 32 else 2, 1]) AKind.store (BitVec.toNat
      ((base.ctx ins.core ins.ctx).ea 1 0)) (2 ^ m.sz) false 6 0x2000 0)) ∧
    (∃ ent ∈ ((drS.core 0).sbHead 5), ∃ l ∈ ((drS.core 0).l2.find (ent.pa / 64)), ent.mt = 0 ∧ (drS.core 0).sbNext ≤ drS.cyc 0 ∧ ent.filled ≤ drS.cyc
      0 ∧ (drS.core 0).clockOn = true ∧ l.st = L2St.m) ∧
    (∃ a ∈ ((lad.ctx 0 5).acc), a.stage = 3 ∧ (lad.core 0).sbHit 5 a.pa a.sz = none ∧ (lad.core 0).runs = true ∧ a.dev = false) ∧
    ((dfS.ctx 0 5).dfault = some (900, 0x2000, 0x1081) ∧ (dfS.ctx 0 5).st = CtxState.active ∧ (dfS.core 0).runs = true ∧ 900 ≤ dfS.cyc 0 ∧ (dfS.ctx 0
      5).acc = none ∧ (dfS.ctx 0 5).inflight ≤ dfS.cyc 0 ∧ (dfS.ctx 0 5).park = none ∧ ((dfS.core 0).slotOf 5).isSome = true) := by
  refine ⟨⟨{ sz := 3, sgn := true, fp := false }, ?_⟩, ?_, ?_, ?_⟩
  all_goals first | decide +kernel | (simp only [Issues, Passes, PassesDrained, FpReady, CsrCommand]; decide +kernel)

/-- Each clause of `Obligations.AtomicsAndCacheOperations` has a state and operands that meet its hypotheses. -/
theorem meets_AtomicsAndCacheOperations :
    (PassesDrained amoS ins (memQ [3, 1, 2]) AKind.amo (BitVec.toNat ((amoS.ctx ins.core ins.ctx).getX 1)) (2 ^ 3) true 6 0x2000 0) ∧
    (PassesDrained amoS ins (memQ [3, 1]) AKind.load (BitVec.toNat ((amoS.ctx ins.core ins.ctx).getX 1)) (2 ^ 3) true 4 0x2000 0) ∧
    (PassesDrained amoS ins (memQ [3, 1, 2]) AKind.store (BitVec.toNat ((amoS.ctx ins.core ins.ctx).getX 1)) (2 ^ 3) true 6 0x2000 0) ∧
    (PassesDrained amoS ins (memQ [1]) AKind.cbo (BitVec.toNat ((amoS.ctx ins.core ins.ctx).getX 1)) 64 true 0 0x2000 0) ∧
    (PassesDrained amoS ins (memQ [1]) AKind.store (BitVec.toNat ((amoS.ctx ins.core ins.ctx).getX 1)) 64 false 0 0x2000 0 ∧ (amoS.core
      ins.core).cboOk ins.ctx 7 1 = true) ∧
    (PassesDrained amoD ins (memQ [1]) AKind.store (BitVec.toNat ((amoD.ctx ins.core ins.ctx).getX 1)) 64 false 0 4222124818432000 2 ∧ (amoD.core
      ins.core).cboOk ins.ctx 7 1 = true) := by
  refine ⟨?_, ?_, ?_, ?_, ?_, ?_⟩
  all_goals first | decide +kernel | (simp only [Issues, Passes, PassesDrained, FpReady, CsrCommand]; decide +kernel)

/-- Each clause of `Obligations.AccessesOfAHeldLine` has a state and operands that meet its hypotheses. -/
theorem meets_AccessesOfAHeldLine :
    (∃ l ∈ (heldK.l2.find (accL.pa / 64)), accL.op.servedBy l.st = true ∧ accL.op = AccOp.load) ∧
    (∃ a : Machine.Acc, ∃ l ∈ (heldK.l2.find (a.pa / 64)), a.op.servedBy l.st = true ∧ a.op = AccOp.lr) ∧
    (∃ a : Machine.Acc, ∃ l ∈ (heldK.l2.find (a.pa / 64)), a.op.servedBy l.st = true ∧ a.op = AccOp.sc ∧ heldK.reserved 5 (a.pa / 64) = true) ∧
    (∃ a : Machine.Acc, ∃ l ∈ (heldK2.l2.find (a.pa / 64)), a.op.servedBy l.st = true ∧ a.op = AccOp.sc ∧ heldK2.reserved 5 (a.pa / 64) = false) ∧
    (∃ a : Machine.Acc, ∃ l ∈ (heldK.l2.find (a.pa / 64)), a.op.servedBy l.st = true ∧ a.op = AccOp.amo AmoOp.add) ∧
    (∃ a : Machine.Acc, ∃ l ∈ (heldK.l2.find (a.pa / 64)), a.op.servedBy l.st = true ∧ a.op = AccOp.zero) ∧
    (∃ a : Machine.Acc, ∃ l ∈ (heldK.l2.find (a.pa / 64)), a.op.servedBy l.st = true ∧ 129 ≠ a.pa / 64) := by
  refine ⟨?_, ⟨{ accL with op := .lr }, ?_⟩, ⟨{ accL with op := .sc }, ?_⟩, ⟨{ accL with op := .sc }, ?_⟩, ⟨{ accL with op := .amo .add }, ?_⟩, ⟨{ accL with op := .zero },
    ?_⟩, ⟨{ accL with op := .zero }, ?_⟩⟩
  all_goals decide +kernel

/-- Each clause of `Obligations.FetchAndFences` has a state and operands that meet its hypotheses. -/
theorem meets_FetchAndFences :
    ((base.core ins.core).drained ins.ctx = true ∧ Issues base ins { lane := 1, regs := [], mem := true, serial := true : IssQ }) ∧
    ((base.core ins.core).drained ins.ctx = true ∧ Issues base ins { lane := 0, regs := [], serial := true : IssQ }) ∧
    (∃ l ∈ ((fetS.core 0).l2.find (0x1010 / 64)), (fetS.ctx 0 5).ffault = none ∧ (fetS.core 0).fetchOk (fetS.cyc 0) 5 = true ∧ fetS.xlate 0 5
      AKind.fetch (fetS.ctx 0 5).fnext = XRes.ok 0x1010 0 ∧ (fetS.core 0).pmpOk (fetS.ctx 0 5).prv AKind.fetch (0x1010 / 16 * 16) 16 = true ∧
      fetS.physReason (fetS.corePart 0) (0x1010 / 16 * 16) 16 = none ∧ AccOp.fetch.servedBy l.st = true ∧ (fetS.core 0).l1i.contains (0x1010 / 64) =
      true) ∧
    ((fetF.ctx 0 5).ffault = none ∧ (fetF.core 0).fetchOk (fetF.cyc 0) 5 = true ∧ fetF.xlate 0 5 AKind.fetch (fetF.ctx 0 5).fnext = XRes.fault { cause := AKind.fetch.pageFault, tval := BitVec.ofNat 64 (fetF.ctx 0 5).fnext : Trap }) ∧
    (∃ tr ∈ ((fetT.ctx 0 5).ffault), (fetT.ctx 0 5).fbuf = [] ∧ (fetT.ctx 0 5).acc = none ∧ (fetT.ctx 0 5).nextIssue ≤ fetT.cyc 0 ∧ (fetT.ctx 0
      5).inflight ≤ fetT.cyc 0 ∧ (fetT.ctx 0 5).park = none ∧ (fetT.ctx 0 5).dfault = none ∧ (fetT.ctx 0 5).st = CtxState.active ∧ (fetT.core 0).runs
      = true) := by
  refine ⟨?_, ?_, ?_, ?_, ?_⟩
  all_goals first | decide +kernel | (simp only [Issues, Passes, PassesDrained, FpReady, CsrCommand]; decide +kernel)

/-- Each clause of `Obligations.CsrInstructions` has a state and operands that meet its hypotheses. -/
theorem meets_CsrInstructions :
    (∃ c : Instr, CsrCommand c ins CsrOp.rw 3857 3 1 ∧ Issues base ins (serialQ (csrSrcRegs CsrOp.rw 1 ++ [3])) ∧ base.csrOk ins.core ins.ctx 3857
      (csrWrites CsrOp.rw 1) = false) ∧
    (∃ c : Instr, CsrCommand c ins CsrOp.rw 832 3 1 ∧ Issues base ins (serialQ (csrSrcRegs CsrOp.rw 1 ++ [3])) ∧ base.csrOk ins.core ins.ctx 832
      (csrWrites CsrOp.rw 1) = true ∧ 3 < 832 ∧ 832 ≠ 1478 ∧ 832 ≠ 2004 ∧ 832 ≠ 1492) ∧
    (∃ c : Instr, CsrCommand c ins CsrOp.rs 3 3 1 ∧ Issues base ins (serialQ (csrSrcRegs CsrOp.rs 1 ++ [3])) ∧ base.csrOk ins.core ins.ctx 3
      (csrWrites CsrOp.rs 1) = true ∧ 3 ≤ 3 ∧ (base.ctx ins.core ins.ctx).fs ≠ 0 ∧ (base.ctx ins.core ins.ctx).fpHere = true) ∧
    (∃ c : Instr, CsrCommand c ins CsrOp.rs 1492 3 0 ∧ Issues base ins (serialQ (csrSrcRegs CsrOp.rs 0 ++ [3])) ∧ base.csrOk ins.core ins.ctx 1492
      (csrWrites CsrOp.rs 0) = true ∧ (1492 = 1478 ∨ 1492 = 2004 ∨ 1492 = 1492) ∧ csrWrites CsrOp.rs 0 = false) ∧
    (∃ c : Instr, CsrCommand c ins CsrOp.rw 2004 3 1 ∧ Issues base ins (serialQ (csrSrcRegs CsrOp.rw 1 ++ [3])) ∧ base.csrOk ins.core ins.ctx 2004
      (csrWrites CsrOp.rw 1) = true ∧ (2004 = 1478 ∨ 2004 = 2004 ∨ 2004 = 1492) ∧ csrWrites CsrOp.rw 1 = true ∧ (base.core ins.core).drained ins.ctx
      = true ∧ (2004 = 1478 → (base.ctx ins.core ins.ctx).xbusy = false) ∧ (2004 = 1492 → 16 ≤ bits (csrOperand CsrOp.rw (base.ctx ins.core ins.ctx)
      1) 0 6)) ∧
    (∃ c : Instr, CsrCommand c ins CsrOp.rw 1492 3 1 ∧ Issues base ins (serialQ (csrSrcRegs CsrOp.rw 1 ++ [3])) ∧ base.csrOk ins.core ins.ctx 1492
      (csrWrites CsrOp.rw 1) = true ∧ csrWrites CsrOp.rw 1 = true ∧ bits (csrOperand CsrOp.rw (base.ctx ins.core ins.ctx) 1) 0 6 < 16) := by
  refine ⟨⟨(Instr.csrAccess ins .rw 0xF11 3 1), ?_⟩, ⟨(Instr.csrAccess ins .rw 0x340 3 1), ?_⟩, ⟨(Instr.csrAccess ins .rs 0x003 3 1), ?_⟩,
    ⟨(Instr.ifPost ins .rs false 3 0), ?_⟩, ⟨(Instr.ifPost ins .rw true 3 1), ?_⟩, ⟨(Instr.ifPost ins .rw false 3 1), ?_⟩⟩
  all_goals first | decide +kernel | (simp only [Issues, Passes, PassesDrained, FpReady, CsrCommand]; decide +kernel)

def csrS : State := baseK (fun k => { k with pmpcfg := [(3, 0x89)], pmpaddr := [(3, 0x4000)], ctxs := [(5, { ctxA with ipend := 0x100020, ien := 0x100020 })] })
def sModeS : State := baseX (fun x => { x with prv := .s, mstatus := 0x6000 })
def sTrapS : State := baseX (fun x => { x with prv := .s, mstatus := 0x606000 })
def intS : State := baseX (fun x => { x with ipend := 0x20, ien := 0x20, mie := 0x800 })
def ctxS : Ctx := { ctxA with prv := .s, medeleg := 0x100, mideleg := 0x200, mstatus := 0x1 }
def rqS : State := baseK (fun k => { k with readyQ := [6] })
def tokS : State := baseX (fun x => { x with wtok := true })
def slpS : State := baseX (fun x => { x with x := [(1, 0x2000), (2, -1)] })
def wkS : State := baseX (fun x => { x with x := [(1, 0x407), (2, -1)] })
def waitS : State := baseK (fun k => { k with l2 := [(0x80, held .s)] })
def ctxB : Ctx := { ctxA with park := some { dest := .sleep, trig := 900, deadline := 5000 } }
def parkS : State := baseK (fun k => { k with ctxs := [(5, ctxB)] })
def holdS : State := baseX (fun x => { x with hold := true })
def rdyS : State := baseK (fun k => { k with slots := List.replicate 8 none, readyQ := [5, 6], ctxs := [(5, { ctxA with st := .ready, fpHere := false })] })
def qntS : State := baseK (fun k => { k with readyQ := [6], mctxctl := 0x0300 })
def filS : State := baseK (fun k => { k with slots := List.replicate 8 none, fills := [{ ctx := 5, fetch := false, status := 0, val := 0x77, at_ := 900 }], ctxs := [(5, { ctxA with st := .miss, pact := true, prd := 4 })] })
def berS : State := baseK (fun k => { k with slots := List.replicate 8 none, fills := [{ ctx := 5, fetch := false, status := 0x1081, val := 0x77, at_ := 900 }], ctxs := [(5, { ctxA with st := .miss, pact := true, prd := 4 })] })
def pseS : State := baseK (fun k => { k with slots := List.replicate 8 none, ctxs := [(5, { ctxA with st := .sleep, dfault := some (900, 0x2000, 0x1081) })] })
def intS2 : State := baseX (fun x => { x with ipend := 0x20, ien := 0x20, mie := 0x800, mstatus := 0x6008 })

/-- Each clause of `Obligations.CsrWritesReadBack` has a state and operands that meet its hypotheses. -/
theorem meets_CsrWritesReadBack :
    (sizeListOk (0x500000000000C : W64) = true) ∧
    (sizeListOk (0x123456789ABCDEF1 : W64) = false) ∧
    ((csrS.ctx 0 5).topVector true = some 5) ∧
    ((csrS.ctx 0 5).topVector false = some 20) ∧
    (bit (0x10005 : W64) 16 = true) ∧
    (bit (5 : W64) 16 = false) ∧
    (3 < 16 ∧ bit (Tab.get 0 (csrS.core 0).pmpcfg 3) 7 = true) := by
  refine ⟨?_, ?_, ?_, ?_, ?_, ?_, ?_⟩
  all_goals decide +kernel

/-- Each clause of `Obligations.TrapsAndReturns` has a state and operands that meet its hypotheses. -/
theorem meets_TrapsAndReturns :
    (Issues base ins (serialQ [])) ∧
    (Issues base ins (serialQ [])) ∧
    (Issues base ins (serialQ []) ∧ (base.ctx ins.core ins.ctx).prv = Prv.m) ∧
    (Issues sModeS ins (serialQ []) ∧ (sModeS.ctx ins.core ins.ctx).prv ≠ Prv.m) ∧
    (Issues sModeS ins (serialQ []) ∧ ((sModeS.ctx ins.core ins.ctx).prv = Prv.m ∨ (sModeS.ctx ins.core ins.ctx).prv = Prv.s ∧ bit (sModeS.ctx
      ins.core ins.ctx).mstatus 22 = false)) ∧
    (Issues sTrapS ins (serialQ []) ∧ ((sTrapS.ctx ins.core ins.ctx).prv = Prv.u ∨ (sTrapS.ctx ins.core ins.ctx).prv = Prv.s ∧ bit (sTrapS.ctx
      ins.core ins.ctx).mstatus 22 = true)) ∧
    (Issues intS ins (serialQ []) ∧ ((intS.ctx ins.core ins.ctx).prv = Prv.m ∨ (intS.ctx ins.core ins.ctx).prv = Prv.s ∧ bit (intS.ctx ins.core
      ins.ctx).mstatus 21 = false) ∧ (intS.core ins.core).intPend ins.ctx = true) ∧
    (Issues base ins (serialQ []) ∧ ((base.ctx ins.core ins.ctx).prv = Prv.m ∨ (base.ctx ins.core ins.ctx).prv = Prv.s ∧ bit (base.ctx ins.core
      ins.ctx).mstatus 21 = false) ∧ (base.core ins.core).intPend ins.ctx = false) ∧
    (Issues sTrapS ins (serialQ []) ∧ ((sTrapS.ctx ins.core ins.ctx).prv = Prv.u ∨ (sTrapS.ctx ins.core ins.ctx).prv = Prv.s ∧ bit (sTrapS.ctx
      ins.core ins.ctx).mstatus 21 = true)) ∧
    (Issues base ins { lane := 0, regs := [] : IssQ }) := by
  refine ⟨?_, ?_, ?_, ?_, ?_, ?_, ?_, ?_, ?_, ?_⟩
  all_goals first | decide +kernel | (simp only [Issues, Passes, PassesDrained, FpReady, CsrCommand]; decide +kernel)

/-- Each clause of `Obligations.TrapEntryAndReturn` has a state and operands that meet its hypotheses. -/
theorem meets_TrapEntryAndReturn :
    (∃ tr : Trap, (ctxA.prv = Prv.m ∨ bit (if false = true then ctxA.mideleg else ctxA.medeleg) tr.cause = false)) ∧
    (∃ tr : Trap, ctxS.prv ≠ Prv.m ∧ (bit (if true = true then ctxS.mideleg else ctxS.medeleg) tr.cause = true)) ∧
    (∃ tr : Trap, (tr.cause = 1 ∨ tr.cause = 5 ∨ tr.cause = 7 ∨ tr.cause = 26)) ∧
    (∃ tr : Trap, (true = true ∨ tr.cause ≠ 1 ∧ tr.cause ≠ 5 ∧ tr.cause ≠ 7 ∧ tr.cause ≠ 26)) := by
  refine ⟨⟨{ cause := 5, tval := 0x2000, reason := 9 }, ?_⟩, ⟨{ cause := 9, tval := 0 }, ?_⟩, ⟨{ cause := 5, tval := 0x2000, reason := 9 }, ?_⟩, ⟨{ cause := 9, tval := 0 },
    ?_⟩⟩
  all_goals decide +kernel

/-- Each clause of `Obligations.ContextInstructions` has a state and operands that meet its hypotheses. -/
theorem meets_ContextInstructions :
    (Issues base ins (serialQ []) ∧ (base.core ins.core).readyQ = []) ∧
    (Issues rqS ins (serialQ []) ∧ (rqS.core ins.core).readyQ ≠ []) ∧
    (Issues base ins (serialQ []) ∧ (base.core ins.core).ctxOk ins.ctx = true ∧ (base.core ins.core).drained ins.ctx = true) ∧
    (Issues tokS ins (serialQ [1]) ∧ (tokS.ctx ins.core ins.ctx).wtok = true) ∧
    (Issues base ins (serialQ [0]) ∧ (base.ctx ins.core ins.ctx).wtok = false ∧ BitVec.toNat ((base.ctx ins.core ins.ctx).getX 0) ≤ base.time) ∧
    (Issues slpS ins (serialQ [1]) ∧ (slpS.ctx ins.core ins.ctx).wtok = false ∧ slpS.time < BitVec.toNat ((slpS.ctx ins.core ins.ctx).getX 1)) ∧
    (Issues wkS ins (serialQ [1]) ∧ (wkS.core ins.core).ctxOk ins.ctx = true ∧ (wkS.core ins.core).drained ins.ctx = true ∧ BitVec.toNat ((wkS.ctx
      ins.core ins.ctx).getX 1) < 2 ^ 21 ∧ hartParts (BitVec.toNat ((wkS.ctx ins.core ins.ctx).getX 1)) = some (wkS.pkg, 1, 7)) ∧
    (Issues tokS ins (serialQ [1]) ∧ (tokS.issued ins (serialQ [1])).check (tokS.cyc ins.core) ins (tokS.ctx ins.core ins.ctx) AKind.load
      (BitVec.toNat ((tokS.ctx ins.core ins.ctx).getX 1)) 1 false 0 = Chk.ok 0x2000 0 ∧ (tokS.ctx ins.core ins.ctx).wtok = true) ∧
    (∃ l : L2Line, Issues waitS ins (serialQ [1]) ∧ (waitS.issued ins (serialQ [1])).check (waitS.cyc ins.core) ins (waitS.ctx ins.core ins.ctx)
      AKind.load (BitVec.toNat ((waitS.ctx ins.core ins.ctx).getX 1)) 1 false 0 = Chk.ok 0x2000 0 ∧ (waitS.ctx ins.core ins.ctx).wtok = false ∧ (∀ (r
      : Resv), r ∈ (waitS.core ins.core).resv → r.ctx = ins.ctx → r.line ≠ 0x2000 / 64) ∧ (waitS.core ins.core).watch.length < 256 ∧ (waitS.core
      ins.core).l2.find (0x2000 / 64) = some l ∧ AccOp.watch.servedBy l.st = true) ∧
    (Issues slpS ins (serialQ [3, 1, 2]) ∧ (slpS.core ins.core).ctxOk ins.ctx = true ∧ (slpS.ctx ins.core ins.ctx).getX 2 = -1) ∧
    (Issues base ins (serialQ [1, 2]) ∧ (base.core ins.core).drained ins.ctx = true ∧ ((base.ctx ins.core ins.ctx).prv = Prv.m ∨ (base.ctx ins.core
      ins.ctx).prv = Prv.s ∧ bit (base.ctx ins.core ins.ctx).mstatus 20 = false)) := by
  refine ⟨?_, ?_, ?_, ?_, ?_, ?_, ?_, ?_, ⟨(held .s), ?_⟩, ?_, ?_⟩
  all_goals first | decide +kernel | (simp only [Issues, Passes, PassesDrained, FpReady, CsrCommand]; decide +kernel)

/-- Each clause of `Obligations.ContextParksAndFills` has a state and operands that meet its hypotheses. -/
theorem meets_ContextParksAndFills :
    (∃ p ∈ ((parkS.ctx 0 5).park), (parkS.core 0).slotOf 5 = some 0 ∧ (parkS.ctx 0 5).st = CtxState.active ∧ (parkS.core 0).clockOn = true ∧ p.trig <
      parkS.cyc 0 ∧ (parkS.ctx 0 5).inflight < parkS.cyc 0 ∧ (parkS.core 0).wrEnd ≤ parkS.cyc 0 ∧ (parkS.core 0).chg ≤ parkS.cyc 0) ∧
    ((holdS.core 0).slotOf 5 = some 0 ∧ (holdS.ctx 0 5).park = none ∧ (holdS.ctx 0 5).hold = true ∧ (holdS.core 0).atBoundary 5 (holdS.cyc 0) = true
      ∧ (holdS.ctx 0 5).facc = none ∧ (holdS.ctx 0 5).st = CtxState.active ∧ (holdS.core 0).clockOn = true ∧ 0 < holdS.cyc 0 ∧ (holdS.core 0).wrEnd ≤
      holdS.cyc 0 ∧ (holdS.core 0).chg ≤ holdS.cyc 0) ∧
    (∃ rest : List Nat, (rdyS.core 0).readyQ = 5 :: rest ∧ (rdyS.core 0).runs = true ∧ 3 < 8 ∧ (rdyS.core 0).slots.getD 3 none = none ∧ (rdyS.core
      0).rdEnd ≤ rdyS.cyc 0 ∧ (rdyS.core 0).chg ≤ rdyS.cyc 0 ∧ Tab.get 0 (rdyS.core 0).slotEnd 3 ≤ rdyS.cyc 0 ∧ (rdyS.ctx 0 5).dfault = none ∧
      (rdyS.ctx 0 5).runAt ≤ rdyS.cyc 0 ∧ (rdyS.ctx 0 5).berr = false) ∧
    (bits (qntS.core 0).mctxctl 8 8 ≠ 0 ∧ (qntS.ctx 0 5).st = CtxState.active ∧ (qntS.ctx 0 5).since + bits (qntS.core 0).mctxctl 8 8 * 256 ≤
      qntS.cyc 0 ∧ (qntS.core 0).readyQ ≠ [] ∧ (qntS.core 0).atBoundary 5 (qntS.cyc 0) = true ∧ (qntS.ctx 0 5).facc = none ∧ (qntS.core 0).runs =
      true) ∧
    (∃ f ∈ ((filS.core 0).fillFor 5), f.status = 0 ∧ (filS.ctx 0 5).st = CtxState.miss ∧ (filS.ctx 0 5).pact = true ∧ (filS.core 0).recFree (filS.cyc
      0) 5 = true ∧ (filS.ctx 0 5).pkind ≤ 2) ∧
    (∃ f ∈ ((berS.core 0).fillFor 5), f.status ≠ 0 ∧ (berS.ctx 0 5).dfault = none ∧ (berS.ctx 0 5).st = CtxState.miss ∧ (berS.core 0).recFree
      (berS.cyc 0) 5 = true) ∧
    ((pseS.ctx 0 5).dfault = some (900, 0x2000, 0x1081) ∧ (pseS.core 0).recFree (pseS.cyc 0) 5 = true ∧ ((pseS.ctx 0 5).st = CtxState.wait ∨
      (pseS.ctx 0 5).st = CtxState.sleep ∨ (pseS.ctx 0 5).st = CtxState.idle)) ∧
    (∃ n ∈ ((intS2.core 0).pickInt 5), (intS2.ctx 0 5).st = CtxState.active ∧ (intS2.core 0).runs = true ∧ ((intS2.core 0).slotOf 5).isSome = true ∧
      (intS2.core 0).atBoundary 5 (intS2.cyc 0) = true ∧ (intS2.ctx 0 5).dfault = none ∧ (intS2.ctx 0 5).runAt ≤ intS2.cyc 0 ∧ (intS2.ctx 0
      5).nextIssue ≤ intS2.cyc 0) := by
  refine ⟨?_, ?_, ⟨[6], ?_⟩, ?_, ?_, ?_, ?_, ?_⟩
  all_goals decide +kernel

def wkA : Msg := { kind := .wake, tag := 5 }
def wkB : Msg := { kind := .wake, tag := 6 }
def spA : Msg := { kind := .spawn, tag := 5, flag := true, words := [1,2,3,4,5,6,7] }
def spR : Msg := { kind := .spawnRsp, tag := 5, val := 77 }
def allC : Core := { coreA with ctxs := (List.range 1024).map (fun i => (i, { ctxA with st := .idle })) }
def fullS : State := netK spA (fun _ => allC)
def rspS : State := netK spR (fun k => k.modCtx 5 (fun x => { x with spawnRd := some 3 }))
def hpA : State := baseK (fun k => { k with heap := [{ val := 0, ctx := 5, timer := false }], ctxs := [(5, { ctxA with st := .sleep })] })
def hpB : State := baseK (fun k => { k with heap := [{ val := 0, ctx := 5, timer := true }], menvcfg := 0x8000000000000000 })
def hpC : State := baseK (fun k => { k with heap := [{ val := 0, ctx := 5, timer := false }] })
def wkI : State := netK wkA (fun k => k.modCtx 5 (fun x => { x with st := .sleep }))
def missA : Miss := { line := 0x80, req := .rdS, ctx := 5, found := 900 }
def msA : State := baseK (fun k => { k with miss := [missA] })
def msB : State := baseK (fun k => { k with miss := [{ missA with req := .amoH }] })
def msC : State := baseK (fun k => { k with miss := [{ missA with req := .upg }], l2 := [(0x80, held .s)] })
def msD : State := baseK (fun k => { k with miss := [{ missA with req := .amoH }], l2 := [(0x80, held .s)] })
def egA : Msg := { kind := .rdS, line := 0x80, tag := 5 }
def egS : State := withRegs { base with fab := { base.fab with egress := [egA] } } [(.cdCrgrantGrant, 0, 0, 4)]
def lgA : State := netK { kind := .long, line := 0x80 } (fun k => k.modCtx 5 (fun x => { x with acc := some { op := .load, kind := 0, va := 0x2000, pa := 0x2000, rd := 3, sz := 3, stage := 2 } }))
def hfA : State := baseX (fun x => { x with facc := some { op := .fetch, kind := 4, va := 0x1000, pa := 0x1000 }, heldHint := true })
def hsA : State := baseK (fun k => { k with l2 := [(0x80, { held .m with held := [{ kind := .snpInv, line := 0x80 }] })] })
def dsA : State := netK { kind := .dataS, line := 0x80, data := lineA, hasData := true } (fun k => { k with l2 := [(0x80, held .is)] })
def dsB : State := netK { kind := .dataS, line := 0x80, status := 0x1081 } (fun k => { k with l2 := [(0x80, held .is)] })
def dmA : State := netK { kind := .dataM, line := 0x80, data := lineA, hasData := true } (fun k => { k with l2 := [(0x80, held .im)] })
def auA : State := netK { kind := .ackUpg, line := 0x80 } (fun k => { k with l2 := [(0x80, held .sm)] })
def arA : State := netK { kind := .amoRet, line := 0x80, val := 9 } (fun k => ({ k with miss := [{ line := 0x80, req := .amoH, ctx := 5, sent := true }] }).modCtx 5 (fun x => { x with acc := some { op := .amo .add, kind := 2, va := 0x2000, pa := 0x2000, rd := 3, sz := 3, stage := 2 } }))
def waA : State := netK { kind := .wbAck, line := 0x80 } (fun k => { k with evb := [{ line := 0x80, mi := true, data := 0 }] })
def eaA : State := netK { kind := .evcAck, line := 0x80 } (fun k => { k with evb := [{ line := 0x80, mi := false, data := 0 }] })
def siN : State := netK { kind := .snpInv, line := 0x80 } (fun k => k)
def siS : State := netK { kind := .snpInv, line := 0x80 } (fun k => { k with l2 := [(0x80, held .s)] })
def ssS : State := netK { kind := .snpShd, line := 0x80 } (fun k => { k with l2 := [(0x80, held .s)] })
def siM : State := netK { kind := .snpInv, line := 0x80 } (fun k => { k with l2 := [(0x80, held .m)] })
def ssM : State := netK { kind := .snpShd, line := 0x80 } (fun k => { k with l2 := [(0x80, held .m)] })

theorem getTab_range (f : Nat → Ctx) : ∀ (n b i : Nat), b ≤ i → i < b + n → Tab.get {} ((List.range' b n).map (fun i => (i, f i))) i = f i
  | 0, b, i, h, g => by omega
  | n + 1, b, i, h, g => by
    simp only [List.range'_succ, List.map_cons, Tab.get]
    split
    · subst i; rfl
    · exact getTab_range f n (b + 1) i (by omega) (by omega)
theorem allC_full : (fullS.core 0).emptySlot = none := by
  have e : fullS.core 0 = allC := by decide +kernel
  rw [e, Core.emptySlot, List.find?_eq_none]
  intro i h
  have h : i < 1024 := by simpa using h
  have g : allC.ctx i = { ctxA with st := .idle } := by
    simp only [allC, Core.ctx, List.range_eq_range']
    exact getTab_range _ 1024 0 i (by omega) (by omega)
  simp [g]

/-- Each clause of `Obligations.WakesSpawnsAndTimers` has a state and operands that meet its hypotheses. -/
theorem meets_WakesSpawnsAndTimers :
    (∃ s : State, ∃ m ∈ (s.arrived fun m => m.kind == MsgKind.wake && m.core == 0), s.corePart 0 = some m.part ∧ ((s.core 0).ctx m.tag).st ≠
      CtxState.empty) ∧
    (∃ s : State, ∃ m ∈ (s.arrived fun m => m.kind == MsgKind.wake && m.core == 0), (s.corePart 0 ≠ some m.part ∨ ((s.core 0).ctx m.tag).st =
      CtxState.empty)) ∧
    (∃ s : State, ∃ m ∈ (s.arrived fun m => m.kind == MsgKind.spawn && m.core == 0), m.flag = true ∧ (s.core 0).emptySlot = some 0 ∧ s.corePart 0 =
      some m.part ∧ s.dieOut (dieOf 0) = false ∧ (s.core 0).rst = false ∧ s.fget Fld.pwrStatusHosthold ≠ 1 ∧ hartParts m.tag = some (s.pkg, 0, 5)) ∧
    (∃ m ∈ (fullS.arrived fun m => m.kind == MsgKind.spawn && m.core == 0), m.flag = true ∧ (fullS.core 0).emptySlot = none ∧ hartParts m.tag = some
      (fullS.pkg, 0, 5)) ∧
    (∃ m ∈ (rspS.arrived fun m => m.kind == MsgKind.spawnRsp && m.core == 0), ∃ rd ∈ (((rspS.core 0).ctx m.tag).spawnRd), True) ∧
    (∃ e ∈ (heapFirst (hpA.core 0).heap hpA.time), True) ∧
    (((hpC.core 0).ctx 5).st ≠ CtxState.empty) := by
  refine ⟨⟨(netS wkA), ?_⟩, ⟨(netS wkB), ?_⟩, ⟨(netS spA), ?_⟩, ?_, ?_, ?_, ?_⟩
  · decide +kernel
  · decide +kernel
  · decide +kernel
  · exact ⟨{ spA with at_ := 600 }, by decide +kernel, by decide +kernel, allC_full, by decide +kernel⟩
  · decide +kernel
  · decide +kernel
  · decide +kernel

/-- Each clause of `Obligations.MissesAndHints` has a state and operands that meet its hypotheses. -/
theorem meets_MissesAndHints :
    (∃ m ∈ (List.find? (fun m => m.line == 128 && !m.sent && decide (m.found ≤ msA.cyc 0)) (msA.core 0).miss), (∀ (e : EvbEnt), e ∈ (msA.core 0).evb
      → e.line ≠ 128) ∧ (msA.core 0).l2.find 128 = none ∧ (m.req = MsgKind.rdS ∨ m.req = MsgKind.rdM) ∧ (msA.core 0).freeL2Way 128 = some 0) ∧
    (∃ m ∈ (List.find? (fun m => m.line == 128 && !m.sent && decide (m.found ≤ msB.cyc 0)) (msB.core 0).miss), (∀ (e : EvbEnt), e ∈ (msB.core 0).evb
      → e.line ≠ 128) ∧ (msB.core 0).l2.find 128 = none ∧ m.req = MsgKind.amoH) ∧
    (∃ m ∈ (List.find? (fun m => m.line == 128 && !m.sent && decide (m.found ≤ msC.cyc 0)) (msC.core 0).miss), ∃ l ∈ ((msC.core 0).l2.find 128), (∀
      (e : EvbEnt), e ∈ (msC.core 0).evb → e.line ≠ 128) ∧ l.st = L2St.s ∧ m.req = MsgKind.upg) ∧
    (∃ m ∈ (List.find? (fun m => m.line == 128 && !m.sent && decide (m.found ≤ msD.cyc 0)) (msD.core 0).miss), ∃ l ∈ ((msD.core 0).l2.find 128), (∀
      (e : EvbEnt), e ∈ (msD.core 0).evb → e.line ≠ 128) ∧ l.st = L2St.s ∧ m.req = MsgKind.amoH) ∧
    (∃ m ∈ (pickQueue (egS.launchable 0) (Tab.get 0 egS.fab.eptr 0)), m.kind ≠ MsgKind.amoH) ∧
    (∃ s : State, ∃ m ∈ (s.arrived fun m => m.kind == MsgKind.credit && dieOf m.core == 0), True) ∧
    (∃ m ∈ (lgA.arrived fun m => m.kind == MsgKind.long && m.core == 0), ∃ a ∈ ((lgA.ctx 0 5).acc), List.filterMap id (lgA.core 0).slots = [5] ∧
      (lgA.ctx 0 5).st = CtxState.active ∧ (lgA.ctx 0 5).park = none ∧ a.pa / 64 = m.line ∧ a.dev = false ∧ a.stage = 2 ∧ a.long = false) ∧
    (∃ a ∈ ((hfA.ctx 0 5).facc), (hfA.ctx 0 5).heldHint = true ∧ (hfA.ctx 0 5).st = CtxState.active ∧ (hfA.ctx 0 5).park = none ∧ (hfA.ctx 0 5).acc =
      none ∧ (hfA.ctx 0 5).iss + 2 ≤ hfA.cyc 0) ∧
    (∃ rest : List Msg, ∃ l ∈ ((hsA.core 0).l2.find 128), l.held = { kind := MsgKind.snpInv, line := 128 : Msg } :: rest ∧ l.performed = true ∧ (l.st
      = L2St.s ∨ l.st = L2St.m ∨ l.st = L2St.sm)) := by
  refine ⟨?_, ?_, ?_, ?_, ?_, ⟨(netS { kind := .credit, slice := 3 }), ?_⟩, ?_, ?_, ⟨[], ?_⟩⟩
  all_goals decide +kernel

/-- Each clause of `Obligations.CoherenceAtTheL2` has a state and operands that meet its hypotheses. -/
theorem meets_CoherenceAtTheL2 :
    (∃ m ∈ (dsA.arrived fun m => m.kind == MsgKind.dataS && m.core == 0), (dsA.core 0).fills.length < 32 ∧ (dsA.core 0).l2St m.line = some L2St.is ∧
      m.status = 0) ∧
    (∃ m ∈ (dsB.arrived fun m => m.kind == MsgKind.dataS && m.core == 0), (dsB.core 0).fills.length < 32 ∧ (dsB.core 0).l2St m.line = some L2St.is ∧
      m.status ≠ 0) ∧
    (∃ m ∈ (dmA.arrived fun m => m.kind == MsgKind.dataM && m.core == 0), ∃ l0 ∈ ((dmA.core 0).l2.find m.line), (dmA.core 0).fills.length < 32 ∧
      (l0.st = L2St.im ∨ l0.st = L2St.sm) ∧ m.status = 0) ∧
    (∃ m ∈ (auA.arrived fun m => m.kind == MsgKind.ackUpg && m.core == 0), ∃ l0 ∈ ((auA.core 0).l2.find m.line), l0.st = L2St.sm) ∧
    (∃ m ∈ (arA.arrived fun m => m.kind == MsgKind.amoRet && m.core == 0), ∃ n ∈ (List.find? (fun n => n.line == m.line && n.sent && n.req ==
      MsgKind.amoH) (arA.core 0).miss), ∃ a ∈ (((arA.core 0).ctx n.ctx).acc), n.walker = none ∧ a.pa / 64 = m.line ∧ a.dev = false ∧ a.op = AccOp.amo
      AmoOp.add ∧ a.fp = false ∧ m.status = 0 ∧ ((arA.core 0).ctx n.ctx).inSlot a = true) ∧
    (∃ m ∈ (waA.arrived fun m => m.kind == MsgKind.wbAck && m.core == 0), (List.find? (fun n => n.line == m.line && n.sent && n.req == MsgKind.wb)
      (waA.core 0).miss = none)) ∧
    (∃ m ∈ (eaA.arrived fun m => m.kind == MsgKind.evcAck && m.core == 0), True) ∧
    (∃ m ∈ (siN.arrived fun m => (m.kind == if true = true then MsgKind.snpInv else MsgKind.snpShd) && m.core == 0), m.flag = false ∧ (∀ (e :
      EvbEnt), e ∈ (siN.core 0).evb → e.line ≠ m.line)) := by
  refine ⟨?_, ?_, ?_, ?_, ?_, ?_, ?_, ?_⟩
  all_goals decide +kernel

def rtS (r v : Nat) : State := base.rput .irtRoute r 0 (BitVec.ofNat 64 v)
def rtA : State := withRegs base [(.irtRouteEn, 512, 0, 1), (.irtRouteVector, 512, 0, 20), (.irtRouteTarget, 512, 0, 5)]
def rtB : State := withRegs rtA [(.irtRouteSent, 512, 0, 1)]
def rtC : State := withRegs base [(.irtRouteEn, 20, 0, 1), (.irtRouteVector, 20, 0, 20), (.irtRouteTarget, 20, 0, 5)]
def rtD : State := withRegs rtC [(.irtRouteSent, 20, 0, 1)]
def rtE : State := { rtD with fab := (netS { kind := .complete, tag := 5, arg := 20 }).fab }
def rtF : State := withRegs base [(.prtCtlSpan, 0, 0, 1)]
def clS : State := baseX (fun x => { x with ipend := 0x100020, ien := 0x100020 })
def w0A : Nat := 0x1B19 + 0x2000 + 0x77 * 2 ^ 16
def lnT : LineData := BitVec.ofNat 512 (w0A + (0x5 + 0x3 * 2 ^ 36) * 2 ^ 64)
def wlC : Ctx := { ctxA with prv := .u, xlt := 0x300000000000C, tmiss := some { va := 0x5123, kind := .load, cycle := 900 } }
def wsS : State := baseK (fun k => { k with ctxs := [(5, wlC)], walkQ := [(5, false)] })
def wlA : Walk := { ctx := 5, kind := .load, start := 900, va := 0x5123, asid := 3, xlt := 0x300000000000C, part := 0, round := 1, bks := [{ idx := 0, second := false, pa := 0x8000, res := .ok lnT, done := 950 }] }
def wcJ : Ctx := { wlC with tmiss := some { va := 0x5123, kind := .load, cycle := 900, walk := true } }
def wjS (w : Walk) : State := baseK (fun k => { k with ctxs := [(5, wcJ)], walks := [(0, some w)] })
def wlB : Walk := { wlA with bks := [{ idx := 0, second := false, pa := 0x8000, res := .pmp, done := 950 }] }
def wlN : Walk := { wlA with bks := [] }
def tleA : TlbE := { part := 0, asid := 3, size := 12, vpn := 5, ppn := 0x77, g := false, r := true, w := true, x := false, u := true, d := true, mt := 0 }
def wlO : Walk := { wlA with orWord := some (0x8000, BitVec.ofNat 64 w0A, 0x1000, tleA), orBack := some (960, 0, BitVec.ofNat 64 w0A) }
def shM : Msg := { kind := .shoot, tag := 5, val := 1 }
def shS : State := netK shM (fun k => { k with dtlb := [tleA], sb := [{ ctx := 5, va := 0x2000, pa := 0x2000, sz := 3, val := 0x55, mt := 0, fp := false, filled := 900 }] })
def sdS : State := baseK (fun k => { k with shoots := [{ tag := 5, pkg := 0, stores := [], accs := [] }] })
def saS : State := { netS { kind := .shootAck, tag := 5 } with fab := { (netS { kind := .shootAck, tag := 5 }).fab with shoots := [(5, 0, [0], 500)] } }

/-- Each clause of `Obligations.InterruptRouting` has a state and operands that meet its hypotheses. -/
theorem meets_InterruptRouting :
    (levelRoute 20 = false ∧ 20 < 428 ∧ rtC.fget Fld.irtRouteEn 20 ≠ 0 ∧ rtC.fget Fld.irtRouteSent 20 = 0 ∧ rtC.member rtC.pkg = true ∧ hartParts
      (rtC.fget Fld.irtRouteTarget 20) = some (rtC.pkg, 0, 5)) ∧
    (levelRoute 20 = false ∧ 20 < 428 ∧ rtD.fget Fld.irtRouteEn 20 ≠ 0 ∧ rtD.fget Fld.irtRouteSent 20 ≠ 0) ∧
    (levelRoute 20 = false ∧ base.fget Fld.irtRouteEn 20 = 0) ∧
    (∃ s : State, ∃ m ∈ (s.arrived fun m => m.kind == MsgKind.deliver && m.core == 0), (s.ctx 0 (m.tag % 1024)).st ≠ CtxState.empty) ∧
    (∃ m ∈ (rtE.arrived fun m => m.kind == MsgKind.complete), (rtE.takeMsg m).sentRoutes m.tag m.arg = [20] ∧ levelRoute 20 = false ∧ rtE.fget
      Fld.irtRoutePend 20 = 0) ∧
    (∃ s : State, ∃ m ∈ (s.arrived fun m => m.kind == MsgKind.complete), (s.takeMsg m).sentRoutes m.tag m.arg = []) ∧
    (600 < 0x1000 ∧ rtF.routeInert 600 = false ∧ levelRoute 600 = false ∧ rtF.fget Fld.irtRouteEn 600 = 0 ∧ bit (0x50051 : W64) 0 = true ∧
      rtF.routeOk 600 (bits (0x50051 : W64) 8 6) (bits (0x50051 : W64) 16 21) = true ∧ ¬600 ∈ rtF.fab.level) ∧
    (600 < 0x1000 ∧ base.routeInert 600 = false ∧ levelRoute 600 = false ∧ base.fget Fld.irtRouteEn 600 = 0 ∧ bit (0x50051 : W64) 0 = true ∧
      base.routeOk 600 (bits (0x50051 : W64) 8 6) (bits (0x50051 : W64) 16 21) = false) ∧
    (512 ≤ bits (520 : W64) 0 12 ∧ bits (520 : W64) 12 20 = 0) := by
  refine ⟨?_, ?_, ?_, ⟨(netS { kind := .deliver, tag := 5, arg := 20 }), ?_⟩, ?_, ⟨(netS { kind := .complete, tag := 5, arg := 20 }), ?_⟩, ?_, ?_,
    ?_⟩
  all_goals decide +kernel

/-- Each clause of `Obligations.InterruptClaimsAndCompletions` has a state and operands that meet its hypotheses. -/
theorem meets_InterruptClaimsAndCompletions :
    (Issues clS ins (serialQ (csrSrcRegs CsrOp.rw 1 ++ [3])) ∧ (clS.csrOk ins.core ins.ctx (if true = true then 2002 else 1490) (csrWrites CsrOp.rw
      1) = true) ∧ (if true = true then 5 < 16 else 16 ≤ 5 ∧ 5 < 64) ∧ bit (clS.ctx ins.core ins.ctx).ipend 5 = true ∧ bit (clS.ctx ins.core
      ins.ctx).ien 5 = true ∧ (∀ (j : Nat), j < 5 → true = true ∨ 16 ≤ j → bit (clS.ctx ins.core ins.ctx).ipend j = false ∨ bit (clS.ctx ins.core
      ins.ctx).ien j = false)) ∧
    (Issues base ins (serialQ (csrSrcRegs CsrOp.rs 0 ++ [3])) ∧ (base.csrOk ins.core ins.ctx (if false = true then 2002 else 1490) (csrWrites
      CsrOp.rs 0) = true) ∧ (∀ (n : Nat), (if false = true then n < 16 else 16 ≤ n ∧ n < 64) → bit (base.ctx ins.core ins.ctx).ipend n = false ∨ bit
      (base.ctx ins.core ins.ctx).ien n = false)) ∧
    (Issues base ins (serialQ (csrSrcRegs CsrOp.rwi 5 ++ [3])) ∧ (base.csrOk ins.core ins.ctx (if true = true then 2003 else 1491) (csrWrites
      CsrOp.rwi 5) = true) ∧ csrWrites CsrOp.rwi 5 = true) ∧
    (∃ s : State, ∃ m ∈ (s.arrived fun m => m.kind == MsgKind.complete), (∀ (r : Nat), s.fget Fld.irtRouteSent r = 0 ∨ s.fget Fld.irtRouteTarget r ≠
      m.tag ∨ m.arg ≠ 64 ∧ s.fget Fld.irtRouteVector r ≠ m.arg)) := by
  refine ⟨?_, ?_, ?_, ⟨(netS { kind := .complete, tag := 5, arg := 20 }), ?_⟩⟩
  · first | decide +kernel | (simp only [Issues, Passes, PassesDrained, FpReady, CsrCommand]; decide +kernel)
  · exact ⟨by simp only [Issues]; decide +kernel, by decide +kernel, fun n _ => .inl (by show bit (0 : W64) n = false; simp [bit])⟩
  · first | decide +kernel | (simp only [Issues, Passes, PassesDrained, FpReady, CsrCommand]; decide +kernel)
  · exact ⟨{ kind := .complete, tag := 5, arg := 20, at_ := 600 }, by decide +kernel, fun r => .inl (noSent _ (by decide +kernel) r)⟩

/-- Each clause of `Obligations.TableEntriesThatMatch` has a state and operands that meet its hypotheses. -/
theorem meets_TableEntriesThatMatch :
    (bit (BitVec.ofNat 64 (bits lnT (128 * 1) 64)) 0 = false) ∧
    (∃ d : BitVec 512, (bits (BitVec.ofNat 64 (bits d (128 * 0) 64)) 1 6 < 12 ∨ 47 < bits (BitVec.ofNat 64 (bits d (128 * 0) 64)) 1 6 ∨ bits
      (BitVec.ofNat 64 (bits d (128 * 0 + 64) 64)) 52 12 ≠ 0 ∨ bits (BitVec.ofNat 64 (bits d (128 * 0 + 64) 64)) 0 36 % 2 ^ (bits (BitVec.ofNat 64
      (bits d (128 * 0) 64)) 1 6 - 12) ≠ 0 ∨ bit (BitVec.ofNat 64 (bits d (128 * 0) 64)) 9 = true ∧ bit (BitVec.ofNat 64 (bits d (128 * 0) 64)) 8 =
      false ∨ bit (BitVec.ofNat 64 (bits d (128 * 0) 64)) 8 = false ∧ bit (BitVec.ofNat 64 (bits d (128 * 0) 64)) 9 = false ∧ bit (BitVec.ofNat 64
      (bits d (128 * 0) 64)) 10 = false ∨ bits (BitVec.ofNat 64 (bits d (128 * 0) 64)) 14 2 = 3)) ∧
    (bit (BitVec.ofNat 64 (bits lnT (128 * 0) 64)) 0 = true ∧ 12 ≤ bits (BitVec.ofNat 64 (bits lnT (128 * 0) 64)) 1 6 ∧ bits (BitVec.ofNat 64 (bits
      lnT (128 * 0) 64)) 1 6 ≤ 47 ∧ bits (BitVec.ofNat 64 (bits lnT (128 * 0 + 64) 64)) 52 12 = 0 ∧ bits (BitVec.ofNat 64 (bits lnT (128 * 0 + 64)
      64)) 0 36 % 2 ^ (bits (BitVec.ofNat 64 (bits lnT (128 * 0) 64)) 1 6 - 12) = 0 ∧ (bit (BitVec.ofNat 64 (bits lnT (128 * 0) 64)) 9 = true → bit
      (BitVec.ofNat 64 (bits lnT (128 * 0) 64)) 8 = true) ∧ (bit (BitVec.ofNat 64 (bits lnT (128 * 0) 64)) 8 = true ∨ bit (BitVec.ofNat 64 (bits lnT
      (128 * 0) 64)) 10 = true) ∧ bits (BitVec.ofNat 64 (bits lnT (128 * 0) 64)) 14 2 ≠ 3 ∧ (12 ≠ bits (BitVec.ofNat 64 (bits lnT (128 * 0) 64)) 1 6
      ∨ 4 ≠ bits (BitVec.ofNat 64 (bits lnT (128 * 0 + 64) 64)) 36 16 ∨ bits (BitVec.ofNat 64 (bits lnT (128 * 0 + 64) 64)) 0 36 / 2 ^ (12 - 12) ≠
      0x5123 % 2 ^ 48 / 2 ^ 12)) ∧
    (bit (BitVec.ofNat 64 (bits lnT (128 * 0) 64)) 0 = true ∧ 12 ≤ bits (BitVec.ofNat 64 (bits lnT (128 * 0) 64)) 1 6 ∧ bits (BitVec.ofNat 64 (bits
      lnT (128 * 0) 64)) 1 6 ≤ 47 ∧ bits (BitVec.ofNat 64 (bits lnT (128 * 0 + 64) 64)) 52 12 = 0 ∧ bits (BitVec.ofNat 64 (bits lnT (128 * 0 + 64)
      64)) 0 36 % 2 ^ (bits (BitVec.ofNat 64 (bits lnT (128 * 0) 64)) 1 6 - 12) = 0 ∧ (bit (BitVec.ofNat 64 (bits lnT (128 * 0) 64)) 9 = true → bit
      (BitVec.ofNat 64 (bits lnT (128 * 0) 64)) 8 = true) ∧ (bit (BitVec.ofNat 64 (bits lnT (128 * 0) 64)) 8 = true ∨ bit (BitVec.ofNat 64 (bits lnT
      (128 * 0) 64)) 10 = true) ∧ bits (BitVec.ofNat 64 (bits lnT (128 * 0) 64)) 14 2 ≠ 3 ∧ 12 = bits (BitVec.ofNat 64 (bits lnT (128 * 0) 64)) 1 6 ∧
      3 = bits (BitVec.ofNat 64 (bits lnT (128 * 0 + 64) 64)) 36 16 ∧ bits (BitVec.ofNat 64 (bits lnT (128 * 0 + 64) 64)) 0 36 / 2 ^ (12 - 12) =
      0x5123 % 2 ^ 48 / 2 ^ 12) := by
  refine ⟨?_, ⟨(BitVec.ofNat 512 0x1), ?_⟩, ?_, ?_⟩
  all_goals decide +kernel

/-- Each clause of `Obligations.TranslationWalksAndShootdowns` has a state and operands that meet its hypotheses. -/
theorem meets_TranslationWalksAndShootdowns :
    (∃ m ∈ ((wsS.ctx 0 5).tmiss), m.walk = false ∧ (false = true ↔ m.kind = AKind.fetch) ∧ m.cycle + 3 ≤ wsS.cyc 0 ∧ (∀ (v : Walk), (wsS.core 0).walk
      0 = some v ∨ (wsS.core 0).walk 1 = some v → v.shares (wsS.ctx 0 5) m = false) ∧ (wsS.core 0).walkQ.head? = some (5, false) ∧ (List.find? (fun w
      => ((wsS.core 0).walk w).isNone) [0, 1] = some 0)) ∧
    (∃ s : State, ∃ tr : Trap, ∃ v2 ∈ ((s.core 0).walk 0), ((v2.bks.any fun b => decide (b.res = BkRes.waiting)) = false) ∧ v2.orWord = none ∧ ((if
      v2.en = true then List.foldl (fun m b => max m b.done) v2.start v2.bks + 1 else v2.start) ≤ s.cyc 0) ∧ v2.outcome v2.kind v2.va = Decision.err
      tr) ∧
    (∃ s : State, ∃ v2 ∈ ((s.core 0).walk 0), ((v2.bks.any fun b => decide (b.res = BkRes.waiting)) = false) ∧ v2.orWord = none ∧ ((if v2.en = true
      then List.foldl (fun m b => max m b.done) v2.start v2.bks + 1 else v2.start) ≤ s.cyc 0) ∧ v2.outcome v2.kind v2.va = Decision.none ∧ (v2.round
      ≠ 1 ∨ (sizeList v2.xlt).length ≤ 4)) ∧
    (∃ s : State, ∃ w0 : BitVec 64, ∃ v2 ∈ ((s.core 0).walk 0), ((v2.bks.any fun b => decide (b.res = BkRes.waiting)) = false) ∧ v2.orWord = none ∧
      ((if v2.en = true then List.foldl (fun m b => max m b.done) v2.start v2.bks + 1 else v2.start) ≤ s.cyc 0) ∧ v2.outcome v2.kind v2.va =
      Decision.hit tleA w0 0x8000 ∧ v2.hw = false ∧ entryFault ((s.core 0).ctx v2.ctx) { va := v2.va, kind := v2.kind, cycle := 0 : TlbMiss } tleA w0
      false = none) ∧
    (∃ s : State, ∃ w0 : BitVec 64, ∃ v2 ∈ ((s.core 0).walk 0), v2.orWord = some (0x8000, w0, 0x1000, tleA) ∧ v2.orBack = some (960, 0, w0) ∧ 960 <
      s.cyc 0) ∧
    (∃ m ∈ (shS.arrived fun m => m.kind == MsgKind.shoot && m.core == 0), True) ∧
    (∃ h ∈ (List.find? (sdS.core 0).shootDone (sdS.core 0).shoots), True) ∧
    (∃ m ∈ (saS.arrived fun m => m.kind == MsgKind.shootAck), saS.fab.shoots = [(m.tag, m.pkg, [m.core], 500)] ∧ 500 + 60 ≤ saS.fcyc ∧ m.pkg =
      saS.pkg ∧ hartParts m.tag = some (0, 0, 5) ∧ (saS.ctx 0 5).st ≠ CtxState.empty) := by
  refine ⟨?_, ⟨(wjS wlB), { cause := 5, tval := 0x5123 }, ?_⟩, ⟨(wjS wlN), ?_⟩, ⟨(wjS wlA), (BitVec.ofNat 64 w0A), ?_⟩, ⟨(wjS wlO), (BitVec.ofNat 64
    w0A), ?_⟩, ?_, ?_, ?_⟩
  · exact ⟨{ va := 0x5123, kind := .load, cycle := 900 }, by decide +kernel, by decide +kernel, by decide +kernel, by decide +kernel, fun v h => by rcases h with h | h <;> exact (nomatch (show (none : Option Walk) = some v from h)), by decide +kernel, by decide +kernel⟩
  · decide +kernel
  · decide +kernel
  · decide +kernel
  · decide +kernel
  · decide +kernel
  · decide +kernel
  · decide +kernel

def dupM : Dup := { line := 0x80, core := 0, m := true, way := 0 }
def rq (k : MsgKind) : Msg := { kind := k, line := 0x80, slice := 8, tag := 5, at_ := 600 }
def sAdm : State := (homeB [(0x80, mscA)] [] [rq .rdS] []).modSlice 8 (fun sl => { sl with lastAdmit := some 625 })
def rqH : Msg := { rq .amoH with far := .amo .add 3 5 0x2000 }
def nfS (k : MsgKind) : State := withRegs (homeB [(0x80, mscA)] [] [rq k] []) [(⟨.glbFired, 0, 64⟩, 0, 0, 2)]

/-- Each clause of `Obligations.RequestsAndReleasesAtAHome` has a state and operands that meet its hypotheses. -/
theorem meets_RequestsAndReleasesAtAHome :
    (∃ s : State, ∃ c : Instr, ∃ m ∈ (s.arrived fun m => m.kind == MsgKind.rdS && m.slice == 8), (c, MsgKind.rdS) ∈ [(c, MsgKind.rdS), (Instr.rdM 8,
      MsgKind.rdM), (Instr.upg 8, MsgKind.upg)] ∧ ((List.filter (fun a => s.srcOf a == s.srcOf m) (s.slice 8).arr).length < 4)) ∧
    (∃ s : State, ∃ m ∈ (s.arrived fun m => m.kind == MsgKind.amoH && m.slice == 8), ((List.filter (fun a => s.srcOf a == s.srcOf m) (s.slice
      8).arr).length < 4) ∧ sliceOf m.line = 8 ∧ (s.slice 8).busy m.line = none) ∧
    (∃ s : State, ∃ m ∈ (s.arrived fun m => m.kind == MsgKind.wb && m.slice == 8), sliceOf m.line = 8 ∧ m.core < 240 ∧ m.pkg = s.pkg ∧ s.dupOf m.line
      m.core = none) ∧
    (∃ s : State, ∃ m ∈ (s.arrived fun m => m.kind == MsgKind.wb && m.slice == 8), ∃ e ∈ (s.dupOf m.line m.core), sliceOf m.line = 8 ∧ m.core < 240 ∧
      m.pkg = s.pkg ∧ e.m = true ∧ s.homed m.line = true ∧ s.slotAllows 8 s.fcyc m.part = true ∧ (∀ (k : Trk), k ∈ (s.slice 8).trk → k.req.line ≠
      m.line) ∧ s.retiredPage m.line = false ∧ m.poison = false) ∧
    (∃ s : State, ∃ m ∈ (s.arrived fun m => m.kind == MsgKind.evc && m.slice == 8), sliceOf m.line = 8 ∧ m.core < 240 ∧ (s.slice 8).busy m.line =
      none ∧ s.homed m.line = true) ∧
    (∃ s : State, ∃ m ∈ (s.arrived fun m => m.kind == MsgKind.snpAck && m.slice == 8), sliceOf m.line = 8 ∧ m.arg = 0 ∧ m.flag = false ∧ (∀ (k :
      Trk), k ∈ (s.slice 8).trk → k.req.line ≠ m.line) ∧ (∀ (e : Dup), s.dupOf m.line m.core = some e → e.m = false)) ∧
    (∃ s : State, ∃ m ∈ (s.arrived fun m => m.kind == MsgKind.snpData && m.slice == 8), ∃ e ∈ (s.dupOf m.line m.core), sliceOf m.line = 8 ∧ s.homed
      m.line = true ∧ e.m = true ∧ (∀ (k : Trk), k ∈ (s.slice 8).trk → k.req.line ≠ m.line) ∧ s.retiredPage m.line = false ∧ m.poison = false) := by
  refine ⟨⟨(homeN { kind := .rdS } [] []), (Instr.rdS 8), ?_⟩, ⟨(homeN { kind := .amoH } [] [{ line := 0x80, core := 0, m := false, way := 0 }]),
    ?_⟩, ⟨(homeN { kind := .wb } [] []), ?_⟩, ⟨(homeN { kind := .wb, data := lineA, hasData := true } [] [dupM]), ?_⟩, ⟨(homeN { kind := .evc } [] [{ dupM with m := false }]),
    ?_⟩, ⟨(homeN { kind := .snpAck } [] [{ dupM with m := false }]), ?_⟩, ⟨(homeN { kind := .snpData, data := lineA } [] [dupM]), ?_⟩⟩
  all_goals decide +kernel

/-- Each clause of `Obligations.HomeAdmissionAndGrants` has a state and operands that meet its hypotheses. -/
theorem meets_HomeAdmissionAndGrants :
    (((sAdm.tidy 8).finishRemovals.slice 8).lastAdmit = some (sAdm.tidy 8).finishRemovals.fcyc) ∧
    (∃ s : State, ∃ x ∈ (s.msc (rq MsgKind.rdS).line), (s.slice 8).trk = [] ∧ (s.slice 8).rdy = [] ∧ (s.slice 8).arr = [rq MsgKind.rdS] ∧ (s.slice
      8).wbuf = [] ∧ s.home.removals = [] ∧ (s.slice 8).lastAdmit ≠ some s.fcyc ∧ s.slotAllows 8 s.fcyc (rq MsgKind.rdS).part = true ∧ (rq
      MsgKind.rdS).pkg = s.pkg ∧ (rq MsgKind.rdS).core < 240 ∧ s.dieOut (dieOf (rq MsgKind.rdS).core) = false ∧ sliceOf (rq MsgKind.rdS).line = 8 ∧
      s.homed (rq MsgKind.rdS).line = true ∧ s.npkg ≤ 1 ∧ s.vecOf (rq MsgKind.rdS).line = 0 ∧ s.homeReason (rq MsgKind.rdS).line = none ∧ (∀ (d :
      Dup), d ∈ s.holders (rq MsgKind.rdS).line → d.core = (rq MsgKind.rdS).core) ∧ x.p = false ∧ (rq MsgKind.rdS).kind = MsgKind.rdS) ∧
    (∃ s : State, ∃ m : Msg, (s.slice 8).trk = [] ∧ (s.slice 8).rdy = [] ∧ (s.slice 8).arr = [m] ∧ (s.slice 8).wbuf = [] ∧ s.home.removals = [] ∧
      (s.slice 8).lastAdmit ≠ some s.fcyc ∧ s.slotAllows 8 s.fcyc m.part = true ∧ m.pkg = s.pkg ∧ m.core < 240 ∧ s.dieOut (dieOf m.core) = false ∧
      sliceOf m.line = 8 ∧ s.homed m.line = true ∧ s.npkg ≤ 1 ∧ s.vecOf m.line = 0 ∧ s.homeReason m.line = none ∧ (∀ (d : Dup), d ∈ s.holders m.line
      → d.core = m.core) ∧ s.msc m.line = some mscA ∧ mscA.p = false ∧ m.kind = MsgKind.rdM ∧ m.flag = false) ∧
    (∃ s : State, ∃ m : Msg, (s.slice 8).trk = [] ∧ (s.slice 8).rdy = [] ∧ (s.slice 8).arr = [m] ∧ (s.slice 8).wbuf = [] ∧ s.home.removals = [] ∧
      (s.slice 8).lastAdmit ≠ some s.fcyc ∧ s.slotAllows 8 s.fcyc m.part = true ∧ m.pkg = s.pkg ∧ m.core < 240 ∧ s.dieOut (dieOf m.core) = false ∧
      sliceOf m.line = 8 ∧ s.homed m.line = true ∧ s.npkg ≤ 1 ∧ s.vecOf m.line = 0 ∧ s.homeReason m.line = none ∧ (∀ (d : Dup), d ∈ s.holders m.line
      → d.core = m.core) ∧ s.msc m.line = some mscA ∧ mscA.p = false ∧ m.kind = MsgKind.upg ∧ (s.dupOf m.line m.core).isSome = true) ∧
    (∃ s : State, (s.slice 8).trk = [] ∧ (s.slice 8).rdy = [] ∧ (s.slice 8).arr = [rqH] ∧ (s.slice 8).wbuf = [] ∧ s.home.removals = [] ∧ (s.slice
      8).lastAdmit ≠ some s.fcyc ∧ s.slotAllows 8 s.fcyc rqH.part = true ∧ rqH.pkg = s.pkg ∧ rqH.core < 240 ∧ s.dieOut (dieOf rqH.core) = false ∧
      sliceOf rqH.line = 8 ∧ s.homed rqH.line = true ∧ s.npkg ≤ 1 ∧ s.vecOf rqH.line = 0 ∧ s.homeReason rqH.line = none ∧ (∀ (d : Dup), d ∈ s.holders
      rqH.line → d.core = rqH.core) ∧ s.msc rqH.line = some mscA ∧ mscA.p = false ∧ rqH.kind = MsgKind.amoH ∧ s.holders rqH.line = [] ∧ rqH.far =
      FarOp.amo AmoOp.add 3 5 0x2000 ∧ s.retiredPage rqH.line = false) ∧
    (∃ s : State, ∃ m : Msg, ∃ r ∈ (s.homeReason m.line), (s.slice 8).trk = [] ∧ (s.slice 8).rdy = [] ∧ (s.slice 8).arr = [m] ∧ (s.slice 8).wbuf = []
      ∧ s.home.removals = [] ∧ (s.slice 8).lastAdmit ≠ some s.fcyc ∧ s.slotAllows 8 s.fcyc m.part = true ∧ m.pkg = s.pkg ∧ m.core < 240 ∧ sliceOf
      m.line = 8 ∧ s.homed m.line = true ∧ s.npkg ≤ 1 ∧ s.vecOf m.line = 0 ∧ s.holders m.line = [] ∧ (m.kind = MsgKind.rdS ∨ m.kind = MsgKind.rdM ∧
      m.flag = false)) ∧
    (∃ s : State, ∃ m : Msg, (s.slice 8).trk = [] ∧ (s.slice 8).rdy = [] ∧ (s.slice 8).arr = [m] ∧ (s.slice 8).wbuf = [] ∧ s.home.removals = [] ∧
      (s.slice 8).lastAdmit ≠ some s.fcyc ∧ s.slotAllows 8 s.fcyc m.part = true ∧ m.pkg = s.pkg ∧ m.core < 240 ∧ sliceOf m.line = 8 ∧ s.homed m.line
      = true ∧ s.npkg ≤ 1 ∧ s.vecOf m.line = 0 ∧ s.holders m.line = [] ∧ (m.kind = MsgKind.rdS ∨ m.kind = MsgKind.rdM ∧ m.flag = false) ∧
      s.homeReason m.line = none ∧ s.msc m.line = none) := by
  refine ⟨?_, ⟨(homeB [(0x80, mscA)] [] [rq .rdS] []), ?_⟩, ⟨(homeB [(0x80, mscA)] [] [rq .rdM] []), (rq .rdM), ?_⟩, ⟨(homeB [(0x80, mscA)] [{ dupM with m := false }]
    [rq .upg] []), (rq .upg), ?_⟩, ⟨(homeB [(0x80, mscA)] [] [rqH] []), ?_⟩, ⟨(nfS .rdS), (rq .rdS), ?_⟩, ⟨(homeB [] [] [rq .rdS] []), (rq .rdS),
    ?_⟩⟩
  all_goals decide +kernel

def rqm (o : ReelOp) : RMsg := { op := o, m := { kind := .rdS, line := 0x80, slice := 8, tag := 5, core := 0 } }
def dS : Dup := { line := 0x80, core := 0, m := false, way := 0 }
def dM : Dup := { line := 0x80, core := 0, m := true, way := 0 }
def trkF : Trk := { req := { kind := .rdS, line := 0x80, slice := 8, tag := 5 }, active := true, reel := false, remote := true }
def lnR : Nat := 0x80 + 2 ^ 38
def rspR : State := { withRegs base [(.reelSysMembers, 0, 0, 3)] with
  home := { slices := [(8, { trk := [{ trkF with req := { kind := .rdS, line := lnR, slice := 8, tag := 5 } }] })] }
  reel := { ({} : Reel) with rx := [{ port := 0, at_ := 600, msg := { op := .dataS, src := 1, m := { kind := .dataS, line := lnR, slice := 8, tag := 5, data := lineA, hasData := true } } }] } }
def wbR : RMsg := { op := .wb, m := { kind := .wb, line := 0x80, slice := 8, data := lineA, hasData := true } }
def fwA : Msg := { kind := .wb, line := 0x80, slice := 8 }
def tmT (r : Bool) (l : Nat) : State := (homeB [] [] [] [{ req := { kind := .rdS, line := l, slice := 8, tag := 5 }, active := true, reel := false, dram := !r, remote := r }]) |> fun s => { s with now := 2 ^ 40 }
def ncA : NcReq := { id := 4, agent := .port 2, write := false, pa := 0x2000, len := 64 }
def ncW : NcReq := { ncA with write := true, val := lineA }
def ncP : NcReq := { ncA with write := true, val := lineA, len := 8, pa := 0x2008 }
def ncS (q : NcReq) (msc : Tab Msc) : State := { homeB msc [] [] [] with home := { (homeB msc [] [] []).home with ncq := [q] } }
def ncF (q : NcReq) : State := withRegs (ncS q []) [(⟨.glbFired, 0, 64⟩, 0, 0, 2)]
def drS1 (q : NcReq) (e : List (Nat × Nat)) : State := let s := ncS q []; { s with mem := { s.mem with reads := [{ slice := 8, line := 0x80, nc := some 4, ready := 600 }] } }
def rdA : DramRd := { slice := 8, line := 0x80, nc := some 4, ready := 600 }
def poiS : State := (drS1 ncA []).dramWrite 0x80 0 true
def rdB : DramRd := { slice := 8, line := 0x80, ready := 600 }
def trS : State := let s := homeB [] [] [] [{ req := { kind := .rdS, line := 0x80, slice := 8, tag := 5 }, active := true, reel := false, dram := true }]; { s with mem := { s.mem with reads := [rdB] } }
def trkD : Trk := { req := { kind := .rdS, line := 0x80, slice := 8, tag := 5 }, active := true, reel := false, dram := true }

theorem ncA_noPeer (q : Nat) : ncA.agent ≠ .peer q := nofun
theorem ncW_noPeer (q : Nat) : ncW.agent ≠ .peer q := nofun
theorem ncP_noPeer (q : Nat) : ncP.agent ≠ .peer q := nofun

/-- Each clause of `Obligations.HomesAcrossPackages` has a state and operands that meet its hypotheses. -/
theorem meets_HomesAcrossPackages :
    (∃ s : State, ∃ r ∈ (s.reelFor 8 fun o => (reqKindOf o).isSome), reqKindOf r.op = some MsgKind.rdM) ∧
    (∃ s : State, ∃ c : Instr, ∃ r ∈ (s.reelFor 8 fun x => x == if true = true then ReelOp.rsnpInv else ReelOp.rsnpShd), (c, true) ∈ [(Instr.rsnpShd
      8, false), (c, true)] ∧ (List.filter (fun d => if true = true then !(r.excl && d.core == r.m.core) else d.m) (s.holders r.m.line) ≠ [])) ∧
    (∃ s : State, ∃ r : RMsg, ∃ c : Instr, (c, true) ∈ [(Instr.rsnpShd 8, false), (c, true)] ∧ ((s.reelFor 8 fun x => x == if true = true then
      ReelOp.rsnpInv else ReelOp.rsnpShd) = some r) ∧ (List.filter (fun d => if true = true then !(r.excl && d.core == r.m.core) else d.m) (s.holders
      r.m.line) = []) ∧ (∀ (m : Msg), m ∈ (s.slice 8).fwd → m.line ≠ r.m.line)) ∧
    (∃ s : State, ∃ r ∈ (s.reelFor 8 fun x => x == ReelOp.rsnpAck), sliceOf r.m.line = 8 ∧ (s.slice 8).busy r.m.line = none) ∧
    (∃ s : State, ∃ r ∈ (s.reelFor 8 fun x => x == ReelOp.rsnpData), sliceOf r.m.line = 8 ∧ (s.slice 8).busy r.m.line = none ∧ s.owned r.m.line =
      true ∧ bit (s.vecOf r.m.line) r.src = true ∧ r.src ≠ s.pkg ∧ s.pkg < 8 ∧ s.retiredPage r.m.line = false ∧ r.m.poison = false) ∧
    (∃ r ∈ (rspR.reelFor 8 fun o => (respKindOf o).isSome), ∃ k ∈ ((rspR.slice 8).busy r.m.line), sliceOf r.m.line = 8 ∧ r.m.status = 0 ∧ r.m.hasData
      = true ∧ k.remote = true ∧ k.req.pkg = rspR.pkg ∧ k.req.core < 240 ∧ k.req.line = r.m.line ∧ k.closed = false ∧ k.snp = [] ∧ k.rsnp = [] ∧
      k.reel = false ∧ k.noReq = false ∧ rspR.dieOut (dieOf k.req.core) = false ∧ rspR.homed r.m.line = false ∧ (r.op = ReelOp.dataS ∨ r.op =
      ReelOp.dataM)) ∧
    (∃ s : State, ∃ r ∈ (s.reelFor 8 fun o => o == ReelOp.wb || o == ReelOp.evc), sliceOf r.m.line = 8 ∧ (s.slice 8).busy r.m.line = none ∧ r.op =
      ReelOp.wb ∧ s.owned r.m.line = true ∧ bit (s.vecOf r.m.line) r.src = true ∧ r.m.flag = false ∧ r.src ≠ s.pkg ∧ s.slotAllows 8 s.fcyc r.m.part =
      true ∧ s.retiredPage r.m.line = false ∧ r.m.poison = false) ∧
    (∃ s : State, ∃ r ∈ (s.reelFor 8 fun o => o == ReelOp.wb || o == ReelOp.evc), sliceOf r.m.line = 8 ∧ (s.slice 8).busy r.m.line = none ∧ r.op =
      ReelOp.evc ∧ s.owned r.m.line = false) ∧
    (∃ s : State, ∃ r ∈ (s.reelFor 8 fun o => o == ReelOp.wbAck || o == ReelOp.evcAck), ∃ m ∈ (List.find? (fun m => m.line == r.m.line) (s.slice
      8).fwd), m.core < 240) ∧
    (∃ s : State, sliceOf 128 = 8 ∧ (s.slice 8).trk = [{ req := { kind := MsgKind.rdS, line := 128, tag := 5, slice := 8 : Msg }, active := true, reel := false, dram := !false : Trk }]
      ∧ { req := { kind := MsgKind.rdS, line := 128, tag := 5, slice := 8 : Msg }, active := true, reel := false, dram := !false : Trk }.req.line =
      128 ∧ { req := { kind := MsgKind.rdS, line := 128, tag := 5, slice := 8 : Msg }, active := true, reel := false, dram := !false : Trk }.active =
      true ∧ { req := { kind := MsgKind.rdS, line := 128, tag := 5, slice := 8 : Msg }, active := true, reel := false, dram := !false : Trk }.rhome =
      8 ∧ { req := { kind := MsgKind.rdS, line := 128, tag := 5, slice := 8 : Msg }, active := true, reel := false, dram := !false : Trk }.timer +
      s.tmoLimit 8 ≤ s.fcyc ∧ { req := { kind := MsgKind.rdS, line := 128, tag := 5, slice := 8 : Msg }, active := true, reel := false, dram := !false : Trk }.snp
      = [] ∧ { req := { kind := MsgKind.rdS, line := 128, tag := 5, slice := 8 : Msg }, active := true, reel := false, dram := !false : Trk }.rsnp =
      [] ∧ { req := { kind := MsgKind.rdS, line := 128, tag := 5, slice := 8 : Msg }, active := true, reel := false, dram := !false : Trk }.granted =
      false ∧ { req := { kind := MsgKind.rdS, line := 128, tag := 5, slice := 8 : Msg }, active := true, reel := false, dram := !false : Trk }.noReq
      = false ∧ { req := { kind := MsgKind.rdS, line := 128, tag := 5, slice := 8 : Msg }, active := true, reel := false, dram := !false : Trk }.req.pkg
      = s.pkg ∧ { req := { kind := MsgKind.rdS, line := 128, tag := 5, slice := 8 : Msg }, active := true, reel := false, dram := !false : Trk }.req.kind
      ∈ [MsgKind.rdS, MsgKind.rdM, MsgKind.amoH] ∧ { req := { kind := MsgKind.rdS, line := 128, tag := 5, slice := 8 : Msg }, active := true, reel := false, dram := !false : Trk }.remote
      = false ∧ { req := { kind := MsgKind.rdS, line := 128, tag := 5, slice := 8 : Msg }, active := true, reel := false, dram := !false : Trk }.dram
      = true) ∧
    (∃ s : State, ∃ k : Trk, sliceOf lnR = 8 ∧ (s.slice 8).trk = [k] ∧ k.req.line = lnR ∧ k.active = true ∧ k.rhome = 8 ∧ k.timer + s.tmoLimit 8 ≤
      s.fcyc ∧ k.snp = [] ∧ k.rsnp = [] ∧ k.granted = false ∧ k.noReq = false ∧ k.req.pkg = s.pkg ∧ k.req.kind ∈ [MsgKind.rdS, MsgKind.rdM,
      MsgKind.amoH] ∧ k.remote = true) := by
  refine ⟨⟨(homeR (rqm .rdM) [] [] 0 [] []), ?_⟩, ⟨(homeR (rqm .rsnpInv) [] [dS] 0 [] []), (Instr.rsnpInv 8), ?_⟩, ⟨(homeR (rqm .rsnpInv) [] [] 0 []
    []), { rqm .rsnpInv with src := 1 }, (Instr.rsnpInv 8), ?_⟩, ⟨(homeR (rqm .rsnpAck) [] [] 2 [] []), ?_⟩, ⟨(homeR { (rqm .rsnpData) with m := { (rqm .rsnpData).m with data := lineA } }
    [] [] 3 [] []), ?_⟩, ?_, ⟨(homeR wbR [] [] 3 [] []), ?_⟩, ⟨(homeR { wbR with op := .evc } [] [] 2 [] []), ?_⟩, ⟨(homeR (rqm .wbAck) [] [] 0 []
    [fwA]), ?_⟩, ⟨(tmT false 0x80), ?_⟩, ⟨(tmT true lnR), { req := { kind := .rdS, line := lnR, slice := 8, tag := 5 }, active := true, reel := false, remote := true },
    ?_⟩⟩
  all_goals decide +kernel

/-- Each clause of `Obligations.NonCoherentAccessesAndDram` has a state and operands that meet its hypotheses. -/
theorem meets_NonCoherentAccessesAndDram :
    (∃ s : State, ∃ e ∈ (s.homeReason (ncA.pa / 64)), (∀ (q : Nat), ncA.agent ≠ Agent.peer q) ∧ ncA.agent ≠ Agent.kiln ∧ s.ncFront 8 false = some
      ncA) ∧
    (∃ s : State, ∃ m ∈ (s.msc (ncA.pa / 64)), (∀ (q : Nat), ncA.agent ≠ Agent.peer q) ∧ ncA.agent ≠ Agent.kiln ∧ s.ncFront 8 false = some ncA ∧
      s.homeReason (ncA.pa / 64) = none) ∧
    (∃ s : State, (∀ (q : Nat), ncA.agent ≠ Agent.peer q) ∧ ncA.agent ≠ Agent.kiln ∧ s.ncFront 8 false = some ncA ∧ s.homeReason (ncA.pa / 64) = none
      ∧ s.msc (ncA.pa / 64) = none) ∧
    (∃ s : State, ∃ e ∈ (s.homeReason (ncW.pa / 64)), (∀ (q : Nat), ncW.agent ≠ Agent.peer q) ∧ ncW.agent ≠ Agent.kiln ∧ s.ncFront 8 true = some ncW
      ∧ ncW.poison = false) ∧
    (∃ s : State, (∀ (q : Nat), ncW.agent ≠ Agent.peer q) ∧ ncW.agent ≠ Agent.kiln ∧ s.ncFront 8 true = some ncW ∧ ncW.poison = false ∧ s.homeReason
      (ncW.pa / 64) = none ∧ s.retiredPage (ncW.pa / 64) = false ∧ (ncW.len = 64 ∧ 0 = 0 ∨ ncW.len < 64 ∧ Option.map (fun x => (x.data, x.p)) (s.msc
      (ncW.pa / 64)) = some (0, false))) ∧
    (∃ s : State, ∃ m ∈ (s.msc (ncP.pa / 64)), (∀ (q : Nat), ncP.agent ≠ Agent.peer q) ∧ ncP.agent ≠ Agent.kiln ∧ s.ncFront 8 true = some ncP ∧
      ncP.poison = false ∧ s.homeReason (ncP.pa / 64) = none ∧ s.retiredPage (ncP.pa / 64) = false ∧ ncP.len < 64 ∧ m.p = true) ∧
    (∃ s : State, (∀ (q : Nat), ncP.agent ≠ Agent.peer q) ∧ ncP.agent ≠ Agent.kiln ∧ s.ncFront 8 true = some ncP ∧ ncP.poison = false ∧ s.homeReason
      (ncP.pa / 64) = none ∧ s.retiredPage (ncP.pa / 64) = false ∧ ncP.len < 64 ∧ s.msc (ncP.pa / 64) = none) ∧
    (∃ s : State, ∃ errs : List SymErr, (∀ (q : Nat), ncA.agent ≠ Agent.peer q) ∧ ncA.agent ≠ Agent.kiln ∧ s.mem.retrain.find 8 = none ∧ s.mem.reads
      = [rdA] ∧ mcOf (rdA.line * 64) = 8 ∧ rdA.ready ≤ s.fcyc ∧ rdA.nc = some ncA.id ∧ s.home.ncq = [ncA] ∧ ncA.write = false ∧ rdA.line = ncA.pa /
      64 ∧ s.msc rdA.line = none ∧ (s.decodeLine rdA.line errs).out = EccOut.clean) ∧
    (∃ errs : List SymErr, (∀ (q : Nat), ncA.agent ≠ Agent.peer q) ∧ ncA.agent ≠ Agent.kiln ∧ poiS.mem.retrain.find 8 = none ∧ poiS.mem.reads = [rdA]
      ∧ mcOf (rdA.line * 64) = 8 ∧ rdA.ready ≤ poiS.fcyc ∧ rdA.nc = some ncA.id ∧ poiS.home.ncq = [ncA] ∧ ncA.write = false ∧ rdA.line = ncA.pa / 64
      ∧ poiS.msc rdA.line = none ∧ (poiS.decodeLine rdA.line errs).out = EccOut.poisoned) ∧
    (∃ errs : List SymErr, (∀ (q : Nat), ncA.agent ≠ Agent.peer q) ∧ ncA.agent ≠ Agent.kiln ∧ trS.mem.retrain.find 8 = none ∧ trS.mem.reads = [rdB] ∧
      mcOf (rdB.line * 64) = 8 ∧ rdB.ready ≤ trS.fcyc ∧ rdB.nc = none ∧ rdB.slice = 8 ∧ sliceOf rdB.line = 8 ∧ (trS.slice 8).trk = [trkD] ∧
      trkD.req.line = rdB.line ∧ trkD.active = true ∧ trkD.rhome = 8 ∧ trkD.dram = true ∧ trkD.req.kind = MsgKind.rdS ∧ trkD.data = none ∧ trkD.fail
      = 0 ∧ trkD.snp = [] ∧ trkD.rsnp = [] ∧ trkD.granted = false ∧ trkD.remote = false ∧ trkD.redo = false ∧ trkD.closed = false ∧ trkD.noReq =
      false ∧ trkD.reel = false ∧ trkD.req.pkg = trS.pkg ∧ trkD.req.core < 240 ∧ trS.dieOut (dieOf trkD.req.core) = false ∧ trS.npkg ≤ 1 ∧ trS.msc
      rdB.line = none ∧ (trS.decodeLine rdB.line errs).out = EccOut.clean) ∧
    (∃ errs : List SymErr, (∀ (q : Nat), ncA.agent ≠ Agent.peer q) ∧ ncA.agent ≠ Agent.kiln ∧ trS.mem.retrain.find 8 = none ∧ trS.mem.reads = [rdB] ∧
      mcOf (rdB.line * 64) = 8 ∧ rdB.ready ≤ trS.fcyc ∧ rdB.nc = none ∧ rdB.slice = 8 ∧ sliceOf rdB.line = 8 ∧ (trS.slice 8).trk = [trkD] ∧
      trkD.req.line = rdB.line ∧ trkD.active = true ∧ trkD.rhome = 8 ∧ trkD.dram = true ∧ trkD.req.kind = MsgKind.rdS ∧ trkD.data = none ∧ trkD.fail
      = 0 ∧ trkD.snp = [] ∧ trkD.rsnp = [] ∧ trkD.granted = false ∧ trkD.remote = false ∧ trkD.redo = false ∧ trkD.closed = false ∧ trkD.noReq =
      false ∧ trkD.reel = false ∧ trkD.req.pkg = trS.pkg ∧ trkD.req.core < 240 ∧ trS.dieOut (dieOf trkD.req.core) = false ∧ trS.npkg ≤ 1 ∧ trS.msc
      rdB.line = none ∧ (trS.decodeLine rdB.line errs).out = EccOut.uncorrectable ∧ trS.home.removals = []) := by
  refine ⟨⟨(ncF ncA), ?_⟩, ⟨(ncS ncA [(0x80, mscA)]), ?_⟩, ⟨(ncS ncA []), ?_⟩, ⟨(ncF ncW), ?_⟩, ⟨(ncS ncW []), ?_⟩, ⟨(ncS ncP [(0x80, { mscA with p := true })]),
    ?_⟩, ⟨(ncS ncP []), ?_⟩, ⟨(drS1 ncA []), [], ?_⟩, ⟨[], ?_⟩, ⟨[], ?_⟩, ⟨[{ pos := 3, xor := 5 }, { pos := 7, xor := 9 }, { pos := 11, xor := 1 },
    { pos := 14, xor := 77 }, { pos := 19, xor := 77 }, { pos := 22, xor := 1 }, { pos := 30, xor := 1 }, { pos := 41, xor := 9 }, { pos := 52, xor := 19 },
    { pos := 60, xor := 8 }], ?_⟩⟩
  · simp only [ne_eq, ncA_noPeer, ncW_noPeer, ncP_noPeer, not_false_eq_true, implies_true, true_and]; decide +kernel
  · simp only [ne_eq, ncA_noPeer, ncW_noPeer, ncP_noPeer, not_false_eq_true, implies_true, true_and]; decide +kernel
  · simp only [ne_eq, ncA_noPeer, ncW_noPeer, ncP_noPeer, not_false_eq_true, implies_true, true_and]; decide +kernel
  · simp only [ne_eq, ncA_noPeer, ncW_noPeer, ncP_noPeer, not_false_eq_true, implies_true, true_and]; decide +kernel
  · simp only [ne_eq, ncA_noPeer, ncW_noPeer, ncP_noPeer, not_false_eq_true, implies_true, true_and]; decide +kernel
  · simp only [ne_eq, ncA_noPeer, ncW_noPeer, ncP_noPeer, not_false_eq_true, implies_true, true_and]; decide +kernel
  · simp only [ne_eq, ncA_noPeer, ncW_noPeer, ncP_noPeer, not_false_eq_true, implies_true, true_and]; decide +kernel
  · simp only [ne_eq, ncA_noPeer, ncW_noPeer, ncP_noPeer, not_false_eq_true, implies_true, true_and]; decide +kernel
  · simp only [ne_eq, ncA_noPeer, ncW_noPeer, ncP_noPeer, not_false_eq_true, implies_true, true_and]; decide +kernel
  · simp only [ne_eq, ncA_noPeer, ncW_noPeer, ncP_noPeer, not_false_eq_true, implies_true, true_and]; decide +kernel
  · simp only [ne_eq, ncA_noPeer, ncW_noPeer, ncP_noPeer, not_false_eq_true, implies_true, true_and]; decide +kernel

def mcS : State := withRegs base [(.mcCfgUp, 3, 0, 1), (.mcPatrolPeriod, 3, 0, 24), (.mcCfgD32, 0, 0, 1)]
def mcR : State := { mcS with mem := { mcS.mem with rows := [(3 * 2048, 7), (3 * 2048 + 1, 9)] } }
def mcC : State := { mcS with mem := { mcS.mem with caRetry := [3] } }
def mcT : State := { homeB [(0x83, { mscA with d := true }), (0x84, mscA)] [] [] [] with mem := { ({} : Mem) with retrain := [(mcOf 0x20C0, 5000)] } }
def winS : State := { base with now := 2 ^ 50, mem := { base.mem with devEv := [(1, 2)] } }
def ectB : State := withRegs base [(⟨.glbFired, 0, 64⟩, 2, 0, 2 ^ 64 - 1), (.mcCfgD32, 0, 0, 1), (.ectAddrLine, 0, 0, 2 ^ 31), (.mcCfgUp, 0, 0, 1)]
def ectH : State := { ectB with home := { ectB.home with slices := [(sliceOf (2 ^ 31), { dup := [{ line := 2 ^ 31, core := 0, m := false, way := 0 }] })] } }
def ectD (op : Nat) : State := { ectB with mem := { ectB.mem with ect := some (op, 2 ^ 31, 700) }, now := 2000 }
def frS : State := { base with mem := { base.mem with fireQ := [(70, [9])], dram := [(70 * 2 ^ 30 + 5, 7), (71 * 2 ^ 30 + 5, 8)] } }
def mcmd (op : Nat) (ps : List W64) : State := cmdS op ps mcS
def mbxC (s : State) : State := withRegs { s with kiln := { s.kiln with cmds := s.kiln.cmds.map (fun c => { c with src := .mbx 0 0 false }) } } [(.prtCtlPlat, 0, 0, 0)]
def scS : State := { mcS with mem := { mcS.mem with scrub := some (1, 70 * 2 ^ 30, 4096) } }
def rtS' : State := { mcmd 0x303 [0x5000] with home := { ({} : Home) with retired := List.range 1024 |>.map (· + 100) } }
def rtM : State := { mcmd 0x303 [0x5000] with home := { ({} : Home) with msc := [(0x140, mscA), (0x200, mscA)] } }
def mkS (op : Nat) (v : W64) : State := withRegs (mcmd op [v]) [(.mcCfgLranks, 3, 0, 2)]
def mkB (v : W64) : State := (mkS 0x305 v).rput .mcSuspect 3 1 0xF0F0FFFF
def rgS (f : Bool) : State := { homeB [] [dM8] [] [] with home := { slices := [(8, { dup := [{ line := 0x80, core := 0, m := true, way := 0 }], rcSet := some 8 })], range := some { lo := 0x80, hi := 0x90, flush := f, cmd := 1 } } }
  where dM8 : Dup := { line := 0x80, core := 0, m := true, way := 0 }
def rgN : State := { base with home := { slices := [(8, { rcSet := some 8 })], range := some { lo := 0x80, hi := 0x90, flush := true, cmd := 1 } } }
def rgD : State := { base with home := { slices := (List.range 16).map (fun n => (n, { rcSet := some 64 })), range := some { lo := 0x80, hi := 0x90, flush := true, cmd := 1 } } }

/-- Each clause of `Obligations.MemoryControllers` has a state and operands that meet its hypotheses. -/
theorem meets_MemoryControllers :
    (mcR.fget Fld.mcCfgUp 3 = 1 ∧ Tab.get 0 mcR.mem.refNext 3 ≤ mcR.now ∧ mcR.fget Fld.pwrStatusState ≤ 1) ∧
    (mcS.fget Fld.mcCfgUp 3 = 1 ∧ mcS.mem.retrain.find 3 = none ∧ ¬3 ∈ mcS.mem.caRetry) ∧
    (mcC.fget Fld.mcCfgUp 3 = 1 ∧ mcC.mem.retrain.find 3 = none ∧ 3 ∈ mcC.mem.caRetry) ∧
    (mcT.mem.retrain.find 11 ≠ none) ∧
    (mcT.mem.retrain.find 11 ≠ none ∧ mcT.mem.reads = []) ∧
    (∃ errs : List SymErr, mcS.fget Fld.mcPatrolPeriod 3 ≠ 0 ∧ mcS.hwMode 0 = true ∧ mcS.fget Fld.mcCfgUp 3 = 1 ∧ Tab.get 0 mcS.mem.patNext 3 ≤
      mcS.now ∧ mcS.fget Fld.mcPatrolNext 3 + 1 < mcS.dramBytes / 1024 ∧ (mcS.decodeLine (mcS.lineAt 3 (mcS.fget Fld.mcPatrolNext 3)) errs).out =
      EccOut.clean) ∧
    (winS.mem.winStart + 2 ^ min 48 (max 30 (winS.fget Fld.glbMemrasWindow)) ≤ winS.fcyc) ∧
    (base.hwMode 7 = true ∧ ¬4 ∈ base.mem.dimmHot) ∧
    (base.mem.dimmHot = [] ∧ base.fget Fld.pwrThermMemhot ≠ 1) := by
  refine ⟨?_, ?_, ?_, ?_, ?_, ⟨[], ?_⟩, ?_, ?_, ?_⟩
  all_goals decide +kernel

/-- Each clause of `Obligations.MemoryTestAndFiring` has a state and operands that meet its hypotheses. -/
theorem meets_MemoryTestAndFiring :
    (∃ c : Instr, ∃ r ∈ (base.ectReason (base.fget Fld.ectAddrLine)), (c, 2) ∈ [(Instr.ectWriteRaw Req.host, 1), (c, 2), (Instr.ectReadRaw Req.host,
      3), (Instr.ectReadDec Req.host, 4)]) ∧
    (∃ c : Instr, (c, 2) ∈ [(Instr.ectWriteRaw Req.host, 1), (c, 2), (Instr.ectReadRaw Req.host, 3), (Instr.ectReadDec Req.host, 4)] ∧ ectB.ectReason
      (ectB.fget Fld.ectAddrLine) = none) ∧
    (∃ s : State, ∃ l : Nat, s.mem.ect = some (1, l, 700) ∧ s.removing l 1 = false ∧ (∀ (e : Nat × Msc), e ∈ s.home.msc → e.fst ≠ l)) ∧
    (frS.mem.fireQ = [(70, [9])] ∧ frS.kfind 9 = none) := by
  refine ⟨⟨(Instr.ectWriteEnc .host), ?_⟩, ⟨(Instr.ectWriteEnc .host), ?_⟩, ⟨(ectD 1), (2^31), ?_⟩, ?_⟩
  all_goals decide +kernel

/-- Each clause of `Obligations.MemoryCommands` has a state and operands that meet its hypotheses. -/
theorem meets_MemoryCommands :
    (∃ s : State, ∃ c ∈ (s.kready 1 768), (BitVec.toNat (c.p 0) % 2 ^ 30 ≠ 0 ∨ BitVec.toNat (c.p 1) % 2 ^ 30 ≠ 0)) ∧
    (∃ s : State, ∃ c ∈ (s.kready 1 768), BitVec.toNat (c.p 0) % 2 ^ 30 = 0 ∧ BitVec.toNat (c.p 1) % 2 ^ 30 = 0 ∧ s.inDram (BitVec.toNat (c.p 0))
      (BitVec.toNat (c.p 1)) = true ∧ BitVec.toNat (c.p 0) % 2 ^ 44 + BitVec.toNat (c.p 1) ≤ s.carveBase ∧ (∀ (u : Nat), u ∈ s.unitsOf (BitVec.toNat
      (c.p 0)) (BitVec.toNat (c.p 1)) → ∀ (p : Nat), p < 64 → 2 ≤ s.partState p → s.inWindows p (s.pkg * 2 ^ 44 + u * 2 ^ 30) = false) ∧ s.unitsOf
      (BitVec.toNat (c.p 0)) (BitVec.toNat (c.p 1)) ≠ []) ∧
    (∃ s : State, ∃ c ∈ (s.kready 1 769), (BitVec.toNat (c.p 0) % 0x1000 ≠ 0 ∨ BitVec.toNat (c.p 1) % 0x1000 ≠ 0)) ∧
    (∃ s : State, ∃ c ∈ (s.kready 1 769), BitVec.toNat (c.p 0) % 0x1000 = 0 ∧ BitVec.toNat (c.p 1) % 0x1000 = 0 ∧ s.inDram (BitVec.toNat (c.p 0))
      (BitVec.toNat (c.p 1)) = true ∧ s.outsideM c (BitVec.toNat (c.p 0)) (BitVec.toNat (c.p 1)) = true) ∧
    (∃ s : State, ∃ c ∈ (s.kready 1 769), BitVec.toNat (c.p 0) % 0x1000 = 0 ∧ BitVec.toNat (c.p 1) % 0x1000 = 0 ∧ s.inDram (BitVec.toNat (c.p 0))
      (BitVec.toNat (c.p 1)) = true ∧ s.outsideM c (BitVec.toNat (c.p 0)) (BitVec.toNat (c.p 1)) = false) ∧
    (∃ base : Nat, scS.mem.scrub = some (1, base, 0x1000) ∧ (∀ (i : Nat), i < 0x1000 / 64 → scS.scrubSkips (base / 64 + i) = true)) ∧
    (∃ s : State, ∃ c ∈ (s.kready 1 770), 168 < bits (c.p 0) 0 8) ∧
    (∃ s : State, ∃ c ∈ (s.kready 1 770), bits (c.p 0) 0 8 ≤ 168) ∧
    (∃ s : State, ∃ c ∈ (s.kready 1 771), BitVec.toNat (c.p 0) % 0x1000 ≠ 0) ∧
    (∃ c ∈ (rtS'.kready 1 771), BitVec.toNat (c.p 0) % 0x1000 = 0 ∧ rtS'.inDram (BitVec.toNat (c.p 0)) 0x1000 = true ∧ rtS'.inCarve (BitVec.toNat
      (c.p 0)) = false ∧ rtS'.canary (BitVec.toNat (c.p 0)) = false ∧ 1024 ≤ rtS'.home.retired.length ∧ ¬BitVec.toNat (c.p 0) / 0x1000 ∈
      rtS'.home.retired) ∧
    (∃ c ∈ (rtM.kready 1 771), BitVec.toNat (c.p 0) % 0x1000 = 0 ∧ rtM.inDram (BitVec.toNat (c.p 0)) 0x1000 = true ∧ rtM.inCarve (BitVec.toNat (c.p
      0)) = false ∧ rtM.canary (BitVec.toNat (c.p 0)) = false ∧ rtM.home.retired.length < 1024 ∧ rtM.home.removals = [] ∧ rtM.heldLines (BitVec.toNat
      (c.p 0) / 0x1000 * 64) 64 = [] ∧ rtM.removing (BitVec.toNat (c.p 0) / 0x1000 * 64) 64 = false) ∧
    (∃ s : State, ∃ c ∈ (s.kready 1 772), 10 ≤ bits (c.p 0) 12 4 ∧ bits (c.p 0) 12 4 ≤ 14) ∧
    (∃ s : State, ∃ c ∈ (s.kready 1 772), (bits (c.p 0) 12 4 ≤ 9 ∨ bits (c.p 0) 12 4 = 15) ∧ s.rankUp (bits (c.p 0) 0 4) (bits (c.p 0) 8 4) = true) ∧
    (∃ s : State, ∃ c ∈ (s.kready 1 773), s.rankUp (bits (c.p 0) 0 4) (bits (c.p 0) 8 4) = false) ∧
    (∃ s : State, ∃ c ∈ (s.kready 1 773), s.rankUp (bits (c.p 0) 0 4) (bits (c.p 0) 8 4) = true) ∧
    (∃ s : State, ∃ c ∈ (s.kready 1 774), (BitVec.toNat (c.p 0) % 64 ≠ 0 ∨ BitVec.toNat (c.p 1) % 64 ≠ 0)) ∧
    (∃ s : State, ∃ c ∈ (s.kready 1 774), BitVec.toNat (c.p 0) % 64 = 0 ∧ BitVec.toNat (c.p 1) % 64 = 0 ∧ s.member (pkgOf (BitVec.toNat (c.p 0))) =
      true ∧ BitVec.toNat (c.p 0) % 2 ^ 44 + BitVec.toNat (c.p 1) ≤ s.dramOf (pkgOf (BitVec.toNat (c.p 0))) ∧ s.outsideM c (BitVec.toNat (c.p 0))
      (BitVec.toNat (c.p 1)) = false) ∧
    (∃ s : State, ∃ r ∈ (s.home.range), ∃ i ∈ ((s.slice 8).rcSet), i < 64 ∧ s.slotOwner 8 s.fcyc = none ∧ (s.slice 8).lastAdmit ≠ some s.fcyc ∧
      (s.slice 8).rcOut = [] ∧ (s.slice 8).dup = [{ line := 128, core := 0, m := true, way := 0 : Dup }] ∧ { line := 128, core := 0, m := true, way := 0 : Dup }.line
      / 16 % 64 = i ∧ r.lo ≤ { line := 128, core := 0, m := true, way := 0 : Dup }.line ∧ { line := 128, core := 0, m := true, way := 0 : Dup }.line
      < r.hi ∧ (r.flush = true ∨ { line := 128, core := 0, m := true, way := 0 : Dup }.m = true)) ∧
    (∃ r ∈ (rgN.home.range), ∃ i ∈ ((rgN.slice 8).rcSet), i < 64 ∧ rgN.slotOwner 8 rgN.fcyc = none ∧ (rgN.slice 8).lastAdmit ≠ some rgN.fcyc ∧
      (rgN.slice 8).rcOut = [] ∧ (∀ (d : Dup), d ∈ (rgN.slice 8).dup → d.line / 16 % 64 ≠ i ∨ d.line < r.lo ∨ r.hi ≤ d.line ∨ r.flush = false ∧ d.m =
      false)) ∧
    (∃ r ∈ (rgD.home.range), (∀ (n : Nat), n < 16 → (rgD.slice n).rcSet = some 64 ∧ (rgD.slice n).rcOut = []) ∧ rgD.kfind r.cmd = none) := by
  refine ⟨⟨(mcmd 0x300 [1, 0]), ?_⟩, ⟨(mcmd 0x300 [70 * 2 ^ 30, 2 * 2 ^ 30]), ?_⟩, ⟨(mcmd 0x301 [1, 0]), ?_⟩, ⟨(mbxC (mcmd 0x301 [70 * 2 ^ 30,
    4096])), ?_⟩, ⟨(mcmd 0x301 [70 * 2 ^ 30, 4096]), ?_⟩, ⟨(70 * 2 ^ 30), ?_⟩, ⟨(mcmd 0x302 [169]), ?_⟩, ⟨(mcmd 0x302 [168]), ?_⟩, ⟨(mcmd 0x303 [1]),
    ?_⟩, ?_, ?_, ⟨(mkS 0x304 0xA003), ?_⟩, ⟨(mkS 0x304 0x4103), ?_⟩, ⟨(mkB 0x0000FFFF00000203), ?_⟩, ⟨(mkB 0x0000F0FF00000103), ?_⟩, ⟨(mcmd 0x306 [1,
    0]), ?_⟩, ⟨(mcmd 0x306 [0x2000, 0x1000, 1]), ?_⟩, ⟨(rgS true), ?_⟩, ?_, ?_⟩
  all_goals decide +kernel

def frC : BitVec 72 := 0
def dieA : State := withRegs base [(.slpDstatState, 2, 0, 1), (.slpCfgRplyLimit, 0, 0, 8)]
def dieB (f : SlipG → SlipG) : State := { dieA with dies := Tab.put {} dieA.dies 2 { dieA.die 2 with groups := [(3, f {})] } }
def dieRp : State := dieB (fun g => { g with discard := true, replayReq := some 5 })
def dieW : State := { dieB (fun g => { g with corr := [(1, 2)], replays := 1 }) with now := 2 ^ 50 }
def dieR : State := withRegs (dieB (fun g => { g with repairEnd := 600 })) [(.slpGstatState, 2, 3, 1), (.slpGstatDue, 2, 3, 17), (.slpGstatFailLo, 2, 3, 40), (.slpGstatFailHi, 2, 3, 0x7F), (.slpGstatSpares, 2, 3, 1)]
def dieH : State := dieB (fun g => { g with handEnd := 600 })
def dieX : State := withRegs dieA [(.slpGstatState, 2, 0, 2), (.slpGstatState, 2, 1, 2), (.slpGstatState, 2, 2, 2), (.slpGstatState, 2, 3, 2), (.slpGstatState, 2, 4, 2)]
def polS : State := { dieA with dies := Tab.put {} dieA.dies 2 { dieA.die 2 with polls := 2 } }
def lk (op : Nat) (ps : List W64) : State := cmdS op ps dieA
def onA : State := withRegs (lk 0x601 [2]) [(.slpDstatState, 2, 0, 3)]
def onB : State := withRegs onA [(.glbSetchkPass, 0, 0, 1)]
def rpS : State := withRegs (lk 0x401 [0x302]) [(.slpGstatDue, 2, 3, 17)]
def ltS : State := withRegs (lk 0x402 [0x342]) [(.reelStatState, 2, 0, 2)]

/-- Each clause of `Obligations.SlipLaneCode` has a state and operands that meet its hypotheses. -/
theorem meets_SlipLaneCode :
    (beatSyndrome 0 = 0 ∧ 7 < 72) ∧
    (beatSyndrome 0 = 0 ∧ 7 < 12 ∧ 12 < 72) := by
  refine ⟨?_, ?_⟩
  all_goals decide +kernel

/-- Each clause of `Obligations.SlipLanes` has a state and operands that meet its hypotheses. -/
theorem meets_SlipLanes :
    (∃ beats : List (BitVec 72), ∃ ds : List (BitVec 64), dieA.dieUp 2 = true ∧ dieA.slipOut 2 3 = false ∧ (dieA.slipG 2 3).discard = false ∧ 0 <
      beats.length ∧ beats.length ≤ 2 ∧ List.map beatCheck beats = List.map BeatOut.clean ds) ∧
    (∃ beats : List (BitVec 72), dieA.dieUp 2 = true ∧ dieA.slipOut 2 3 = false ∧ (dieA.slipG 2 3).discard = false ∧ 0 < beats.length ∧ beats.length
      ≤ 2 ∧ BeatOut.bad ∈ List.map beatCheck beats ∧ (dieA.slipG 2 3).replays + 1 < max 1 (dieA.fget Fld.slpCfgRplyLimit) ∧ ((dieA.slipG 2
      3).lastReplay.fst = (dieA.slipG 2 3).rxFrame → (dieA.slipG 2 3).lastReplay.snd < 3)) ∧
    ((dieRp.slipG 2 3).replayReq = some 5) ∧
    ((dieW.slipG 2 3).winStart + 2 ^ min 40 (max 20 (dieW.fget Fld.slpCfgWindow)) ≤ dieW.fcyc) ∧
    (dieR.fget Fld.slpGstatState 2 3 = 1 ∧ (dieR.slipG 2 3).repairEnd ≤ dieR.fcyc ∧ dieR.fget Fld.slpGstatSpares 2 3 < 2 ∧ dieR.kiln.cmds = []) ∧
    (0 < (dieH.slipG 2 3).handEnd ∧ (dieH.slipG 2 3).handEnd ≤ dieH.fcyc) ∧
    (3 < 16 ∧ dieA.dieUp 2 = true ∧ dieA.fget Fld.slpGstatState 2 3 = 0) ∧
    (3 < 16 ∧ dieA.dieUp 2 = true ∧ dieA.fget Fld.slpGstatState 2 3 = 0 ∧ (dieA.fput Fld.slpGstatState 2 3 2).carried 2 = true) ∧
    (dieA.dieUp 2 = true) ∧
    (polS.dieUp 2 = true ∧ (polS.die 2).polls = 2) := by
  refine ⟨⟨[0, 0], [0, 0], ?_⟩, ⟨[3], ?_⟩, ?_, ?_, ?_, ?_, ?_, ?_, ?_, ?_⟩
  all_goals decide +kernel

/-- Each clause of `Obligations.DieAndLinkCommands` has a state and operands that meet its hypotheses. -/
theorem meets_DieAndLinkCommands :
    (∃ s : State, ∃ c ∈ (s.kready 1 1536), 12 ≤ bits (c.p 0) 0 4) ∧
    (∃ s : State, ∃ c ∈ (s.kready 1 1536), bits (c.p 0) 0 4 < 12 ∧ (∃ k, k ∈ coresOf (bits (c.p 0) 0 4) ∧ s.corePart k ≠ none)) ∧
    (∃ s : State, ∃ c ∈ (s.kready 1 1536), bits (c.p 0) 0 4 < 12 ∧ (∀ (k : Nat), k ∈ coresOf (bits (c.p 0) 0 4) → s.corePart k = none)) ∧
    (∃ s : State, ∃ c ∈ (s.kready 1 1537), 12 ≤ bits (c.p 0) 0 4) ∧
    (∃ s : State, ∃ c ∈ (s.kready 1 1537), bits (c.p 0) 0 4 < 12 ∧ s.dieUp (bits (c.p 0) 0 4) = true) ∧
    (∃ c ∈ (onA.kready 1 1537), bits (c.p 0) 0 4 < 12 ∧ onA.dieUp (bits (c.p 0) 0 4) = false ∧ onA.fget Fld.glbSetchkPass = 0) ∧
    (∃ rb : List Nat, ∃ c ∈ (onB.kready 1 1537), bits (c.p 0) 0 4 < 12 ∧ onB.dieUp (bits (c.p 0) 0 4) = false ∧ onB.fget Fld.glbSetchkPass = 1 ∧ (∀
      (j : Nat), j < 16 → onB.fusedFails (bits (c.p 0) 0 4) j = rb)) ∧
    (∃ s : State, ∃ c ∈ (s.kready 1 1025), bits (c.p 0) 0 4 < 12 ∧ (s.fget Fld.slpGstatSpares (bits (c.p 0) 0 4) (bits (c.p 0) 8 4) = 2 ∨ s.fget
      Fld.slpGstatDue (bits (c.p 0) 0 4) (bits (c.p 0) 8 4) = 127)) ∧
    (∃ c ∈ (rpS.kready 1 1025), bits (c.p 0) 0 4 < 12 ∧ rpS.fget Fld.slpGstatSpares (bits (c.p 0) 0 4) (bits (c.p 0) 8 4) ≠ 2 ∧ rpS.fget
      Fld.slpGstatDue (bits (c.p 0) 0 4) (bits (c.p 0) 8 4) ≠ 127 ∧ rpS.fget Fld.slpGstatState (bits (c.p 0) 0 4) (bits (c.p 0) 8 4) = 0 ∧ (∀ (j :
      Nat), j < 16 → rpS.fget Fld.slpGstatState (bits (c.p 0) 0 4) j = 0)) ∧
    (∃ s : State, ∃ c ∈ (s.kready 1 1024), bits (c.p 0) 0 6 < 12 ∧ bits (c.p 0) 6 2 = 0) ∧
    (∃ s : State, ∃ c ∈ (s.kready 1 1024), bits (c.p 0) 0 6 < 10 ∧ bits (c.p 0) 6 2 = 1) ∧
    (∃ s : State, ∃ c ∈ (s.kready 1 1024), (2 ≤ bits (c.p 0) 6 2 ∨ 12 ≤ bits (c.p 0) 0 6)) ∧
    (∃ s : State, ∃ c ∈ (s.kready 1 1026), bits (c.p 0) 6 2 = 0 ∧ bits (c.p 0) 0 6 < 12) ∧
    (∃ c ∈ (ltS.kready 1 1026), bits (c.p 0) 6 2 = 1 ∧ bits (c.p 0) 0 6 < 10 ∧ (ltS.fget Fld.reelStatState (bits (c.p 0) 0 6) = 2 ∨ ltS.fget
      Fld.reelStatState (bits (c.p 0) 0 6) = 3)) := by
  refine ⟨⟨(lk 0x600 [12]), ?_⟩, ⟨(lk 0x600 [0]), ?_⟩, ⟨(lk 0x600 [2]), ?_⟩, ⟨(lk 0x601 [12]), ?_⟩, ⟨(lk 0x601 [2]), ?_⟩, ?_, ⟨[], ?_⟩, ⟨(lk 0x401
    [0x302]), ?_⟩, ?_, ⟨(lk 0x400 [0x302]), ?_⟩, ⟨(lk 0x400 [0x342]), ?_⟩, ⟨(lk 0x400 [0x382]), ?_⟩, ⟨(lk 0x402 [0x302]), ?_⟩, ?_⟩
  all_goals decide +kernel

def ptS (l : List (Fld × Nat × Nat × Nat)) (op : Nat) (ps : List W64) : State := cmdS op ps (withRegs base ([(⟨.glbFired, 0, 64⟩, 1, 0, 2 ^ 64 - 1), (.mcCfgD32, 0, 0, 1)] ++ l))
def pt3 (l : List (Fld × Nat × Nat × Nat)) := (⟨.prtCtl, 0, 64⟩, 1, 0, 0) :: (.prtCtlState, 1, 0, 3) :: l
def enS (ps : List W64) : State := ptS [(.prtCtlState, 1, 0, 1), (.prtCtlSpan, 1, 0, 1), (⟨.prtCore, 0, 64⟩, 1, 0, 0x20), (⟨.prtWin, 0, 64⟩, 1, 0, 1 + 70 * 2 ^ 8 + 2 ^ 32), (.hsMscwayWays, 0, 1, 0xF0)] 0x105 ps
def disS : State := ptS [(.prtCtlState, 1, 0, 2), (⟨.prtCore, 0, 64⟩, 1, 0, 0x20), (⟨.prtIo, 0, 64⟩, 1, 4, 4), (.irtRouteEn, 600, 0, 1), (.irtRoutePart, 600, 0, 1)] 0x106 [1]
def drnS : State := let s := ptS [(.prtCtlState, 1, 0, 3)] 0x106 [1]; s.modPart 1 (fun q => { q with disableCmd := some 1 })
def crA : State := { base with cores := [(5, { rst := true })] }
def crB : State := { base with cores := [(5, { rst := true, rstEnd := some 900 })] }
def p1 (op : Nat) (ps : List W64) : State := ptS [(.prtCtlState, 1, 0, 1), (.prtCtlSpan, 1, 0, 1), (.cdCrgrantGrant, 0, 1, 16)] op ps
def p0io : State := withRegs (p1 0x103 [1, 0, 0, 0, 0, 4]) [(⟨.prtIo, 0, 64⟩, 0, 4, 4)]
def p1t : State := withRegs (p1 0x104 [0x401, 0, 0, 0, 0x00F00000]) [(.prtCtlIsot, 1, 0, 1), (.hsMscwayWays, 0, 1, 0x0F), (.hsMscwayWays, 0, 0, 0xFF00)]
def scanS : State := let s := homeB [(0x80, mscA)] [] [] []; { withRegs s [(.hsMscwayWays, 0, 0, 2)] with home := { s.home with scan := some (0, 9, 600) } }

/-- Each clause of `Obligations.PartitionLifecycle` has a state and operands that meet its hypotheses. -/
theorem meets_PartitionLifecycle :
    (∃ s : State, ∃ c ∈ (s.kfind 1), c.started = true ∧ c.running = false ∧ pktOp c.pkt = 256 ∧ (∃ q, q < 8 ∧ q ≠ s.pkg ∧ s.createSpan c / 2 ^ q % 2
      = 1 ∧ s.member q = false)) ∧
    (∃ s : State, ∃ c ∈ (s.kfind 1), c.started = true ∧ c.running = false ∧ pktOp c.pkt = 256 ∧ s.createSpan c = 2 ^ s.pkg ∧ s.partState (bits (c.p
      0) 0 6) = 3) ∧
    (∃ s : State, ∃ c ∈ (s.kfind 1), c.started = true ∧ c.running = false ∧ pktOp c.pkt = 256 ∧ s.createSpan c = 2 ^ s.pkg ∧ (s.partState (bits (c.p
      0) 0 6) = 1 ∨ s.partState (bits (c.p 0) 0 6) = 2)) ∧
    (∃ s : State, ∃ c ∈ (s.kfind 1), c.started = true ∧ c.running = false ∧ pktOp c.pkt = 256 ∧ s.createSpan c = 2 ^ s.pkg ∧ s.partState (bits (c.p
      0) 0 6) = 0) ∧
    (∃ s : State, ∃ c ∈ (s.kfind 1), c.started = true ∧ c.running = false ∧ pktOp c.pkt = 261 ∧ c.here = false ∧ s.enableReason (bits (c.p 0) 0 6) ≠
      0) ∧
    (∃ s : State, ∃ c ∈ (s.kfind 1), c.started = true ∧ c.running = false ∧ pktOp c.pkt = 261 ∧ c.here = false ∧ s.enableReason (bits (c.p 0) 0 6) =
      0 ∧ s.firstCtx c (bits (c.p 0) 0 6) = none) ∧
    (∃ s : State, ∃ c ∈ (s.kfind 1), c.started = true ∧ c.running = false ∧ pktOp c.pkt = 261 ∧ c.here = false ∧ s.enableReason (bits (c.p 0) 0 6) =
      0 ∧ s.firstCtx c (bits (c.p 0) 0 6) = some (s.pkg, 5, 5) ∧ s.isot (bits (c.p 0) 0 6) = false ∧ s.spanOthers (bits (c.p 0) 0 6) = [] ∧
      s.home.scan = none ∧ s.relaysOut 1 = false ∧ s.kiln.got = [] ∧ s.fget Fld.pwrStatusHosthold = 0 ∧ ¬5 ∈ (s.core 5).readyQ) ∧
    (∃ s : State, ∃ c ∈ (s.kready 1 262), 0 = bits (c.p 0) 0 6) ∧
    (∃ s : State, ∃ c ∈ (s.kready 1 262), bits (c.p 0) 0 6 ≠ 0 ∧ s.partState (bits (c.p 0) 0 6) = 0) ∧
    (∃ s : State, ∃ c ∈ (s.kready 1 262), bits (c.p 0) 0 6 ≠ 0 ∧ s.partState (bits (c.p 0) 0 6) = 1) ∧
    (∃ s : State, ∃ c ∈ (s.kready 1 262), bits (c.p 0) 0 6 ≠ 0 ∧ s.partState (bits (c.p 0) 0 6) = 3) ∧
    (∃ c ∈ (disS.kready 1 262), bits (c.p 0) 0 6 ≠ 0 ∧ disS.partState (bits (c.p 0) 0 6) = 2) ∧
    (∃ c : KCmd, drnS.partState (bits (c.p 0) 0 6) = 3 ∧ drnS.drained (bits (c.p 0) 0 6) = true ∧ (drnS.part (bits (c.p 0) 0 6)).disableCmd = some 1) ∧
    (∃ s : State, ∃ c ∈ (s.kready 1 263), 0 = bits (c.p 0) 0 6) ∧
    (∃ s : State, ∃ c ∈ (s.kready 1 263), bits (c.p 0) 0 6 ≠ 0 ∧ (s.partState (bits (c.p 0) 0 6) = 0 ∨ s.partState (bits (c.p 0) 0 6) = 2)) ∧
    (∃ s : State, ∃ c ∈ (s.kready 1 263), bits (c.p 0) 0 6 ≠ 0 ∧ s.partState (bits (c.p 0) 0 6) = 3) ∧
    (∃ s : State, ∃ c ∈ (s.kready 1 263), bits (c.p 0) 0 6 ≠ 0 ∧ s.partState (bits (c.p 0) 0 6) = 1 ∧ s.spanOthers (bits (c.p 0) 0 6) = []) ∧
    (∃ s : State, ∃ c ∈ (s.kready 1 264), bits (c.p 0) 8 4 = 0) ∧
    (∃ s : State, ∃ c ∈ (s.kready 1 264), bits (c.p 0) 8 4 = 1) ∧
    (∃ s : State, ∃ c ∈ (s.kready 1 264), 2 ≤ bits (c.p 0) 8 4) ∧
    ((crA.core 5).rst = true ∧ (crA.core 5).clockOn = true ∧ (crA.core 5).sb = [] ∧ (crA.core 5).miss = [] ∧ crA.fab.egress = [] ∧ crA.fab.devs = []
      ∧ crA.home.ncDone = [] ∧ crA.home.ncq = [] ∧ (crA.core 5).l2 = [] ∧ (crA.core 5).evb = [] ∧ (crA.core 5).rstEnd = none) ∧
    ((crB.core 5).rst = true ∧ (crB.core 5).clockOn = true ∧ (crB.core 5).sb = [] ∧ (crB.core 5).miss = [] ∧ crB.fab.egress = [] ∧ crB.fab.devs = []
      ∧ crB.home.ncDone = [] ∧ crB.home.ncq = [] ∧ (crB.core 5).l2 = [] ∧ (crB.core 5).evb = [] ∧ (crB.core 5).rstEnd = some 900 ∧ 900 ≤ crB.cyc 5 ∧
      (crB.core 5).exPart = none) := by
  refine ⟨⟨(ptS [] 0x100 [0x60001]), ?_⟩, ⟨(ptS [(.prtCtlState, 1, 0, 3)] 0x100 [0x10001]), ?_⟩, ⟨(ptS [(.prtCtlState, 1, 0, 2)] 0x100 [0x10001]),
    ?_⟩, ⟨(ptS [] 0x100 [0x10301]), ?_⟩, ⟨(ptS [(.prtCtlState, 1, 0, 2)] 0x105 [1, 0x80000, 0x5000, 9]), ?_⟩, ⟨(enS [1, 0x80000, 0x5, 9]), ?_⟩, ⟨(enS
    [1, 0x80000, 0x1405, 9]), ?_⟩, ⟨(ptS [] 0x106 [0]), ?_⟩, ⟨(ptS [] 0x106 [1]), ?_⟩, ⟨(ptS [(.prtCtlState, 1, 0, 1)] 0x106 [1]), ?_⟩, ⟨(ptS
    [(.prtCtlState, 1, 0, 3)] 0x106 [1]), ?_⟩, ?_, ⟨{ id := 1, src := .ring 0, pkt := [0x106, 1], started := true }, ?_⟩, ⟨(ptS [] 0x107 [0]), ?_⟩,
    ⟨(ptS [] 0x107 [1]), ?_⟩, ⟨(ptS [(.prtCtlState, 1, 0, 3)] 0x107 [1]), ?_⟩, ⟨({ enS [] with kiln := (ptS [] 0x107 [1]).kiln }), ?_⟩, ⟨({ enS [] with kiln := (ptS [] 0x108 [1]).kiln }),
    ?_⟩, ⟨({ enS [] with kiln := (ptS [] 0x108 [0x101]).kiln }), ?_⟩, ⟨({ enS [] with kiln := (ptS [] 0x108 [0x201]).kiln }), ?_⟩, ?_, ?_⟩
  all_goals decide +kernel

/-- Each clause of `Obligations.PartitionResources` has a state and operands that meet its hypotheses. -/
theorem meets_PartitionResources :
    (∃ s : State, ∃ i : Instr, ∃ c ∈ (s.kready 1 257), (i, 257) ∈ [(i, 257), (Instr.partAssignMemory 1, 258), (Instr.partAssignIo 1, 259)] ∧ (257 =
      257 → ∀ (n : Nat), n ∈ c.coreMask → n < 240) ∧ (257 = 259 → ∀ (n : Nat), n ∈ c.portMask → n < 20) ∧ s.partState (bits (c.p 0) 0 6) = 3) ∧
    (∃ s : State, ∃ i : Instr, ∃ c ∈ (s.kready 1 258), (i, 258) ∈ [(Instr.partAssignCores 1, 257), (i, 258), (Instr.partAssignIo 1, 259)] ∧ (258 =
      257 → ∀ (n : Nat), n ∈ c.coreMask → n < 240) ∧ (258 = 259 → ∀ (n : Nat), n ∈ c.portMask → n < 20) ∧ s.partState (bits (c.p 0) 0 6) = 0) ∧
    (∃ s : State, ∃ i : Instr, ∃ c ∈ (s.kready 1 259), (i, 259) ∈ [(Instr.partAssignCores 1, 257), (Instr.partAssignMemory 1, 258), (i, 259)] ∧ (259
      = 257 → ∀ (n : Nat), n ∈ c.coreMask → n < 240) ∧ (259 = 259 → ∀ (n : Nat), n ∈ c.portMask → n < 20) ∧ s.partState (bits (c.p 0) 0 6) = 2 ∧ bit
      (c.p 0) 6 = true) ∧
    (∃ s : State, ∃ c ∈ (s.kready 1 257), (∀ (n : Nat), n ∈ c.coreMask → n < 240) ∧ bit (c.p 0) 6 = false ∧ s.partState (bits (c.p 0) 0 6) = 1 ∧ (∃ q
      n, q < 64 ∧ q ≠ bits (c.p 0) 0 6 ∧ s.partState q ≠ 0 ∧ n ∈ c.coreMask ∧ s.partHasCore q n = true)) ∧
    (∃ s : State, ∃ c ∈ (s.kready 1 257), (∀ (n : Nat), n ∈ c.coreMask → n < 240) ∧ bit (c.p 0) 6 = false ∧ s.partState (bits (c.p 0) 0 6) = 1 ∧ (∀
      (q : Nat), q ≠ bits (c.p 0) 0 6 → ∀ (n : Nat), n ∈ c.coreMask → s.partHasCore q n = false) ∧ (∀ (n : Nat), n ∈ c.coreMask → s.partHasCore (bits
      (c.p 0) 0 6) n = false) ∧ s.grantsFit (bits (c.p 0) 0 6) (s.grantsOf (bits (c.p 0) 0 6)) = true ∧ (∀ (n : Nat), n ∈ c.coreMask → s.fget
      Fld.cdCrgrantGrant (dieOf n) (bits (c.p 0) 0 6) ≠ 0) ∧ s.spanOthers (bits (c.p 0) 0 6) = []) ∧
    (∃ s : State, ∃ c ∈ (s.kready 1 258), ∃ w ∈ (List.find? (fun w => !bit (s.rget RegKind.prtWin (bits (c.p 0) 0 6) w) 0) (List.range 16)), bit (c.p
      0) 6 = false ∧ s.partState (bits (c.p 0) 0 6) = 1 ∧ 0 < BitVec.toNat (c.p 2) ∧ BitVec.toNat (c.p 1) % 2 ^ 30 = 0 ∧ s.inDram (BitVec.toNat (c.p
      1)) (BitVec.toNat (c.p 2) * 2 ^ 30) = true ∧ BitVec.toNat (c.p 1) % 2 ^ 44 + BitVec.toNat (c.p 2) * 2 ^ 30 ≤ s.carveBase ∧ (∃ q v, q < 64 ∧
      s.partState q ≠ 0 ∧ v ∈ s.windowsOf q ∧ v.fst < BitVec.toNat (c.p 1) / 2 ^ 30 + BitVec.toNat (c.p 2) ∧ BitVec.toNat (c.p 1) / 2 ^ 30 < v.fst +
      v.snd)) ∧
    (∃ s : State, ∃ c ∈ (s.kready 1 258), bit (c.p 0) 6 = false ∧ s.partState (bits (c.p 0) 0 6) = 1 ∧ 0 < BitVec.toNat (c.p 2) ∧ BitVec.toNat (c.p
      1) % 2 ^ 30 = 0 ∧ (List.find? (fun w => !bit (s.rget RegKind.prtWin (bits (c.p 0) 0 6) w) 0) (List.range 16) = some 0) ∧ s.inDram (BitVec.toNat
      (c.p 1)) (BitVec.toNat (c.p 2) * 2 ^ 30) = true ∧ BitVec.toNat (c.p 1) % 2 ^ 44 + BitVec.toNat (c.p 2) * 2 ^ 30 ≤ s.carveBase ∧ (∀ (q : Nat), q
      < 64 → s.partState q ≠ 0 → ∀ (v : Nat × Nat), v ∈ s.windowsOf q → BitVec.toNat (c.p 1) / 2 ^ 30 + BitVec.toNat (c.p 2) ≤ v.fst ∨ v.fst + v.snd
      ≤ BitVec.toNat (c.p 1) / 2 ^ 30) ∧ (∃ i, i < BitVec.toNat (c.p 2) ∧ s.fired ((BitVec.toNat (c.p 1) / 2 ^ 30 + i) % 2 ^ 14) = false)) ∧
    (∃ s : State, ∃ c ∈ (s.kready 1 258), bit (c.p 0) 6 = false ∧ s.partState (bits (c.p 0) 0 6) = 1 ∧ 0 < BitVec.toNat (c.p 2) ∧ BitVec.toNat (c.p
      1) % 2 ^ 30 = 0 ∧ (List.find? (fun w => !bit (s.rget RegKind.prtWin (bits (c.p 0) 0 6) w) 0) (List.range 16) = some 0) ∧ s.inDram (BitVec.toNat
      (c.p 1)) (BitVec.toNat (c.p 2) * 2 ^ 30) = true ∧ BitVec.toNat (c.p 1) % 2 ^ 44 + BitVec.toNat (c.p 2) * 2 ^ 30 ≤ s.carveBase ∧ (∀ (q : Nat), q
      < 64 → s.partState q ≠ 0 → ∀ (v : Nat × Nat), v ∈ s.windowsOf q → BitVec.toNat (c.p 1) / 2 ^ 30 + BitVec.toNat (c.p 2) ≤ v.fst ∨ v.fst + v.snd
      ≤ BitVec.toNat (c.p 1) / 2 ^ 30) ∧ (∀ (i : Nat), i < BitVec.toNat (c.p 2) → s.fired ((BitVec.toNat (c.p 1) / 2 ^ 30 + i) % 2 ^ 14) = true) ∧
      s.spanOthers (bits (c.p 0) 0 6) = []) ∧
    (∃ c ∈ (p0io.kready 1 259), (∀ (n : Nat), n ∈ c.portMask → n < 20) ∧ bit (c.p 0) 6 = false ∧ p0io.partState (bits (c.p 0) 0 6) = 1 ∧ (∀ (n :
      Nat), n ∈ c.portMask → bit p0io.kiln.cfg.reelMask (n / 2) = false) ∧ (∃ q n, q < 64 ∧ q ≠ bits (c.p 0) 0 6 ∧ p0io.partState q ≠ 0 ∧ n ∈
      c.portMask ∧ p0io.partHasPort q n = true)) ∧
    (∃ s : State, ∃ c ∈ (s.kready 1 259), (∀ (n : Nat), n ∈ c.portMask → n < 20) ∧ bit (c.p 0) 6 = false ∧ s.partState (bits (c.p 0) 0 6) = 1 ∧ (∀ (n
      : Nat), n ∈ c.portMask → bit s.kiln.cfg.reelMask (n / 2) = false) ∧ (∀ (q : Nat), q ≠ bits (c.p 0) 0 6 → (∀ (n : Nat), n ∈ c.portMask →
      s.partHasPort q n = false) ∧ ∀ (n : Nat), n ∈ c.chanMask → s.partHasDma q n = false)) ∧
    (∃ s : State, ∃ c ∈ (s.kready 1 260), s.partState (bits (c.p 0) 0 6) = 0 ∧ s.home.scan = none) ∧
    (∃ s : State, ∃ c ∈ (s.kready 1 260), s.partState (bits (c.p 0) 0 6) = 1 ∧ s.home.scan = none ∧ s.qosReason c (bits (c.p 0) 0 6) ≠ 0) ∧
    (∃ s : State, ∃ c ∈ (s.kready 1 260), s.partState (bits (c.p 0) 0 6) = 1 ∧ s.isot (bits (c.p 0) 0 6) = false ∧ s.qosReason c (bits (c.p 0) 0 6) =
      0) ∧
    (∃ c ∈ (p1t.kready 1 260), p1t.partState (bits (c.p 0) 0 6) = 1 ∧ p1t.isot (bits (c.p 0) 0 6) = true ∧ p1t.qosReason c (bits (c.p 0) 0 6) = 0 ∧
      p1t.home.scan = none ∧ bit (c.p 0) 10 = true ∧ bits (c.p 4) 16 16 &&& (0xFFFF ^^^ p1t.wayMask (bits (c.p 0) 0 6)) ≠ 0) ∧
    (∃ c : KCmd, scanS.home.scan = some (bits (c.p 0) 0 6, 9, 600) ∧ 600 ≤ scanS.fcyc ∧ scanS.kfind 9 = none) := by
  refine ⟨⟨(ptS [(.prtCtlState, 1, 0, 3)] 0x101 [1, 0x20]), (Instr.partAssignCores 1), ?_⟩, ⟨(ptS [] 0x102 [1, 0x20]), (Instr.partAssignMemory 1),
    ?_⟩, ⟨(ptS [(.prtCtlState, 1, 0, 2)] 0x103 [0x41, 0x20]), (Instr.partAssignIo 1), ?_⟩, ⟨(p1 0x101 [1, 0x21]), ?_⟩, ⟨(p1 0x101 [1, 0x60]), ?_⟩,
    ⟨(p1 0x102 [1, 0x40000000, 2]), ?_⟩, ⟨(p1 0x102 [1, 0x2000000000, 2]), ?_⟩, ⟨(p1 0x102 [1, 0x1100000000, 2]), ?_⟩, ?_, ⟨(p1 0x103 [1, 0x11, 0, 0,
    0, 4]), ?_⟩, ⟨(ptS [] 0x104 [1]), ?_⟩, ⟨(p1 0x104 [0x2001, 0, 0, 0, 0]), ?_⟩, ⟨(p1 0x104 [0x2001, 0, 0, 0, 0x500000000]), ?_⟩, ?_, ⟨{ id := 1, src := .ring 0, pkt := [0x106, 0], started := true },
    ?_⟩⟩
  · decide +kernel
  · decide +kernel
  · decide +kernel
  · exact ⟨{ id := 1, src := .ring 0, pkt := [0x101, 1, 0x21], started := true }, by decide +kernel, by decide +kernel, by decide +kernel, by decide +kernel, 0, 0, by decide +kernel⟩
  · exact ⟨{ id := 1, src := .ring 0, pkt := [0x101, 1, 0x60], started := true }, by decide +kernel, by decide +kernel, by decide +kernel, by decide +kernel,
      fun q h n m => by
        rcases (by decide +kernel : ∀ n ∈ KCmd.coreMask { id := 1, src := .ring 0, pkt := [0x101, 1, 0x60], started := true }, n = 5 ∨ n = 6) n m with rfl | rfl <;>
          exact match q with
          | 0 => by decide +kernel
          | 1 => absurd rfl h
          | q + 2 => by rw [State.partHasCore, State.mapBit, onlyZero _ _ (by decide +kernel) _ _ (Nat.succ_ne_zero _), prtCore_reset]; decide +kernel,
      by decide +kernel, by decide +kernel, by decide +kernel, by decide +kernel⟩
  · exact ⟨{ id := 1, src := .ring 0, pkt := [0x102, 1, 0x40000000, 2], started := true }, by decide +kernel, 0, by decide +kernel, by decide +kernel, by decide +kernel, by decide +kernel, by decide +kernel, by decide +kernel, by decide +kernel, 0, (0, 64), by decide +kernel⟩
  · decide +kernel
  · decide +kernel
  · exact ⟨{ id := 1, src := .ring 0, pkt := [0x103, 1, 0, 0, 0, 0, 4], started := true }, by decide +kernel, by decide +kernel, by decide +kernel, by decide +kernel, by decide +kernel, 0, 2, by decide +kernel⟩
  · exact ⟨{ id := 1, src := .ring 0, pkt := [0x103, 1, 0x11, 0, 0, 0, 4], started := true }, by decide +kernel, by decide +kernel, by decide +kernel, by decide +kernel, by decide +kernel,
      fun q h => ⟨fun n m => by
        rcases (by decide +kernel : ∀ n ∈ KCmd.portMask { id := 1, src := .ring 0, pkt := [0x103, 1, 0x11, 0, 0, 0, 4], started := true }, n = 2) n m with rfl
        exact match q with
          | 0 => by decide +kernel
          | 1 => absurd rfl h
          | q + 2 => by rw [State.partHasPort, onlyZero _ _ (by decide +kernel) _ _ (Nat.succ_ne_zero _), prtIo_reset]; decide +kernel, fun n m => by
        rcases (by decide +kernel : ∀ n ∈ KCmd.chanMask { id := 1, src := .ring 0, pkt := [0x103, 1, 0x11, 0, 0, 0, 4], started := true }, n = 0 ∨ n = 4) n m with rfl | rfl <;>
          exact match q with
          | 0 => by decide +kernel
          | 1 => absurd rfl h
          | q + 2 => by rw [State.partHasDma, State.mapBit, onlyZero _ _ (by decide +kernel) _ _ (Nat.succ_ne_zero _), prtIo_reset]; decide +kernel⟩⟩
  · decide +kernel
  · decide +kernel
  · decide +kernel
  · decide +kernel
  · decide +kernel

def mbC (p n : Nat) (pkt : List W64) : State := base.mbxPut (0x1000 * p + 0x100 + 0x200 * n) pkt
def hdr (op len flags tgt : Nat) : W64 := BitVec.ofNat 64 (op + len * 2 ^ 32 + flags * 2 ^ 48 + tgt * 2 ^ 56)
def kcU : KCmd := { id := 3, src := .ring 0, pkt := [hdr 1 2 0 0, 5], started := false }
def deS : State := { base with kiln := { base.kiln with cmds := [kcU] } }
def deT : State := { base with kiln := { base.kiln with cmds := [kcU], fwSwitch := some 1 } }
def rpyS (src : KSrc) (pkt : List W64) : State := { base with kiln := { base.kiln with replies := [{ src := src, notify := false, pkt := pkt }] } }
def rngE (s : State) : State := { withRegs s [(.epRingctlEn, 0, 0, 1), (.epRingctlRk, 0, 0, 6)] with ep := { s.ep with perst := false, link := 1 } }
def rngS : State := let s := rngE (rpyS (.ring 0) [hdr 1 2 0 0, 5]); s.setCfg 0x04 (s.cfgW 0x04 ||| 6)
def ntS : State := withRegs { base with kiln := { base.kiln with mbxNotices := [(0, { tag := 5, status := 0, result := 7, kind := 1 })] } } [(.mbxStatusNseq, 0, 0, 255)]
def kc (op : Nat) (ps : List W64) : State := cmdS op ps base
def gi : State := kc 0x2 [0]
def gs : State := kc 0x3 [0]
def lgS : State := let s := rngE (kc 0x500 [0, 0]); s.setCfg 0x04 (s.cfgW 0x04 ||| 6)
def mbk (op : Nat) (ps : List W64) : State := let s := kc op ps; { s with kiln := { s.kiln with cmds := s.kiln.cmds.map (fun c => { c with src := .mbx 0 0 false }) } }
def lcS : State := let s := kc 0x501 [5]; { s with kiln := { s.kiln with log := [{ seq := 4, cls := 1, srcKind := 1, event := 3 }, { seq := 6, cls := 1, srcKind := 1, event := 3 }] } }
def imA : Image := { sigOk := true, version := 9, secLevel := 3, cfg := {}, payload := [] }
def lvS : State := let s := kc 0x800 [0, 8]; { s with kiln := { s.kiln with fwLevel := 4 } }
def stS : State := let s := kc 0x801 [0]; { s with kiln := { s.kiln with staged := some (9, 3) } }
def stE : State := { stS with mem := { stS.mem with fireQ := [(1, [])] } }
def swS : State := { stS with kiln := { stS.kiln with fwSwitch := some 1 } }
def krS : State := { base with reel := { base.reel with rx := [{ port := 0, at_ := 600, msg := { op := .krelay, src := 1 } }] } }

/-- Each clause of `Obligations.KilnCommandsAcceptedAndAnswered` has a state and operands that meet its hypotheses. -/
theorem meets_KilnCommandsAcceptedAndAnswered :
    (∃ s : State, 3 < 64 ∧ s.partState 3 = 0) ∧
    (∃ s : State, 0 < 64 ∧ s.partState 0 ≠ 0 ∧ ((s.fget Fld.mbxStatusBusy).testBit (bits (1 : W64) 0 2) = true ∨ (s.fget Fld.mbxStatusReply).testBit
      (bits (1 : W64) 0 2) = true)) ∧
    (∃ s : State, 0 < 64 ∧ s.partState 0 ≠ 0 ∧ (s.fget Fld.mbxStatusBusy).testBit (bits (1 : W64) 0 2) = false ∧ (s.fget Fld.mbxStatusReply).testBit
      (bits (1 : W64) 0 2) = false ∧ s.fget Fld.pwrStatusState ≤ 1 ∧ (pktLen { id := s.kiln.next, src := KSrc.mbx 0 (bits (1 : W64) 0 2) true, pkt := s.slotPkt 0 (bits (1 : W64) 0 2), started := false : KCmd }.pkt
      < 2 ∨ 64 < pktLen { id := s.kiln.next, src := KSrc.mbx 0 (bits (1 : W64) 0 2) true, pkt := s.slotPkt 0 (bits (1 : W64) 0 2), started := false : KCmd }.pkt)) ∧
    (∃ s : State, 0 < 64 ∧ s.partState 0 ≠ 0 ∧ (s.fget Fld.mbxStatusBusy).testBit (bits (1 : W64) 0 2) = false ∧ (s.fget Fld.mbxStatusReply).testBit
      (bits (1 : W64) 0 2) = false ∧ s.fget Fld.pwrStatusState ≤ 1 ∧ 2 ≤ pktLen { id := s.kiln.next, src := KSrc.mbx 0 (bits (1 : W64) 0 2) true, pkt := s.slotPkt 0 (bits (1 : W64) 0 2), started := false : KCmd }.pkt
      ∧ pktLen { id := s.kiln.next, src := KSrc.mbx 0 (bits (1 : W64) 0 2) true, pkt := s.slotPkt 0 (bits (1 : W64) 0 2), started := false : KCmd }.pkt
      ≤ 64 ∧ opLens (pktOp { id := s.kiln.next, src := KSrc.mbx 0 (bits (1 : W64) 0 2) true, pkt := s.slotPkt 0 (bits (1 : W64) 0 2), started := false : KCmd }.pkt)
      = none) ∧
    (∃ s : State, 0 < 64 ∧ s.partState 0 ≠ 0 ∧ (s.fget Fld.mbxStatusBusy).testBit (bits (1 : W64) 0 2) = false ∧ (s.fget Fld.mbxStatusReply).testBit
      (bits (1 : W64) 0 2) = false ∧ s.fget Fld.pwrStatusState ≤ 1 ∧ 2 ≤ pktLen { id := s.kiln.next, src := KSrc.mbx 0 (bits (1 : W64) 0 2) true, pkt := s.slotPkt 0 (bits (1 : W64) 0 2), started := false : KCmd }.pkt
      ∧ pktLen { id := s.kiln.next, src := KSrc.mbx 0 (bits (1 : W64) 0 2) true, pkt := s.slotPkt 0 (bits (1 : W64) 0 2), started := false : KCmd }.pkt
      ≤ 64 ∧ opLens (pktOp { id := s.kiln.next, src := KSrc.mbx 0 (bits (1 : W64) 0 2) true, pkt := s.slotPkt 0 (bits (1 : W64) 0 2), started := false : KCmd }.pkt)
      = some (2, 32) ∧ (pktLen { id := s.kiln.next, src := KSrc.mbx 0 (bits (1 : W64) 0 2) true, pkt := s.slotPkt 0 (bits (1 : W64) 0 2), started := false : KCmd }.pkt
      < 2 ∨ 32 < pktLen { id := s.kiln.next, src := KSrc.mbx 0 (bits (1 : W64) 0 2) true, pkt := s.slotPkt 0 (bits (1 : W64) 0 2), started := false : KCmd }.pkt)) ∧
    (∃ s : State, 0 < 64 ∧ s.partState 0 ≠ 0 ∧ (s.fget Fld.mbxStatusBusy).testBit (bits (1 : W64) 0 2) = false ∧ (s.fget Fld.mbxStatusReply).testBit
      (bits (1 : W64) 0 2) = false ∧ s.fget Fld.pwrStatusState ≤ 1 ∧ 2 ≤ pktLen { id := s.kiln.next, src := KSrc.mbx 0 (bits (1 : W64) 0 2) true, pkt := s.slotPkt 0 (bits (1 : W64) 0 2), started := false : KCmd }.pkt
      ∧ pktLen { id := s.kiln.next, src := KSrc.mbx 0 (bits (1 : W64) 0 2) true, pkt := s.slotPkt 0 (bits (1 : W64) 0 2), started := false : KCmd }.pkt
      ≤ 64 ∧ opLens (pktOp { id := s.kiln.next, src := KSrc.mbx 0 (bits (1 : W64) 0 2) true, pkt := s.slotPkt 0 (bits (1 : W64) 0 2), started := false : KCmd }.pkt)
      = some (2, 32) ∧ pktLen { id := s.kiln.next, src := KSrc.mbx 0 (bits (1 : W64) 0 2) true, pkt := s.slotPkt 0 (bits (1 : W64) 0 2), started := false : KCmd }.pkt
      ≤ 32 ∧ (4 ≤ pktFlags { id := s.kiln.next, src := KSrc.mbx 0 (bits (1 : W64) 0 2) true, pkt := s.slotPkt 0 (bits (1 : W64) 0 2), started := false : KCmd }.pkt
      ∨ 8 ≤ pktTarget { id := s.kiln.next, src := KSrc.mbx 0 (bits (1 : W64) 0 2) true, pkt := s.slotPkt 0 (bits (1 : W64) 0 2), started := false : KCmd }.pkt
      ∧ pktTarget { id := s.kiln.next, src := KSrc.mbx 0 (bits (1 : W64) 0 2) true, pkt := s.slotPkt 0 (bits (1 : W64) 0 2), started := false : KCmd }.pkt
      ≠ 255)) ∧
    (∃ s : State, 0 < 64 ∧ s.partState 0 ≠ 0 ∧ (s.fget Fld.mbxStatusBusy).testBit (bits (1 : W64) 0 2) = false ∧ (s.fget Fld.mbxStatusReply).testBit
      (bits (1 : W64) 0 2) = false ∧ s.fget Fld.pwrStatusState ≤ 1 ∧ 2 ≤ pktLen { id := s.kiln.next, src := KSrc.mbx 0 (bits (1 : W64) 0 2) true, pkt := s.slotPkt 0 (bits (1 : W64) 0 2), started := false : KCmd }.pkt
      ∧ pktLen { id := s.kiln.next, src := KSrc.mbx 0 (bits (1 : W64) 0 2) true, pkt := s.slotPkt 0 (bits (1 : W64) 0 2), started := false : KCmd }.pkt
      ≤ 64 ∧ opLens (pktOp { id := s.kiln.next, src := KSrc.mbx 0 (bits (1 : W64) 0 2) true, pkt := s.slotPkt 0 (bits (1 : W64) 0 2), started := false : KCmd }.pkt)
      = some (2, 32) ∧ pktLen { id := s.kiln.next, src := KSrc.mbx 0 (bits (1 : W64) 0 2) true, pkt := s.slotPkt 0 (bits (1 : W64) 0 2), started := false : KCmd }.pkt
      ≤ 32 ∧ pktFlags { id := s.kiln.next, src := KSrc.mbx 0 (bits (1 : W64) 0 2) true, pkt := s.slotPkt 0 (bits (1 : W64) 0 2), started := false : KCmd }.pkt
      < 4 ∧ pktTarget { id := s.kiln.next, src := KSrc.mbx 0 (bits (1 : W64) 0 2) true, pkt := s.slotPkt 0 (bits (1 : W64) 0 2), started := false : KCmd }.pkt
      = s.pkg ∧ s.pkg < 8 ∧ s.lost s.pkg = false ∧ s.reel.relays = [] ∧ (have __src := s.fput Fld.mbxStatusBusy 0 0 (s.fget Fld.mbxStatusBusy ||| 2 ^
      bits (1 : W64) 0 2); { pending := __src.pending, now := __src.now, tb := __src.tb, tbPhase := __src.tbPhase, fBase := __src.fBase, cs := __src.cs, cores := __src.cores, parts := __src.parts, home := __src.home, fab := __src.fab, mem := __src.mem, reel := __src.reel, kiln := have __src := s.kiln; { mbx := __src.mbx, cmds := s.kiln.cmds ++ [{ id := s.kiln.next, src := KSrc.mbx 0 (bits (1 : W64) 0 2) true, pkt := s.slotPkt 0 (bits (1 : W64) 0 2), started := false : KCmd }], next := s.kiln.next + 1, replies := __src.replies, got := __src.got, notices := __src.notices, mbxNotices := __src.mbxNotices, nseq := __src.nseq, log := __src.log, aonLog := __src.aonLog, fwVersion := __src.fwVersion, fwLevel := __src.fwLevel, staged := __src.staged, fwSwitch := __src.fwSwitch, wdog := __src.wdog, modes := __src.modes, bootSrcHeld := __src.bootSrcHeld, cfg := __src.cfg, payload := __src.payload, railsUp := __src.railsUp, railDue := __src.railDue, aonHeld := __src.aonHeld, p0 := __src.p0, limit := __src.limit, window := __src.window : Kiln }, dies := __src.dies, ioFuses := __src.ioFuses, pwr := __src.pwr, ep := __src.ep, dmaCh := __src.dmaCh, dmaEng := __src.dmaEng, pmu := __src.pmu, rpts := __src.rpts, pins := __src.pins, free := __src.free : State }).kcan
      { id := s.kiln.next, src := KSrc.mbx 0 (bits (1 : W64) 0 2) true, pkt := s.slotPkt 0 (bits (1 : W64) 0 2), started := false : KCmd } = true ∧
      (∀ (o : KCmd), o ∈ s.kiln.cmds → o.id ≠ s.kiln.next)) ∧
    (deS.kfind 3 = some kcU ∧ kcU.started = false ∧ deS.kcan kcU = true) ∧
    (deT.kfind 3 = some kcU ∧ deT.kcan kcU = false) ∧
    (∃ c ∈ (deS.kfind 3), ((∃ p n h, c.src = KSrc.mbx p n h) ∨ ∃ r, r < 4 ∧ c.src = KSrc.ring r) ∧ deS.reel.relays = [] ∧ deS.kiln.got = []) ∧
    (∃ s : State, ∃ pkt : List W64, s.kiln.replies = [{ src := KSrc.mbx 0 1 false, notify := false, pkt := pkt : KReply }] ∧ 0 < 64 ∧ 1 < 4 ∧
      pkt.length ≤ 32) ∧
    (∃ w0 : W64, rngS.kiln.replies = [{ src := KSrc.ring 0, notify := false, pkt := [w0, 5] : KReply }] ∧ 0 < 4 ∧ rngS.ringTakes 0 2 = true ∧ (∀ (q :
      Nat), q < 4 → rngS.ringState q ≠ 1) ∧ rngS.fget Fld.epRrpiIndex + 2 < 2 ^ rngS.fget Fld.epRingctlRk ∧ 2 ^ rngS.fget Fld.epRingctlRk ≤ 2 ^ 17) ∧
    (∃ n : Notice, ntS.kiln.mbxNotices = [(0, n)] ∧ ntS.kiln.notices = [] ∧ 0 < 64) := by
  refine ⟨⟨(mbC 0 1 [hdr 1 2 0 0, 5]), ?_⟩, ⟨(withRegs base [(.mbxStatusBusy, 0, 0, 2)]), ?_⟩, ⟨(mbC 0 1 [hdr 1 1 0 0, 5]), ?_⟩, ⟨(mbC 0 1 [hdr 0x99
    2 0 0, 5]), ?_⟩, ⟨(mbC 0 1 [hdr 1 33 0 0, 5]), ?_⟩, ⟨(mbC 0 1 [hdr 1 2 4 0, 5]), ?_⟩, ⟨(mbC 0 1 [hdr 1 2 0 0, 5]), ?_⟩, ?_, ?_, ?_, ⟨(withRegs
    (rpyS (.mbx 0 1 false) [hdr 1 3 0 0, 5, 6]) [(.mbxStatusBusy, 0, 0, 2)]), [hdr 1 3 0 0, 5, 6], ?_⟩, ⟨(hdr 1 2 0 0), ?_⟩, ⟨{ tag := 5, status := 0, result := 7, kind := 1 },
    ?_⟩⟩
  · decide +kernel
  · decide +kernel
  · decide +kernel
  · decide +kernel
  · decide +kernel
  · decide +kernel
  · decide +kernel
  · decide +kernel
  · decide +kernel
  · exact ⟨kcU, by decide +kernel, .inr ⟨0, by decide +kernel⟩, by decide +kernel⟩
  · decide +kernel
  · decide +kernel
  · decide +kernel

/-- Each clause of `Obligations.KilnGeneralCommands` has a state and operands that meet its hypotheses. -/
theorem meets_KilnGeneralCommands :
    (∃ s : State, ∃ c ∈ (s.kready 1 1), True) ∧
    (∃ c ∈ (gi.kready 1 2), bits (c.p 0) 0 4 = 0) ∧
    (∃ s : State, ∃ c ∈ (s.kready 1 2), bits (c.p 0) 0 4 = 1) ∧
    (∃ s : State, ∃ c ∈ (s.kready 1 2), 2 ≤ bits (c.p 0) 0 4) ∧
    (∃ c ∈ (gs.kready 1 3), True) ∧
    (∃ s : State, ∃ c ∈ (s.kready 1 16), 8 ≤ bits (c.p 0) 0 8) ∧
    (∃ s : State, ∃ c ∈ (s.kready 1 16), bits (c.p 0) 0 8 < 8) ∧
    (∃ s : State, ∃ c ∈ (s.kready 1 17), 8 ≤ bits (c.p 0) 0 8) ∧
    (∃ s : State, ∃ c ∈ (s.kready 1 17), bits (c.p 0) 0 8 < 8) ∧
    (∃ s : State, ∃ c ∈ (s.kfind 1), c.started = true ∧ pktOp c.pkt = 1280 ∧ c.running = false ∧ (s.srcPriv c.src).fst = 0 ∧ s.bme = false) ∧
    (∃ c ∈ (lgS.kfind 1), c.started = true ∧ pktOp c.pkt = 1280 ∧ c.running = false ∧ (lgS.srcPriv c.src).fst = 0 ∧ lgS.bme = true ∧ lgS.hostOn =
      true ∧ lgS.logFor c = []) ∧
    (∃ s : State, ∃ c ∈ (s.kfind 1), c.started = true ∧ pktOp c.pkt = 1280 ∧ c.running = false ∧ (s.srcPriv c.src).fst ≠ 0 ∧ BitVec.toNat (c.p 0) % 8
      ≠ 0) ∧
    (∃ c ∈ (lcS.kready 1 1281), True) ∧
    (∃ s : State, ∃ c ∈ (s.kready 1 1792), (s.srcPriv c.src).fst = 0 ∧ bwPorts (bits (c.p 0) 8 3) ≤ bits (c.p 0) 16 5) ∧
    (∃ s : State, ∃ c ∈ (s.kready 1 1792), (s.srcPriv c.src).fst = 0 ∧ bits (c.p 0) 16 5 < bwPorts (bits (c.p 0) 8 3) ∧ c.p 1 = 0) ∧
    (∃ s : State, ∃ c ∈ (s.kready 1 1792), (s.srcPriv c.src).fst = 0 ∧ bits (c.p 0) 16 5 < bwPorts (bits (c.p 0) 8 3) ∧ c.p 1 ≠ 0 ∧ BitVec.toNat (c.p
      1) < 2 ^ 40) ∧
    (∃ s : State, ∃ c ∈ (s.kready 1 2048), (BitVec.toNat (c.p 0) % 8 ≠ 0 ∨ BitVec.toNat (c.p 1) % 8 ≠ 0 ∨ 2 ^ 23 < BitVec.toNat (c.p 0) +
      BitVec.toNat (c.p 1))) ∧
    (∃ s : State, ∃ img : Image, ∃ c ∈ (s.kready 1 2048), BitVec.toNat (c.p 0) % 8 = 0 ∧ BitVec.toNat (c.p 1) % 8 = 0 ∧ BitVec.toNat (c.p 0) +
      BitVec.toNat (c.p 1) ≤ 2 ^ 23 ∧ img.sigOk = false) ∧
    (∃ c ∈ (lvS.kready 1 2048), BitVec.toNat (c.p 0) % 8 = 0 ∧ BitVec.toNat (c.p 1) % 8 = 0 ∧ BitVec.toNat (c.p 0) + BitVec.toNat (c.p 1) ≤ 2 ^ 23 ∧
      imA.sigOk = true ∧ imA.secLevel < lvS.kiln.fwLevel) ∧
    (∃ s : State, ∃ c ∈ (s.kready 1 2048), BitVec.toNat (c.p 0) % 8 = 0 ∧ BitVec.toNat (c.p 1) % 8 = 0 ∧ BitVec.toNat (c.p 0) + BitVec.toNat (c.p 1)
      ≤ 2 ^ 23 ∧ imA.sigOk = true ∧ s.kiln.fwLevel ≤ imA.secLevel) ∧
    (∃ s : State, ∃ c ∈ (s.kready 1 2049), s.kiln.staged = none) ∧
    (∃ c ∈ (stE.kready 1 2049), stE.kiln.staged ≠ none ∧ stE.enginesRun = true) ∧
    (∃ c ∈ (stS.kready 1 2049), stS.kiln.staged ≠ none ∧ stS.enginesRun = false ∧ stS.reel.relays = []) ∧
    (swS.kiln.fwSwitch = some 1 ∧ swS.kiln.staged = some (9, 3) ∧ (∀ (k : KCmd), k ∈ swS.kiln.cmds → k.started = true → k.id = 1) ∧ swS.ep.rings =
      []) ∧
    (∃ x ∈ (krS.reelCtl fun x => x.msg.op == ReelOp.krelay && x.msg.src == 1), True) ∧
    (∃ x : RRx, ((krS.reelCtl fun x => x.msg.op == ReelOp.krelay && x.msg.src == 1) = some x)) ∧
    (∃ x : RRx, ((krS.reelCtl fun x => x.msg.op == ReelOp.krelay && x.msg.src == 1) = some x)) ∧
    (∃ x : RRx, ((krS.reelCtl fun x => x.msg.op == ReelOp.krelay && x.msg.src == 1) = some x)) ∧
    (∃ x : RRx, ∃ wins : List W64, ((krS.reelCtl fun x => x.msg.op == ReelOp.krelay && x.msg.src == 1) = some x) ∧ 5 < 64 ∧ wins[1]? ≠ none ∧
      wins.length ≤ 32) := by
  refine ⟨⟨(kc 0x1 [5, 6, 7]), ?_⟩, ?_, ⟨(kc 0x2 [1]), ?_⟩, ⟨(kc 0x2 [2]), ?_⟩, ?_, ⟨(kc 0x10 [8]), ?_⟩, ⟨(kc 0x10 [0x103]), ?_⟩, ⟨(kc 0x11 [8]),
    ?_⟩, ⟨(kc 0x11 [3]), ?_⟩, ⟨(kc 0x500 [0, 0]), ?_⟩, ?_, ⟨(mbk 0x500 [4, 0]), ?_⟩, ?_, ⟨(kc 0x700 [0x3F0003, 5]), ?_⟩, ⟨(kc 0x700 [0x000003, 0]),
    ?_⟩, ⟨(kc 0x700 [0x45000103, 5000]), ?_⟩, ⟨(kc 0x800 [1, 8]), ?_⟩, ⟨(kc 0x800 [0, 8]), { imA with sigOk := false }, ?_⟩, ?_, ⟨(kc 0x800 [0, 8]),
    ?_⟩, ⟨(kc 0x801 [0]), ?_⟩, ?_, ?_, ?_, ?_, ⟨{ port := 0, at_ := 600, msg := { op := .krelay, src := 1 } }, ?_⟩, ⟨{ port := 0, at_ := 600, msg := { op := .krelay, src := 1 } },
    ?_⟩, ⟨{ port := 0, at_ := 600, msg := { op := .krelay, src := 1 } }, ?_⟩, ⟨{ port := 0, at_ := 600, msg := { op := .krelay, src := 1 } }, [7, 8],
    ?_⟩⟩
  all_goals decide +kernel

def epS : State := withRegs (epUp base) [(.epCrbaseBase, 1, 0, 0x1000), (.epRrbaseBase, 1, 0, 0x2000)]
def ckv (c r : Nat) : W64 := BitVec.ofNat 64 (1 + c * 256 + r * 65536)
def epD : State := withRegs epS [(.epRingstatState, 1, 0, 3)]
def epE : State := withRegs epS [(.epRingctlEn, 1, 0, 1), (.epRingctlCk, 1, 0, 9), (.epRingctlRk, 1, 0, 10), (.epRingstatState, 1, 0, 1)]
def epE2 : State := let s := epE; { s with ep := { s.ep with reads := [{ tag := 0, ring := 1, unit := 0, n := 4, issued := 5 }] } }
def rdE : EpRead := { tag := 0, ring := 1, unit := 0, n := 2, issued := 5 }
def epR : State := let s := epE; { s with ep := { s.ep with reads := [rdE] } }
def epRm : State := let s := epR; { (s.setCfg 0x04 (s.cfgW 0x04 &&& 0xFFFFFFFB)) with kiln := { s.kiln with fwSwitch := some 9 } }
def epT : State := { epR with now := 2 ^ 40 }
def mxS : State := epS.setCfg 0xA0 (epS.cfgW 0xA0 ||| 0x80000000)
def muS : State := { mxS with ep := { mxS.ep with pba := 8, msix := [(15, 0)] } }
def flS : State := { epS with ep := { epS.ep with cfgHeld := some 900 } }
def psS : State := { epS with ep := { epS.ep with perst := true } }
def luS : State := { base with ep := { base.ep with perst := false }, kiln := { base.kiln with aonHeld := false } }
def asS : State := { epS.setCfg 0x60 3 with now := 200000 }
def pmS : State := epS.setCfg 0x44 0x8100

/-- Each clause of `Obligations.EndpointRings` has a state and operands that meet its hypotheses. -/
theorem meets_EndpointRings :
    (∃ v : W64, 1 < 4 ∧ epS.barOn = true ∧ epS.fget Fld.epRingctlEn 1 = 0 ∧ bit v 0 = true ∧ (epS.epUse.rwrite RegKind.epRingctl 1 0 (setBit v 0
      false)).ringReason 1 = some 1794) ∧
    (∃ v : W64, 1 < 4 ∧ epS.barOn = true ∧ epS.fget Fld.epRingctlEn 1 = 0 ∧ bit v 0 = true ∧ (epS.epUse.rwrite RegKind.epRingctl 1 0 (setBit v 0
      false)).ringReason 1 = none) ∧
    (∃ v : W64, 1 < 4 ∧ epD.barOn = true ∧ epD.fget Fld.epRingctlEn 1 = 0 ∧ bit v 0 = true ∧ epD.ringState 1 = 3) ∧
    (∃ v : W64, 1 < 4 ∧ epS.barOn = true ∧ epS.fget Fld.epRingctlEn 1 = 0 ∧ bit v 0 = true ∧ epS.ringState 1 ≠ 3 ∧ (bits v 8 5 < 9 ∨ 17 < bits v 8 5
      ∨ bits v 16 5 < 9 ∨ 17 < bits v 16 5)) ∧
    (∃ v : W64, 1 < 4 ∧ epS.barOn = true ∧ epS.fget Fld.epRingctlEn 1 = 0 ∧ bit v 0 = true ∧ (epS.epUse.rwrite RegKind.epRingctl 1 0 (setBit v 0
      false)).ringReason 1 = none) ∧
    (1 < 4 ∧ epE.barOn = true ∧ epE.fget Fld.epRingctlEn 1 = 1 ∧ bit (1 : W64) 0 = true) ∧
    (1 < 4 ∧ epE.barOn = true ∧ epE.fget Fld.epRingctlEn 1 = 1 ∧ bit (0 : W64) 0 = false) ∧
    (1 < 4 ∧ base.barOn = false) ∧
    (1 < 4 ∧ epE.barOn = true ∧ epE.bme = true ∧ epE.ep.reads = [] ∧ epE.ringState 1 = 1 ∧ (∀ (q : Nat), q < 4 → q ≠ 1 → epE.ringState q ≠ 1) ∧
      epE.ringHeld 1 = false ∧ (epE.ring 1).reqd = 0 ∧ epE.fget Fld.epRingctlCk 1 = 9 ∧ 0 < bits (16 : W64) 0 17 ∧ bits (16 : W64) 0 17 ≤ 16) ∧
    (∃ units : List W64, 1 < 4 ∧ epRm.ep.perst = false ∧ epRm.ep.link ≠ 0 ∧ epRm.ep.reads = [rdE] ∧ rdE.ring = 1 ∧ rdE.quar = false ∧ epRm.hostOn =
      false ∧ epRm.ringState 1 = 1 ∧ (epRm.ring 1).gap = none ∧ units.length = rdE.n ∧ epRm.kilnOpen = false) ∧
    (1 < 4 ∧ epRm.ep.perst = false ∧ epRm.ep.link ≠ 0 ∧ epRm.ep.reads = [rdE] ∧ rdE.ring = 1 ∧ rdE.quar = false ∧ epRm.hostOn = false ∧
      epRm.ringState 1 = 1 ∧ CplStat.ur ≠ CplStat.ok) ∧
    (1 < 4 ∧ epS.ep.perst = false ∧ epS.ep.link ≠ 0 ∧ (∀ (x : EpRead), x ∈ epS.ep.reads → x.tag ≠ 9)) ∧
    (∃ n ∈ (epT.cplTimeout), 1 < 4 ∧ epT.ep.reads = [rdE] ∧ rdE.quar = false ∧ rdE.ring = 1 ∧ rdE.issued + n ≤ epT.now) := by
  refine ⟨⟨(ckv 8 10), ?_⟩, ⟨(ckv 9 10), ?_⟩, ⟨(ckv 9 10), ?_⟩, ⟨(ckv 9 18), ?_⟩, ⟨(ckv 9 10), ?_⟩, ?_, ?_, ?_, ?_, ⟨[7, 8], ?_⟩, ?_, ?_, ?_⟩
  all_goals decide +kernel

/-- Each clause of `Obligations.EndpointFunctionAndLink` has a state and operands that meet its hypotheses. -/
theorem meets_EndpointFunctionAndLink :
    (epS.ep.perst = false ∧ bit (epS.cfgW 160) 31 ≠ true) ∧
    (muS.hostOn = true ∧ bit muS.ep.pba 3 = true ∧ muS.ep.pba = BitVec.ofNat 64 (2 ^ 3) ∧ bit (muS.cfgW 160) 31 = true ∧ bit (muS.cfgW 160) 30 =
      false ∧ 3 < 64 ∧ muS.barOn = true ∧ muS.ep.link = 1) ∧
    (epS.ep.perst = false ∧ epS.ep.pba = 0 ∧ (∀ (r : Nat), r < 4 → epS.ringState r ≠ 1)) ∧
    (epS.ep.perst = false ∧ epS.ep.cfgHeld = none ∧ bits (259 : W64) 0 2 = 3) ∧
    (epR.ep.perst = false ∧ epR.ep.link ≠ 0) ∧
    (flS.ep.cfgHeld = some 900 ∧ 900 ≤ flS.now) ∧
    (epR.ep.perst = false) ∧
    (psS.ep.perst = true) ∧
    (epR.ep.link ≠ 0) ∧
    (luS.ep.perst = false ∧ luS.kiln.aonHeld = false ∧ luS.ep.pba = 0 ∧ luS.bme = false) ∧
    (asS.epQuiet = true ∧ asS.ep.link = 1 ∧ bit (asS.cfgW 96) 0 = true ∧ asS.ep.idleSince + 3200 ≤ asS.now) ∧
    (asS.epQuiet = true ∧ (asS.ep.link = 1 ∨ asS.ep.link = 2) ∧ bit (asS.cfgW 96) 1 = true ∧ asS.ep.idleSince + 0x19000 ≤ asS.now) ∧
    (epS.ep.link ≠ 0 ∧ epS.ep.perst = false) := by
  refine ⟨?_, ?_, ?_, ?_, ?_, ?_, ?_, ?_, ?_, ?_, ?_, ?_, ?_⟩
  all_goals decide +kernel

def slC : Core := { coreA with slots := List.replicate 8 none, ctxs := [(5, { ctxA with st := .sleep })], l2 := [], l1d := [], dtlb := [] }
def dsS (dp : Nat) (k : Core) : State := { withRegs base [(.slpDstatState, 0, 0, 1), (.pwrCorectlDeepest, 0, 0, dp), (.pwrSpillEn, 0, 0, 1)] with cores := [(0, k)] }
def dsD (n : Nat) (c : CState) : State := { withRegs base [(.slpDstatState, 2, 0, 1), (.pwrDiectlDeepest, 2, 0, n)] with cores := (List.range 20).map (fun i => (40 + i, { cst := c })) }
def deX : State := { base with dies := Tab.put {} base.dies 2 { base.die 2 with dst := 2, exitDue := some (0, 900) } }
def deY : State := { base with dies := Tab.put {} base.dies 2 { base.die 2 with dst := 2 } }
def spS : State := withRegs base [(.mcCfgD32, 0, 0, 1)]

/-- Each clause of `Obligations.CoreAndDiePowerStates` has a state and operands that meet its hypotheses. -/
theorem meets_CoreAndDiePowerStates :
    (∃ s : State, s.dieUp (dieOf 0) = true ∧ (s.core 0).rst = false ∧ (s.core 0).exitDue = none ∧ (s.core 0).cst = CState.cs0 ∧ s.coreChoice 0 = 1) ∧
    (∃ s : State, s.dieUp (dieOf 0) = true ∧ (s.core 0).rst = false ∧ (s.core 0).exitDue = none ∧ (s.core 0).cst = CState.cs0 ∧ s.coreChoice 0 = 2) ∧
    (∃ s : State, s.dieUp (dieOf 0) = true ∧ (s.core 0).rst = false ∧ (s.core 0).exitDue = none ∧ (s.core 0).cst = CState.cs0 ∧ s.coreChoice 0 = 3 ∧
      (s.core 0).l2 = []) ∧
    (∃ s : State, s.dieUp (dieOf 0) = true ∧ (s.core 0).rst = false ∧ (s.core 0).exitDue = none ∧ (s.core 0).cst = CState.cs0 ∧ s.coreChoice 0 = 3 ∧
      (s.core 0).l2 ≠ []) ∧
    (∃ s : State, s.dieUp (dieOf 0) = true ∧ (s.core 0).rst = false ∧ (s.core 0).exitDue = none ∧ (s.core 0).cst = CState.cs0 ∧ s.coreChoice 0 = 0) ∧
    (∃ s : State, (s.core 0).exitDue = some (CState.cs0, 900) ∧ 900 ≤ s.now ∧ (s.die (dieOf 0)).dst = 0 ∧ s.fget Fld.pwrStatusHosthold = 0) ∧
    (∃ s : State, (s.core 0).exitDue = some (CState.cs0, 9000) ∧ s.now < 9000) ∧
    (∃ s : State, s.dieUp 2 = true ∧ (s.die 2).exitDue = none ∧ (s.die 2).dst = 0 ∧ 2 ≤ s.fget Fld.pwrDiectlDeepest 2 ∧ s.dieMay 2 2 = true ∧ tMeets
      (s.dieT 2) 500000 = true) ∧
    (∃ s : State, s.dieUp 2 = true ∧ (s.die 2).exitDue = none ∧ (s.die 2).dst = 0 ∧ s.fget Fld.pwrDiectlDeepest 2 = 1 ∧ s.dieMay 2 1 = true ∧ tMeets
      (s.dieT 2) 1000 = true) ∧
    (∃ s : State, s.dieUp 2 = true ∧ (s.die 2).exitDue = none ∧ (s.die 2).dst = 0 ∧ s.dieMay 2 1 = false ∧ s.dieMay 2 2 = false) ∧
    ((deX.die 2).exitDue = some (0, 900) ∧ 900 ≤ deX.now ∧ 0 < 4) ∧
    (∃ s : State, 0 < 240 ∧ (s.core 0).cst.num ≤ bits (2 : W64) 0 2) ∧
    (∃ s : State, 0 < 240 ∧ bits (1 : W64) 0 2 < (s.core 0).cst.num ∧ (s.core 0).exitDue = none ∧ (s.core 0).cst ≠ CState.cs1) ∧
    (∃ s : State, 0 < 12 ∧ (s.die 0).dst ≤ bits (2 : W64) 0 2) ∧
    (2 < 12 ∧ bits (1 : W64) 0 2 < (deY.die 2).dst ∧ (deY.die 2).exitDue = none) ∧
    (∃ s : State, 0 < 240 ∧ (s.core 0).cst = CState.cs3) ∧
    (∃ r ∈ (spS.spillReason 0 (bits (0x4000000001 : W64) 20 32 * 2 ^ 20)), 0 < 240 ∧ (spS.core 0).cst ≠ CState.cs3 ∧ spS.fget Fld.pwrSpillEn = 0 ∧
      bit (0x4000000001 : W64) 0 = true) ∧
    (0 < 240 ∧ (spS.core 0).cst ≠ CState.cs3 ∧ spS.fget Fld.pwrSpillEn = 0 ∧ bit (0x400000001 : W64) 0 = true ∧ spS.spillReason 0 (bits (0x400000001
      : W64) 20 32 * 2 ^ 20) = none) := by
  refine ⟨⟨(dsS 1 slC), ?_⟩, ⟨(dsS 2 { slC with l1d := [4], l2 := [(4, held .s)] }), ?_⟩, ⟨(dsS 3 slC), ?_⟩, ⟨(dsS 3 { slC with l2 := [(0x80, held .s)] }),
    ?_⟩, ⟨(dsS 3 coreA), ?_⟩, ⟨(dsS 3 { slC with cst := .cs2, clockOn := false, exitDue := some (.cs0, 900) }), ?_⟩, ⟨(dsS 3 { slC with cst := .cs2, clockOn := false, exitDue := some (.cs0, 9000) }),
    ?_⟩, ⟨(dsD 2 .cs3), ?_⟩, ⟨(dsD 1 .cs1), ?_⟩, ⟨(dsD 1 .cs0), ?_⟩, ?_, ⟨(dsS 3 slC), ?_⟩, ⟨(dsS 3 { slC with cst := .cs2, clockOn := false }), ?_⟩,
    ⟨(dsS 3 slC), ?_⟩, ?_, ⟨(dsS 3 { slC with cst := .cs3, clockOn := false }), ?_⟩, ?_, ?_⟩
  all_goals decide +kernel

def pk (op : Nat) (ps : List W64) (l : List (Fld × Nat × Nat × Nat)) : State := cmdS op ps (withRegs base l)
def pw (f : Pwr → Pwr) (l : List (Fld × Nat × Nat × Nat)) : State := let s := withRegs base l; { s with pwr := f s.pwr, cores := [(0, { coreA with slots := List.replicate 8 none, ctxs := [(5, { ctxA with st := .sleep, hold := true })] })] }
def hpK : State := { base with cores := [(0, { coreA with cst := .cs2, clockOn := false, heap := [{ val := 1000, ctx := 5, timer := false }] })] }
def hpL : State := { base with cores := [(0, { coreA with cst := .cs2, clockOn := false, heap := [{ val := 100, ctx := 5, timer := false }] })] }
def deZ : State := let s := withRegs base [(.slpDstatState, 2, 0, 1)]; { s with dies := Tab.put {} s.dies 2 { s.die 2 with dst := 2, exitDue := some (0, 9000) } }
def vf (l : List (Fld × Nat × Nat × Nat)) (f : Die → Die) : State := let s := withRegs base ([(.slpDstatState, 2, 0, 1)] ++ l); { s with dies := Tab.put {} s.dies 2 (f (s.die 2)) }
def pp (ps : List W64) (l : List (Fld × Nat × Nat × Nat)) : State := cmdS 0x201 ps (vf l id)
def ppF : State := cmdS 0x201 [0x12, 0] (vf [(.pwrDiectlPstate, 2, 0, 3)] (fun x => { x with fuses := [0,0,0,0,0,0,0x5A5A5A5A5A5A5A5A] }))
def psA : State := let s := vf [] id; { s with kiln := { s.kiln with window := 1, limit := 700 } }

/-- Each clause of `Obligations.PackagePowerStates` has a state and operands that meet its hypotheses. -/
theorem meets_PackagePowerStates :
    (∃ s : State, ∃ c ∈ (s.kready 1 512), 4 ≤ bits (c.p 0) 0 4 ∧ bits (c.p 0) 0 4 ≠ 15) ∧
    (∃ s : State, ∃ c ∈ (s.kready 1 512), 1 ≤ bits (c.p 0) 0 4 ∧ bits (c.p 0) 0 4 ≤ 3 ∧ s.pkgUnreachable c (bits (c.p 0) 0 4) = true) ∧
    (∃ s : State, ∃ c ∈ (s.kready 1 512), 1 ≤ bits (c.p 0) 0 4 ∧ bits (c.p 0) 0 4 ≤ 3 ∧ s.pkgUnreachable c (bits (c.p 0) 0 4) = false ∧ s.pwr.cmd =
      none ∧ s.inPs0 = true ∧ s.pwr.woken = false) ∧
    (∃ s : State, s.pwr.step = 1 ∧ s.pwr.undo = false ∧ s.pwr.woken = false ∧ 1 ≤ s.pwr.target ∧ s.pwr.target ≤ 3 ∧ (∀ (e : Nat × Core), e ∈ s.cores
      → e.snd.sb = [] ∧ ∀ (x : Nat × Ctx), x ∈ e.snd.ctxs → x.snd.st ≠ CtxState.miss ∧ x.snd.st ≠ CtxState.active)) ∧
    (∃ s : State, s.pwr.undo = false ∧ s.pwr.woken = false ∧ s.pwr.step = 2 ∧ s.pwr.target = 1 ∧ s.pwr.cmd = none ∧ (∀ (d : Nat), d < 12 → s.dieUp d
      = true → (s.die d).dst = 2)) ∧
    (∃ s : State, s.pwr.undo = false ∧ s.pwr.woken = false ∧ s.pwr.step = 4 ∧ 2 ≤ s.pwr.target ∧ s.pwr.target ≤ 3) ∧
    (∃ s : State, s.pwr.undo = false ∧ s.pwr.woken = false ∧ s.pwr.step = 5 ∧ s.pwr.target = 2 ∧ s.pwr.cmd = none) ∧
    (∃ s : State, s.pwr.undo = true ∧ s.pwr.step = 4 ∧ s.pwr.woken = true) ∧
    (base.wakeActs 1 = false) ∧
    (∃ s : State, s.wakeActs 0 = true ∧ s.pwr.step = 0 ∧ s.fget Fld.pwrStatusState = 2 ∧ s.fget Fld.pwrStatusStep = 5 ∧ s.fget Fld.pwrStatusReq ≠ 15
      ∧ s.pwr.cmd = none ∧ s.pwr.undo = false ∧ s.npkg ≤ 1) ∧
    (base.fget Fld.pwrStatusReq ≠ 15) ∧
    (∃ v2 ∈ (hpK.coreT 0), True) ∧
    (∃ v2 ∈ (hpK.coreT 0), hpK.exitLatency 0 0 < v2) ∧
    (∃ v2 ∈ (hpL.coreT 0), v2 ≤ hpL.exitLatency 0 0) ∧
    ((7 < 8 ∨ 2000 < 1750 ∨ 2250 < 2000)) ∧
    (∃ s : State, 1 < 2 ∧ bit s.pwr.wakeHigh 1 = false ∧ s.inPs0 = false ∧ bit (BitVec.ofNat 2 (s.fget Fld.pwrWakesrcStuck)) 1 = true) ∧
    (∃ s : State, 1 < 2 ∧ bit s.pwr.wakeHigh 1 = true ∧ (s.fget Fld.pwrWakesrcStuck).testBit 1 = false ∧ Tab.get 0 s.pwr.wakeSince 1 + 3200000000 ≤
      s.now) ∧
    (∃ s : State, 1 < 2 ∧ bit s.pwr.wakeHigh 1 = false ∧ (s.fget Fld.pwrWakesrcStuck).testBit 1 = true ∧ Tab.get 0 s.pwr.wakeSince 1 + 32000000 ≤
      s.now) ∧
    (∃ s : State, 1 < 2 ∧ (s.fget Fld.pwrWakesrcMasked).testBit 1 = true ∧ (Tab.get (0, 0, 0) s.pwr.chat 1).snd.snd + 3200000000 ≤ s.now) ∧
    (2 < 12 ∧ deZ.dieUp 2 = true ∧ (deZ.die 2).exitDue ≠ none) := by
  refine ⟨⟨(pk 0x200 [4] []), ?_⟩, ⟨(pk 0x200 [2] [(.slpDstatState, 0, 0, 1)]), ?_⟩, ⟨(pk 0x200 [2] []), ?_⟩, ⟨(pw (fun p => { p with step := 1, target := 2 })
    []), ?_⟩, ⟨(pw (fun p => { p with step := 2, target := 1 }) []), ?_⟩, ⟨(pw (fun p => { p with step := 4, target := 2 }) [(.mcCfgLranks, 3, 0,
    2)]), ?_⟩, ⟨(pw (fun p => { p with step := 5, target := 2 }) []), ?_⟩, ⟨(pw (fun p => { p with step := 4, target := 2, undo := true, woken := true })
    []), ?_⟩, ?_, ⟨(pw (fun p => p) [(.pwrStatusState, 0, 0, 2), (.pwrStatusStep, 0, 0, 5), (.pwrStatusReq, 0, 0, 2), (.pwrWakecfgEn, 0, 0, 1)]),
    ?_⟩, ?_, ?_, ?_, ?_, ?_, ⟨(pw (fun p => { p with step := 3 }) [(.pwrWakesrcStuck, 0, 0, 2)]), ?_⟩, ⟨{ (pw (fun p => { p with wakeHigh := 2 }) []) with now := 2 ^ 40 },
    ?_⟩, ⟨{ (pw (fun p => { p with wakeHigh := 0 }) [(.pwrWakesrcStuck, 0, 0, 2)]) with now := 2 ^ 40 }, ?_⟩, ⟨{ (pw (fun p => { p with wakeHigh := 0 }) [(.pwrWakesrcMasked, 0, 0, 2)]) with now := 2 ^ 40 },
    ?_⟩, ?_⟩
  all_goals decide +kernel

/-- Each clause of `Obligations.VoltageFrequencyAndHeat` has a state and operands that meet its hypotheses. -/
theorem meets_VoltageFrequencyAndHeat :
    (∃ s : State, 2 < 12 ∧ (s.die 2).vf = some (3, 9000, 0) ∧ 3 < 8 ∧ s.now < 9000) ∧
    (∃ s : State, 2 < 12 ∧ (s.die 2).vf = some (3, 900, 0) ∧ 3 < 8 ∧ 900 ≤ s.now) ∧
    (∃ s : State, 2 < 12 ∧ (s.die 2).vf = some (3, 900, 2) ∧ 3 < 8 ∧ 900 ≤ s.now ∧ 3 ≠ s.fget Fld.pwrDiectlPstate 2) ∧
    (∃ s : State, 2 < 12 ∧ (s.die 2).vf = some (0, 900, 3) ∧ 0 < 8 ∧ 900 ≤ s.now ∧ s.pGoal 2 = 0 ∧ s.fget Fld.pwrDiectlPstate 2 = 0 ∧ s.fChanges 2 0
      = [] ∧ (s.die 2).pcmd = none) ∧
    (∃ s : State, ∃ c ∈ (s.kready 1 513), 2 < 12 ∧ bits (c.p 0) 0 4 = 2 ∧ 8 ≤ bits (c.p 0) 4 4 ∧ bits (c.p 0) 4 4 ≠ 15) ∧
    (∃ s : State, ∃ c ∈ (s.kready 1 513), 2 < 12 ∧ bits (c.p 0) 0 4 = 2 ∧ bits (c.p 0) 4 4 < 8 ∧ bits (c.p 1) 20 8 ≠ 0 ∧ (bits (c.p 1) 20 8 < 10 ∨ 32
      < bits (c.p 1) 20 8)) ∧
    (∃ s : State, ∃ c ∈ (s.kready 1 513), 2 < 12 ∧ bits (c.p 0) 0 4 = 2 ∧ bits (c.p 0) 4 4 < 8 ∧ bits (c.p 1) 20 8 = 0 ∧ s.vCode 2 (bits (c.p 0) 4 4)
      = 0) ∧
    (∃ c ∈ (ppF.kready 1 513), 2 < 12 ∧ bits (c.p 0) 0 4 = 2 ∧ 1 = bits (c.p 0) 4 4 ∧ 1 < ppF.fget Fld.pwrDiectlPstate 2 ∧ bits (c.p 1) 0 28 = 0 ∧
      ppF.vCode 2 1 ≠ 0 ∧ (ppF.die 2).pcmd = none ∧ (ppF.die 2).vf = none ∧ ppF.fget Fld.pwrDiectlLcap 2 ≤ 1 ∧ ppF.fget Fld.pwrDiectlTcap 2 ≤ 1) ∧
    (∃ s : State, ∃ c ∈ (s.kready 1 514), 2 < 12) ∧
    (∃ s : State, ∃ c ∈ (s.kready 1 515), 2 < 12 ∧ (bits (c.p 0) 0 16 < 450 ∨ 800 < bits (c.p 0) 0 16 ∨ bits (c.p 0) 16 16 = 0 ∨ 10000 < bits (c.p 0)
      16 16)) ∧
    (∃ s : State, ∃ c ∈ (s.kready 1 515), 2 < 12 ∧ 450 ≤ bits (c.p 0) 0 16 ∧ bits (c.p 0) 0 16 ≤ 800 ∧ 1 ≤ bits (c.p 0) 16 16 ∧ bits (c.p 0) 16 16 ≤
      10000) ∧
    (∃ x ∈ (psA.capDown), 2 < 12 ∧ psA.pwr.samples = [] ∧ psA.kiln.window = 1 ∧ psA.kiln.limit < 710 ∧ (psA.die x).vf = none ∧ psA.fget
      Fld.pwrDiectlLcap x < 7 ∧ (∃ y, y < 12 ∧ psA.dieUp y = true ∧ psA.fget Fld.pwrDiectlPstate y < 7)) ∧
    (2 < 12 ∧ psA.pwr.samples = [] ∧ psA.kiln.window = 1 ∧ 695 ≤ psA.kiln.limit ∧ psA.kiln.limit * 98 ≤ 695 * 100) ∧
    (2 < 12 ∧ psA.throt ≤ 110 ∧ 110 < 256 ∧ psA.hwMode 7 = true ∧ Tab.get 0 psA.pwr.capAt 2 ≤ psA.now ∧ psA.fget Fld.pwrDiectlTcap 2 < 7) ∧
    (2 < 12 ∧ psA.fget Fld.pwrThermHot = 0 ∧ psA.hwMode 7 = true) ∧
    (∃ s : State, 2 < 12 ∧ s.fget Fld.pwrThermHot = 1 ∧ s.hwMode 7 = true) ∧
    (2 < 12 ∧ decide (psA.fget Fld.pwrThermHot = 1) = false) ∧
    (2 < 12 ∧ psA.fget Fld.pwrThermMemhot = 0 ∧ psA.hwMode 7 = true) := by
  refine ⟨⟨(vf [] (fun x => { x with vf := some (3, 9000, 0) })), ?_⟩, ⟨(vf [] (fun x => { x with vf := some (3, 900, 0) })), ?_⟩, ⟨(vf [] (fun x =>
    { x with vf := some (3, 900, 2) })), ?_⟩, ⟨(vf [] (fun x => { x with vf := some (0, 900, 3) })), ?_⟩, ⟨(pp [0x82] []), ?_⟩, ⟨(pp [0x12, 9 * 2 ^
    20] []), ?_⟩, ⟨(pp [0x12, 0] []), ?_⟩, ?_, ⟨(cmdS 0x202 [0] base), ?_⟩, ⟨(cmdS 0x203 [449] base), ?_⟩, ⟨(cmdS 0x203 [600 + 5 * 2 ^ 16] base),
    ?_⟩, ?_, ?_, ?_, ?_, ⟨(withRegs psA [(.pwrThermHot, 0, 0, 1)]), ?_⟩, ?_, ?_⟩
  all_goals decide +kernel

def rsA : State := { base with ioFuses := [5], mem := { base.mem with dram := [(0x2000, 7), (0x900000000, 8)], ranks := [(0, { inSr := true, srClean := true })] }, parts := [(3, {})] }
def rsK : State := let s := rsA; withRegs { s with mem := { s.mem with ranks := (List.range 16).map (fun i => (16 * i, { inSr := true, srClean := true })) }, kiln := { s.kiln with aonLog := [{ seq := 1, cls := 3, srcKind := 1, event := 1 }] } } [(.mcCfgD32, 0, 0, 1)]
def krP : State := { base with kiln := { base.kiln with cmds := [{ id := 1, src := .mbx 0 1 false, pkt := [0x200000001], started := true }], wdog := some 500 }, mem := { base.mem with scrub := some (1, 2, 3) } }
def wdS : State := withRegs { krP with kiln := { krP.kiln with aonHeld := false, wdog := none } } [(.glbBootstatStage, 0, 0, 10)]
def wdT : State := { wdS with kiln := { wdS.kiln with wdog := some 500 } }
def pgS (n : Nat) : State := let s := withRegs base [(.slpDstatState, 2, 0, 1)]; { s with dies := Tab.put {} s.dies 2 { s.die 2 with dst := n } }
def boS (st : Nat) (f : Kiln → Kiln) : State := let s := withRegs base [(.glbBootstatStage, 0, 0, st)]; { s with kiln := f { s.kiln with aonHeld := false } }
def imB : Image := { sigOk := true, version := 9, secLevel := 3, cfg := {}, payload := [1, 2] }
def rlS (l : Tab Nat) (st : Nat) : State := boS st (fun k => { k with railDue := l })
def dimA : DimmSpd := { supported := true, density32 := true, pranks := 1, stackLog := 0, maxSpeed := 8, taaPs := 16250, trcdPs := 14000, trpPs := 14000 }
def fuseA (pos : Nat) : List W64 := let l : List W64 := [BitVec.ofNat 64 (pos + 16 + 7 * 2 ^ 24), 0, 0, 0, 0, 0, 0]; l ++ [(crc32c l).zeroExtend 64]
def fuS : State := { boS 4 id with ioFuses := fuseA 15, dies := (List.range 12).map (fun d => (d, { fuses := fuseA d })) }

/-- Each clause of `Obligations.Resets` has a state and operands that meet its hypotheses. -/
theorem meets_Resets :
    (Instr.packageReset ∈ [Instr.packageReset, Instr.glbResetPkg Req.host 0xA501, Instr.pgFall 12]) ∧
    (∃ c : Instr, bits (0x5A01 : W64) 8 8 ≠ 165 ∧ c ∈ [Instr.glbResetPkg Req.host 0x5A01, Instr.glbResetKiln Req.host 0x5A01]) ∧
    (wdS.kiln.aonHeld = false ∧ wdS.pins.thermtrip = false ∧ wdS.fget Fld.glbBootstatStage ≠ 0 ∧ wdS.kiln.wdog = none) ∧
    (wdT.kiln.aonHeld = false ∧ wdT.pins.thermtrip = false ∧ wdT.fget Fld.glbBootstatStage ≠ 0 ∧ wdT.kiln.wdog = some 500 ∧ wdT.now < 500 +
      32000000000) ∧
    (∃ s : State, 2 < 12 ∧ s.dieUp 2 = true ∧ (s.die 2).dst < 2) ∧
    (∃ s : State, 2 < 12 ∧ (s.die 2).dst = 2) ∧
    (3 < 16 ∧ 114 < 115) ∧
    (3 < 16 ∧ 115 ≤ 115) := by
  refine ⟨?_, ⟨(Instr.glbResetPkg .host 0x5A01), ?_⟩, ?_, ?_, ⟨(pgS 0), ?_⟩, ⟨(pgS 2), ?_⟩, ?_, ?_⟩
  all_goals decide +kernel

/-- Each clause of `Obligations.BootSequence` has a state and operands that meet its hypotheses. -/
theorem meets_BootSequence :
    (base.kiln.aonHeld = true) ∧
    (∃ s : State, ∃ a : Option Image, ∃ i ∈ (a), s.fget Fld.glbBootstatStage = 2 ∧ s.kiln.bootSrcHeld = true ∧ s.fget Fld.glbBootstatReason = 0 ∧
      i.sigOk = true ∧ cfgBad i.cfg = false) ∧
    (∃ s : State, ∃ a : Option Image, ∃ b : Option Image, ∃ i ∈ (b), s.fget Fld.glbBootstatStage = 2 ∧ s.kiln.bootSrcHeld = true ∧ s.fget
      Fld.glbBootstatReason = 0 ∧ i.sigOk = true ∧ (Option.all (fun x => !x.sigOk) a = true) ∧ cfgBad i.cfg = false) ∧
    (∃ s : State, s.fget Fld.glbBootstatStage = 2 ∧ s.kiln.bootSrcHeld = true ∧ s.fget Fld.glbBootstatReason = 0) ∧
    (∃ s : State, ∃ i : Image, s.fget Fld.glbBootstatStage = 2 ∧ i.sigOk = false) ∧
    (∃ s : State, s.kiln.railDue.find 12 = some 5000 ∧ 5000 ≤ s.now + 32000000) ∧
    (∃ s : State, 3 < 12 ∧ s.kiln.railDue.find 3 = some 5000 ∧ 5000 ≤ s.now + 32000000) ∧
    (∃ s : State, s.kiln.railDue.find 3 = some 900 ∧ 900 ≤ s.now ∧ 3 < 12 ∧ s.fget Fld.slpDstatState 3 ≠ 2) ∧
    (∃ s : State, s.kiln.railDue.find 12 = some 900 ∧ 900 ≤ s.now ∧ 12 ≤ 12 ∧ s.fget Fld.glbBootstatStage = 3) ∧
    (∃ s : State, s.kiln.aonHeld = false ∧ s.pins.thermtrip = false ∧ s.fget Fld.glbBootstatStage = 0 ∧ ¬12 ∈ s.pins.pgDown) ∧
    (∃ s : State, s.kiln.aonHeld = false ∧ s.pins.thermtrip = false ∧ s.fget Fld.glbBootstatStage = 1) ∧
    (∃ s : State, s.kiln.aonHeld = false ∧ s.pins.thermtrip = false ∧ s.fget Fld.glbBootstatStage = 2) ∧
    (∃ s : State, s.kiln.aonHeld = false ∧ s.pins.thermtrip = false ∧ s.fget Fld.glbBootstatStage = 3 ∧ s.kiln.railDue = [] ∧ 14 ∈ s.kiln.railsUp) ∧
    (∃ o : BootObs, fuS.kiln.aonHeld = false ∧ fuS.pins.thermtrip = false ∧ fuS.fget Fld.glbBootstatStage = 4 ∧ fuS.setCheck o = none) ∧
    (∃ s : State, ∃ o : BootObs, s.kiln.aonHeld = false ∧ s.pins.thermtrip = false ∧ s.fget Fld.glbBootstatStage = 4 ∧ s.fget Fld.glbSetchkPass = 0 ∧
      s.setCheck o = some (2307, 15)) ∧
    (∃ s : State, s.kiln.aonHeld = false ∧ s.pins.thermtrip = false ∧ s.fget Fld.glbBootstatStage = 8 ∧ s.mem.fireQ = [] ∧ s.kiln.cfg = { : BootCfg }) ∧
    (∃ s : State, s.kiln.aonHeld = false ∧ s.pins.thermtrip = false ∧ s.fget Fld.glbBootstatStage = 9 ∧ s.kiln.p0 = 2 ∧ s.mem.fireQ = []) := by
  refine ⟨?_, ⟨(boS 2 (fun k => { k with bootSrcHeld := true })), (some imB), ?_⟩, ⟨(boS 2 (fun k => { k with bootSrcHeld := true })), (some { imB with sigOk := false }),
    (some imB), ?_⟩, ⟨(boS 2 (fun k => { k with bootSrcHeld := true })), ?_⟩, ⟨(boS 2 id), { imB with sigOk := false }, ?_⟩, ⟨(rlS [(12, 5000)] 3),
    ?_⟩, ⟨(rlS [(3, 5000)] 3), ?_⟩, ⟨(rlS [(3, 900)] 3), ?_⟩, ⟨(rlS [(12, 900)] 3), ?_⟩, ⟨(boS 0 id), ?_⟩, ⟨(boS 1 id), ?_⟩, ⟨(boS 2 id), ?_⟩, ⟨(boS
    3 (fun k => { k with railsUp := [12, 13, 14] })), ?_⟩, ⟨{}, ?_⟩, ⟨(boS 4 id), {}, ?_⟩, ⟨(boS 8 id), ?_⟩, ⟨(boS 9 (fun k => { k with p0 := 2 })),
    ?_⟩⟩
  · decide +kernel
  · decide +kernel
  · decide +kernel
  · decide +kernel
  · decide +kernel
  · decide +kernel
  · decide +kernel
  · decide +kernel
  · decide +kernel
  · decide +kernel
  · decide +kernel
  · decide +kernel
  · decide +kernel
  · set_option maxRecDepth 1000000 in decide +kernel
  · decide +kernel
  · decide +kernel
  · decide +kernel

def dmL : State := withRegs base [(.dmaChctlEn, 1, 2, 1)]
def dvA : Dev := { id := 4, who := .ctx 0 5, pa := 0xF000000000000 + RegKind.mcPatrol.addr 3 0, sz := 3, write := true, val := 0x55, at_ := 600 }
def dvS : State := { base with fab := { base.fab with devs := [dvA] } }
def dvU : State := withRegs dvS [(.prtCtlPlat, 0, 0, 0)]
def wiS (b : Nat) : State := withRegs (epUp base) [(.epWinbaseBase, 0, 0, b)]
def dhS : State := { base with fab := { base.fab with devs := [{ dvA with write := false, who := .host }] } }
def dcS : State := { (baseK (fun k => { k with sb := [{ ctx := 5, va := 0x2000, pa := dvA.pa, sz := 3, val := 0x55, mt := 2, fp := false, filled := 900, devSent := true }] })) with fab := { base.fab with devs := [{ dvA with done := some 0 }] } }
def rp (l : List (Fld × Nat × Nat × Nat)) : State := withRegs base l
def npS : State := { base with kiln := { base.kiln with cfg := { base.kiln.cfg with reelMask := 2 } } }
def rpU : State := rp [(.rptStatState, 2, 0, 3), (⟨.prtIo, 0, 64⟩, 0, 4, 4)]
def dvP (off : Nat) : Dev := { id := 4, who := .ctx 0 5, pa := 0x1000000000000 + 2 * 2 ^ 40 + off, sz := 3, write := false, val := 0, at_ := 600 }
def dnS (off : Nat) (d : Down) : State := { rp [(.rptStatState, 2, 0, 3)] with fab := { base.fab with devs := [dvP off] }, rpts := [(2, { down := [d] })], now := 5000000000 }

/-- Each clause of `Obligations.HostAccessesAndRegisters` has a state and operands that meet its hypotheses. -/
theorem meets_HostAccessesAndRegisters :
    (RegKind.mcPatrol.has 3 0 = true ∧ RegKind.mcPatrol.width = 8 ∧ ctlNamed (RegKind.mcPatrol.addr 3 0) 3 = some (some (RegKind.mcPatrol, 3, 0)) ∧
      (RegKind.mcPatrol = RegKind.mcPatrol ∨ RegKind.mcPatrol = RegKind.hsTmo ∨ RegKind.mcPatrol = RegKind.slpCfg ∨ RegKind.mcPatrol =
      RegKind.glbMemras ∨ RegKind.mcPatrol = RegKind.ectData ∨ RegKind.mcPatrol = RegKind.ectAddr ∨ RegKind.mcPatrol = RegKind.slpGerr)) ∧
    (RegKind.dmaChring.has 1 2 = true ∧ RegKind.dmaChring.width = 8 ∧ ctlNamed (RegKind.dmaChring.addr 1 2) 3 = some (some (RegKind.dmaChring, 1, 2))
      ∧ (RegKind.dmaChring = RegKind.dmaChring ∨ RegKind.dmaChring = RegKind.dmaChtrig ∨ RegKind.dmaChring = RegKind.dmaChcpl) ∧ dmL.fget
      Fld.dmaChctlEn 1 2 = 1) ∧
    (ctlNamed 3 3 = none) ∧
    (264 < 0x40000 ∧ 256 ≤ 264 % 0x1000 ∧ 264 % 8 = 0) ∧
    (∃ d ∈ (dvS.devNextOf 0 5), d.write = true ∧ d.pa = dvS.ctlPa (RegKind.mcPatrol.addr 3 0) ∧ d.val = 85 ∧ d.sz = 3 ∧ d.at_ + 3 ≤ dvS.fcyc ∧
      RegKind.mcPatrol.has 3 0 = true ∧ ctlNamed (RegKind.mcPatrol.addr 3 0) 3 = some (some (RegKind.mcPatrol, 3, 0)) ∧ dvS.mayReach (Req.ctx 0 5)
      (RegKind.mcPatrol.addr 3 0) = true) ∧
    (∃ d ∈ (dvU.devNextOf 0 5), d.write = true ∧ d.pa = dvU.ctlPa (RegKind.mcPatrol.addr 3 0) ∧ d.val = 85 ∧ d.sz = 3 ∧ d.at_ + 3 ≤ dvU.fcyc ∧
      RegKind.mcPatrol.has 3 0 = true ∧ ctlNamed (RegKind.mcPatrol.addr 3 0) 3 = some (some (RegKind.mcPatrol, 3, 0)) ∧ dvU.mayReach (Req.ctx 0 5)
      (RegKind.mcPatrol.addr 3 0) = false) ∧
    (base.barOn = false) ∧
    (∃ s : State, s.barOn = true ∧ 64 + 8 ≤ 0x80000 ∧ s.target (s.fget Fld.epWinbaseBase * 2 ^ 19 + 64) = Target.mem 0 ∧ 0 = s.pkg ∧ 64 % 64 ≤ 56 ∧
      s.populated (s.fget Fld.epWinbaseBase * 2 ^ 19 + 64) = true ∧ s.lost 0 = false ∧ s.inCarve (s.fget Fld.epWinbaseBase * 2 ^ 19 + 64) = false) ∧
    (∃ s : State, s.barOn = true ∧ 64 + 8 ≤ 0x80000 ∧ s.target (s.fget Fld.epWinbaseBase * 2 ^ 19 + 64) = Target.mem 0 ∧ 0 = s.pkg ∧ 64 % 64 ≤ 56 ∧
      s.populated (s.fget Fld.epWinbaseBase * 2 ^ 19 + 64) = false ∧ s.lost 0 = false) ∧
    (∃ s : State, s.barOn = true ∧ 768 + 8 ≤ 0x80000 ∧ s.target (s.fget Fld.epWinbaseBase * 2 ^ 19 + 768) = Target.ctrl 768 ∧ s.csRead 768 3 = some
      ((s.csRead 768 3).getD 0)) ∧
    (∃ s : State, s.barOn = true ∧ 264 + 8 ≤ 0x1000000 ∧ s.csRead (0xA000000 + 264) 3 = some ((s.csRead (0xA000000 + 264) 3).getD 0)) ∧
    (∃ d : Dev, ∃ o : Nat, dhS.fab.devs = [d] ∧ d.done = none ∧ d.write = false ∧ d.who = Req.host ∧ dhS.target d.pa = Target.ctrl o ∧ d.at_ + 13 ≤
      dhS.fcyc ∧ dhS.ep.accs = []) ∧
    (∃ d : Dev, ∃ e ∈ ((dcS.core 0).sbHead 5), dcS.fab.devs = [d] ∧ d.done = some 0 ∧ d.who = Req.ctx 0 5 ∧ d.write = true ∧ e.devSent = true) := by
  refine ⟨?_, ?_, ?_, ?_, ?_, ?_, ?_, ⟨(wiS 1), ?_⟩, ⟨(wiS (2 ^ 24)), ?_⟩, ⟨(wiS (0xF000000000000 / 2 ^ 19)), ?_⟩, ⟨(wiS 1), ?_⟩, ⟨{ dvA with write := false, who := .host },
    (RegKind.mcPatrol.addr 3 0), ?_⟩, ⟨{ dvA with done := some 0 }, ?_⟩⟩
  all_goals decide +kernel

/-- Each clause of `Obligations.RootPorts` has a state and operands that meet its hypotheses. -/
theorem meets_RootPorts :
    (∃ s : State, 2 < 20 ∧ bit (1 : W64) 0 = true ∧ s.fget Fld.rptCtlEn 2 = 0 ∧ s.portExists 2 = true ∧ s.portOwner 2 = none ∧ s.fget
      Fld.rptStatState 2 ≠ 6) ∧
    (∃ s : State, 2 < 20 ∧ bit (1 : W64) 0 = true ∧ s.fget Fld.rptCtlEn 2 = 0 ∧ s.portExists 2 = true ∧ s.fget Fld.rptStatState 2 = 6) ∧
    (∃ s : State, 2 < 20 ∧ bit (91 : W64) 0 = true ∧ s.fget Fld.rptCtlEn 2 = 0 ∧ s.portExists 2 = true ∧ s.portOwner 2 ≠ none ∧ s.fget
      Fld.rptStatState 2 ≠ 6) ∧
    (2 < 20 ∧ npS.portExists 2 = false ∧ bit (0 : W64) 0 = false) ∧
    (∃ s : State, 2 < 20 ∧ s.portUp 2 = true ∧ s.fab.devs = [] ∧ s.home.ncDone = [] ∧ s.home.ncq = [] ∧ s.rpt 2 = { : Rpt }) ∧
    (∃ s : State, 2 < 20 ∧ s.fget Fld.rptStatState 2 = 6 ∧ s.fab.devs = [] ∧ s.home.ncDone = [] ∧ s.home.ncq = [] ∧ s.rpt 2 = { : Rpt }) ∧
    (∃ s : State, 2 < 20 ∧ s.fget Fld.rptCtlEn 2 = 1 ∧ (s.fget Fld.rptStatState 2 = 2 ∨ s.fget Fld.rptStatState 2 = 5) ∧ 1 ≤ 5 ∧ 5 ≤ 6 ∧ 16 < 32 ∧
      s.fab.devs = []) ∧
    (∃ s : State, 2 < 20 ∧ s.fget Fld.rptStatState 2 = 3 ∧ s.fget Fld.rptCtlAspml1 2 = 1) ∧
    (∃ s : State, 2 < 20 ∧ s.fget Fld.rptStatState 2 = 3 ∧ s.fget Fld.rptCtlAspml1 2 = 0) ∧
    (∃ s : State, 2 < 20 ∧ s.fget Fld.rptStatState 2 = 4 ∧ s.inPs0 = true) ∧
    (∃ s : State, 2 < 20 ∧ s.fget Fld.rptStatState 2 = 3 ∧ s.fget Fld.rptCtlBmblk 2 = 1 ∧ 0 < 64 ∧ 64 ≤ 0x1000) ∧
    (2 < 20 ∧ rpU.fget Fld.rptStatState 2 = 3 ∧ rpU.fget Fld.rptCtlBmblk 2 = 0 ∧ rpU.pwr.portsHeld = false ∧ rpU.rpt 2 = { : Rpt } ∧ rpU.home.ncDone
      = [] ∧ rpU.fab.devs = [] ∧ 0 < 64 ∧ 0x2000 % 64 + 64 ≤ 64 ∧ rpU.target 0x2000 = Target.mem 0 ∧ 0 = rpU.pkg ∧ rpU.upReason 2 0x2000 64 = none) ∧
    (∃ r ∈ (rpU.upReason 2 0x2000000000 64), 2 < 20 ∧ rpU.fget Fld.rptStatState 2 = 3 ∧ rpU.fget Fld.rptCtlBmblk 2 = 0 ∧ rpU.pwr.portsHeld = false ∧
      rpU.rpt 2 = { : Rpt } ∧ rpU.home.ncDone = [] ∧ rpU.fab.devs = [] ∧ 0 < 64 ∧ 0x2000000000 % 64 + 64 ≤ 64 ∧ rpU.target 0x2000000000 = Target.mem
      0) ∧
    (∃ s : State, ∃ d : Dev, 2 < 20 ∧ s.portUp 2 = true ∧ s.fab.devs = [d] ∧ d.done = none ∧ d.write = false ∧ s.rpt 2 = { down := [{ id := d.id, sent := s.now, first := s.now : Down }] : Rpt }
      ∧ isEcam d.pa = false) ∧
    (∃ s : State, ∃ d : Dev, 2 < 20 ∧ s.portUp 2 = true ∧ s.fab.devs = [d] ∧ d.done = none ∧ d.write = false ∧ s.rpt 2 = { down := [{ id := d.id, sent := s.now, first := s.now : Down }] : Rpt }
      ∧ isEcam d.pa = true) ∧
    (∃ s : State, ∃ d : Dev, ∃ x : Down, 2 < 20 ∧ s.fab.devs = [d] ∧ d.done = none ∧ s.rpt 2 = { down := [x] : Rpt } ∧ x.id = d.id ∧ x.retry = false
      ∧ x.sent + s.ctoTicks 2 ≤ s.now) ∧
    (∃ s : State, ∃ d : Dev, ∃ x : Down, 2 < 20 ∧ s.fab.devs = [d] ∧ d.done = none ∧ s.rpt 2 = { down := [x] : Rpt } ∧ x.id = d.id ∧ x.retry = true ∧
      x.sent + 3200000 ≤ s.now ∧ x.first + 3200000000 ≤ s.now) ∧
    (∃ s : State, ∃ d : Dev, ∃ x : Down, 2 < 20 ∧ s.fab.devs = [d] ∧ d.done = none ∧ s.rpt 2 = { down := [x] : Rpt } ∧ x.id = d.id ∧ x.retry = true ∧
      x.sent + 3200000 ≤ s.now ∧ s.now < x.first + 3200000000) := by
  refine ⟨⟨(rp []), ?_⟩, ⟨(rp [(.rptStatState, 2, 0, 6)]), ?_⟩, ⟨(rp [(⟨.prtIo, 0, 64⟩, 0, 4, 4)]), ?_⟩, ?_, ⟨(rp [(.rptStatState, 2, 0, 3)]), ?_⟩,
    ⟨(rp [(.rptStatState, 2, 0, 6)]), ?_⟩, ⟨(rp [(.rptStatState, 2, 0, 2), (.rptCtlEn, 2, 0, 1), (.rptCtlMaxgen, 2, 0, 3)]), ?_⟩, ⟨(rp
    [(.rptStatState, 2, 0, 3), (.rptCtlAspml1, 2, 0, 1)]), ?_⟩, ⟨(rp [(.rptStatState, 2, 0, 3)]), ?_⟩, ⟨(rp [(.rptStatState, 2, 0, 4)]), ?_⟩, ⟨(rp
    [(.rptStatState, 2, 0, 3), (.rptCtlBmblk, 2, 0, 1)]), ?_⟩, ?_, ?_, ⟨(dnS 0x10000000 { id := 4, sent := 5000000000, first := 5000000000 }), (dvP
    0x10000000), ?_⟩, ⟨(dnS 0x1000 { id := 4, sent := 5000000000, first := 5000000000 }), (dvP 0x1000), ?_⟩, ⟨(dnS 0x1000 { id := 4, sent := 500, first := 500 }),
    (dvP 0x1000), { id := 4, sent := 500, first := 500 }, ?_⟩, ⟨(dnS 0x1000 { id := 4, sent := 500, first := 500, retry := true }), (dvP 0x1000), { id := 4, sent := 500, first := 500, retry := true },
    ?_⟩, ⟨(dnS 0x1000 { id := 4, sent := 500, first := 4000000000, retry := true }), (dvP 0x1000), { id := 4, sent := 500, first := 4000000000, retry := true },
    ?_⟩⟩
  all_goals decide +kernel

def takeS (o : Option (NcReq × State)) : State := match o with | some r => r.2 | none => base
def dm (l : List (Fld × Nat × Nat × Nat)) : State := withRegs base ([(⟨.prtIo, 0, 64⟩, 0, 0, 4), (.dmaChringAddr, 0, 2, 0x1000), (.dmaChtrigAddr, 0, 2, 0x200), (.dmaChcplAddr, 0, 2, 0x300)] ++ l)
def dmC (l : List (Fld × Nat × Nat × Nat)) (f : DmaCh → DmaCh) : State := let s := dm ([(.dmaChctlEn, 0, 2, 1), (.dmaChctlK, 0, 2, 4)] ++ l); { s with dmaCh := [(2, f {})] }
def dmR : State := dmC [(.dmaChstatState, 0, 2, 1), (.dmaChstatCi, 0, 2, 10), (.dmaChpivalPi, 0, 2, 12)] (fun d => { d with fIdx := 11 })
def dmH : State := dmC [(.dmaChstatState, 0, 2, 3), (.dmaChpivalResume, 0, 2, 7)] (fun d => { d with haltResume := 7 })
def trq (st : Nat) (v : LineData) : NcReq := { id := 4, agent := .dma 2, use := .trigger, write := false, pa := 0x8000, len := 64, val := v, status := st, at_ := 600 }
def trD (st : Nat) (v : LineData) (l : List (Fld × Nat × Nat × Nat)) (f : DmaCh → DmaCh) : State := let s := dmC l (fun d => f { d with trigRd := some 4 }); { s with home := { s.home with ncDone := [trq st v] } }
def brS (f : DmaCh → DmaCh) : State := dmC [(.dmaChstatState, 0, 2, 2), (.dmaChstatBarwait, 0, 2, 1)] (fun d => f { d with barPend := true })
def rcq : NcReq := { id := 4, agent := .dma 2, use := .record, write := true, pa := 0xC000, len := 64, at_ := 600 }
def rcS (b : Bool) : State := let s := dmC [(.irtRouteEn, 2, 0, 1), (.irtRouteSent, 2, 0, 1)] (fun d => { d with recs := [(4, b)] }); { s with home := { s.home with ncDone := [rcq] } }
def dgS : State := dmC [(.dmaChstatState, 0, 2, 1), (.dmaChpivalPi, 0, 2, 3)] (fun d => { d with fIdx := 1 })
def dgO : State := withRegs dgS [(.dmaChringAddr, 0, 2, 2 ^ 40)]
def dgH : State := { dmC [(.dmaChstatState, 0, 2, 1), (.dmaChpivalPi, 0, 2, 3)] (fun d => { d with fIdx := 1, chain := some 0x5000 }) with dmaEng := [(0, { held := some 2 })] }
def dx : DmaX := { ch := 2, addr := 0x40000, fetch := some 4, ent := 1 }
def deq (st : Nat) (v : LineData) : NcReq := { id := 4, agent := .dma 2, use := .desc, write := false, pa := 0x40000, len := 64, val := v, status := st, at_ := 624 }
def dvv (w0 : Nat) : LineData := BitVec.ofNat 512 (w0 + 0x8000 * 2 ^ 64 + (64 + 2 ^ 24) * 2 ^ 128 + 0x9000 * 2 ^ 256 + (64 + 2 ^ 24) * 2 ^ 320)
def dar (st : Nat) (v : LineData) (f : DmaCh → DmaCh) : State := let s := dmC [(.dmaChstatState, 0, 2, 1), (.dmaChpivalPi, 0, 2, 3)] (fun d => f { d with fIdx := 1 }); { s with dmaEng := [(0, { cur := some dx })], home := { s.home with ncDone := [deq st v] } }
def dar1 : State := dar 0x1081 0 id
def dar2 : State := dar 0 (dvv 0x11) (fun d => { d with ents := [{ idx := 0, wrs := [3] }] })
def dar3 : State := dar 0 (dvv 0x50001) id
def dar4 : State := dar 0 (dvv 0x50003) id
def sxq : NcReq := { id := 7, agent := .dma 2, use := .src, write := false, pa := 0x8000, len := 64, val := lineA, at_ := 600 }
def dxs : DmaX := { dx with fetch := none, words := descWords (dvv 1), rdOut := [(7, 0, 64)], begun := true }
def rrS : State := let s := dmC [] (fun d => { d with ents := [{ idx := 1 }] }); { s with dmaEng := [(0, { xs := [dxs], wrAt := 700 })], home := { s.home with ncDone := [sxq] } }
def wq (st : Nat) : NcReq := { id := 7, agent := .dma 2, use := .dst, write := true, pa := 0x9000, len := 64, val := lineA, status := st, at_ := 600 }
def waS (st : Nat) (a : DmaEnt) : State := let s := dmC [(.dmaChstatState, 0, 2, 1)] (fun d => { d with ents := [a] }); { s with dmaEng := [(0, {})], home := { s.home with ncDone := [wq st] } }
def en1 : DmaEnt := { idx := 0, wrs := [7], last := true, int := true }
def en2 : DmaEnt := { idx := 0, wrs := [7] }

/-- Each clause of `Obligations.DmaChannels` has a state and operands that meet its hypotheses. -/
theorem meets_DmaChannels :
    (∃ s : State, ∃ v : BitVec 64, ∃ r ∈ ((s.rwrite RegKind.dmaChctl (2 / 32) (2 % 32) (setBit v 0 false)).chReason 2), 2 < 256 ∧ s.fget
      Fld.dmaChctlEn (2 / 32) (2 % 32) = 0 ∧ bit v 0 = true) ∧
    (∃ s : State, ∃ v : BitVec 64, 2 < 256 ∧ s.fget Fld.dmaChctlEn (2 / 32) (2 % 32) = 0 ∧ bit v 0 = true ∧ (s.rwrite RegKind.dmaChctl (2 / 32) (2 %
      32) (setBit v 0 false)).chReason 2 = none) ∧
    (∃ s : State, ∃ v : BitVec 64, 2 < 256 ∧ s.fget Fld.dmaChctlEn (2 / 32) (2 % 32) = 0 ∧ bit v 0 = true ∧ s.chState 2 = 4) ∧
    (∃ v : BitVec 64, 2 < 256 ∧ base.fget Fld.dmaChctlEn (2 / 32) (2 % 32) = 0 ∧ bit v 0 = true ∧ base.chState 2 ≠ 4 ∧ base.chPart 2 = none) ∧
    (∃ s : State, ∃ v : BitVec 64, 2 < 256 ∧ s.fget Fld.dmaChctlEn (2 / 32) (2 % 32) = 0 ∧ bit v 0 = true ∧ s.chState 2 ≠ 4 ∧ s.chPart 2 ≠ none ∧
      (bits v 8 5 < 4 ∨ 16 < bits v 8 5 ∨ s.fget Fld.dmaChringAddr (2 / 32) (2 % 32) * 64 % 2 ^ (bits v 8 5 + 6) ≠ 0)) ∧
    (∃ s : State, 2 < 256 ∧ s.fget Fld.dmaChctlEn (2 / 32) (2 % 32) = 1 ∧ bit (1 : W64) 0 = true) ∧
    (∃ s : State, 2 < 256 ∧ s.fget Fld.dmaChctlEn (2 / 32) (2 % 32) = 1 ∧ bit (0 : W64) 0 = false) ∧
    (∃ s : State, 2 < 256 ∧ s.chState 2 = 4 ∧ s.chDrained 2 = true) ∧
    (2 < 256 ∧ base.fget Fld.dmaChctlEn (2 / 32) (2 % 32) = 0) ∧
    (2 < 256 ∧ dmR.fget Fld.dmaChctlEn (2 / 32) (2 % 32) = 1 ∧ dmR.chState 2 ≠ 3 ∧ 2 ^ dmR.fget Fld.dmaChctlK (2 / 32) (2 % 32) < idxSub (bits (30 :
      W64) 0 32) (dmR.chCi 2) ∧ idxSub (bits (30 : W64) 0 32) (dmR.chCi 2) < 2 ^ 31) ∧
    (2 < 256 ∧ dmR.fget Fld.dmaChctlEn (2 / 32) (2 % 32) = 1 ∧ dmR.chState 2 ≠ 3 ∧ idxSub (bits (14 : W64) 0 32) (dmR.chCi 2) ≤ 2 ^ dmR.fget
      Fld.dmaChctlK (2 / 32) (2 % 32) ∧ idxSub (bits (14 : W64) 0 32) (dmR.chCi 2) < 2 ^ 31 ∧ idxSub (dmR.chan 2).fIdx (dmR.chCi 2) ≤ idxSub (bits
      (14 : W64) 0 32) (dmR.chCi 2)) ∧
    (2 < 256 ∧ dmR.fget Fld.dmaChctlEn (2 / 32) (2 % 32) = 1 ∧ dmR.chState 2 ≠ 3 ∧ (2 ^ 31 ≤ idxSub (bits (10 : W64) 0 32) (dmR.chCi 2) ∨ idxSub
      (bits (10 : W64) 0 32) (dmR.chCi 2) ≤ 2 ^ dmR.fget Fld.dmaChctlK (2 / 32) (2 % 32) ∧ idxSub (bits (10 : W64) 0 32) (dmR.chCi 2) < idxSub
      (dmR.chan 2).fIdx (dmR.chCi 2))) ∧
    (2 < 256 ∧ dmH.fget Fld.dmaChctlEn (2 / 32) (2 % 32) = 1 ∧ dmH.chState 2 = 3 ∧ dmH.fget Fld.dmaChpivalResume (2 / 32) (2 % 32) = (dmH.chan
      2).haltResume) ∧
    (∃ s : State, 2 < 256 ∧ (s.chan 2).note = some 900 ∧ s.fcyc < 900) ∧
    (∃ s : State, 2 < 256 ∧ (s.chan 2).note = some 600 ∧ 600 ≤ s.fcyc ∧ (s.chan 2).trigRd = none ∧ pkgOf (s.fget Fld.dmaChtrigAddr (2 / 32) (2 % 32)
      * 64) = s.pkg) ∧
    (∃ s : State, 2 < 256 ∧ (s.chan 2).note = some 600 ∧ 600 ≤ s.fcyc ∧ (s.chan 2).trigRd ≠ none) ∧
    (∃ s : State, ∃ r : NcReq, 2 < 256 ∧ (s.chan 2).trigRd = some 4 ∧ s.ncTake 4 = some (r, takeS (s.ncTake 4)) ∧ (s.chan 2).trigAgain = false ∧
      r.status ≠ 0) ∧
    (∃ s : State, ∃ r : NcReq, 2 < 256 ∧ (s.chan 2).trigRd = some 4 ∧ s.ncTake 4 = some (r, takeS (s.ncTake 4)) ∧ (s.chan 2).trigAgain = false ∧
      r.status = 0 ∧ (s.chan 2).enabling = true) ∧
    (∃ s : State, ∃ r : NcReq, 2 < 256 ∧ (s.chan 2).trigRd = some 4 ∧ s.ncTake 4 = some (r, takeS (s.ncTake 4)) ∧ (s.chan 2).trigAgain = false ∧
      r.status = 0 ∧ (s.chan 2).enabling = false ∧ idxSub (bits r.val 0 32) (s.chCi 2) ≤ 2 ^ s.fget Fld.dmaChctlK (2 / 32) (2 % 32) ∧ idxSub (bits
      r.val 0 32) (s.chCi 2) < 2 ^ 31 ∧ idxSub (s.chan 2).fIdx (s.chCi 2) ≤ idxSub (bits r.val 0 32) (s.chCi 2) ∧ s.fget Fld.dmaChctlEn (2 / 32) (2 %
      32) = 1 ∧ (s.chState 2 < 3 ∨ s.chState 2 = 3 ∧ bits r.val 64 32 ≠ (s.chan 2).haltResume)) ∧
    (∃ s : State, ∃ r : NcReq, 2 < 256 ∧ (s.chan 2).trigRd = some 4 ∧ s.ncTake 4 = some (r, takeS (s.ncTake 4)) ∧ (s.chan 2).trigAgain = false ∧
      r.status = 0 ∧ (s.chan 2).enabling = false ∧ s.chState 2 = 3 ∧ bits r.val 64 32 = (s.chan 2).haltResume) ∧
    (∃ s : State, 2 < 256 ∧ (s.chan 2).barPend = true ∧ s.barReady 2 = true) ∧
    (∃ s : State, 2 < 256 ∧ (s.chan 2).barPend = true ∧ s.barReady 2 = false) ∧
    (∃ s : State, 2 < 256 ∧ (s.chan 2).recs = [(4, false)] ∧ s.ncTake 4 = some (rcq, takeS (s.ncTake 4))) ∧
    (∃ s : State, 2 < 256 ∧ (s.chan 2).recs = [(4, true)] ∧ s.ncTake 4 = some (rcq, takeS (s.ncTake 4)) ∧ s.fget Fld.irtRouteEn 2 = 1 ∧ s.fget
      Fld.irtRouteSent 2 = 1) := by
  refine ⟨⟨(dm []), (1 + 3 * 256), ?_⟩, ⟨(dm []), (1 + 4 * 256), ?_⟩, ⟨(dm [(.dmaChstatState, 0, 2, 4)]), (1 + 4 * 256), ?_⟩, ⟨(1 + 4 * 256), ?_⟩,
    ⟨(dm []), (1 + 17 * 256), ?_⟩, ⟨(dmC [] id), ?_⟩, ⟨(dmC [] id), ?_⟩, ⟨(dm [(.dmaChstatState, 0, 2, 4)]), ?_⟩, ?_, ?_, ?_, ?_, ?_, ⟨(dmC [] (fun d
    => { d with note := some 900 })), ?_⟩, ⟨(dmC [] (fun d => { d with note := some 600 })), ?_⟩, ⟨(dmC [] (fun d => { d with note := some 600, trigRd := some 4 })),
    ?_⟩, ⟨(trD 0x1081 0 [] id), (trq 0x1081 0), ?_⟩, ⟨(trD 0 (5 + 9 * 2 ^ 64) [] (fun d => { d with enabling := true })), (trq 0 (5 + 9 * 2 ^ 64)),
    ?_⟩, ⟨(trD 0 (5 + 9 * 2 ^ 64) [(.dmaChstatState, 0, 2, 1)] id), (trq 0 (5 + 9 * 2 ^ 64)), ?_⟩, ⟨(trD 0 (5 + 9 * 2 ^ 64) [(.dmaChstatState, 0, 2,
    3)] (fun d => { d with haltResume := 9 })), (trq 0 (5 + 9 * 2 ^ 64)), ?_⟩, ⟨(brS id), ?_⟩, ⟨(brS (fun d => { d with ents := [{ idx := 0, wrs := [3] }] })),
    ?_⟩, ⟨(rcS false), ?_⟩, ⟨(rcS true), ?_⟩⟩
  all_goals decide +kernel

/-- Each clause of `Obligations.DmaDescriptorsAndTransfers` has a state and operands that meet its hypotheses. -/
theorem meets_DmaDescriptorsAndTransfers :
    (0 < 8 ∧ 2 < 256 ∧ 2 / 32 = 0 ∧ (dgS.eng 0).cur = none ∧ (dgS.eng 0).held = none ∧ 2 < 32 ∧ 2 % 32 = ((dgS.eng 0).rr + 1 + 2) % 32 ∧
      dgS.chEligible 2 = true ∧ (∀ (j : Nat), j < 2 → dgS.chEligible (0 * 32 + ((dgS.eng 0).rr + 1 + j) % 32) = false) ∧ (dgS.chan 2).chain = none ∧
      (Option.any (fun p => dgS.inWindows p (dgS.fget Fld.dmaChringAddr 0 (2 % 32) * 64 + 64 * ((dgS.chan 2).fIdx % 2 ^ dgS.fget Fld.dmaChctlK 0 (2 %
      32)))) (dgS.chPart 2) = true) ∧ pkgOf (dgS.fget Fld.dmaChringAddr 0 (2 % 32) * 64 + 64 * ((dgS.chan 2).fIdx % 2 ^ dgS.fget Fld.dmaChctlK 0 (2 %
      32))) = dgS.pkg) ∧
    (0 < 8 ∧ 2 < 256 ∧ 2 / 32 = 0 ∧ (dgO.eng 0).cur = none ∧ (dgO.eng 0).held = none ∧ 2 < 32 ∧ 2 % 32 = ((dgO.eng 0).rr + 1 + 2) % 32 ∧
      dgO.chEligible 2 = true ∧ (∀ (j : Nat), j < 2 → dgO.chEligible (0 * 32 + ((dgO.eng 0).rr + 1 + j) % 32) = false) ∧ (dgO.chan 2).chain = none ∧
      (Option.any (fun p => dgO.inWindows p (dgO.fget Fld.dmaChringAddr 0 (2 % 32) * 64 + 64 * ((dgO.chan 2).fIdx % 2 ^ dgO.fget Fld.dmaChctlK 0 (2 %
      32)))) (dgO.chPart 2) = false)) ∧
    (0 < 8 ∧ 2 < 256 ∧ 2 / 32 = 0 ∧ (dgH.eng 0).cur = none ∧ (dgH.eng 0).held = some 2 ∧ dgH.chEligible 2 = true ∧ (dgH.chan 2).chain = some 0x5000 ∧
      dgH.chPart 2 = some 0 ∧ dgH.inWindows 0 0x5000 = true ∧ pkgOf 0x5000 = dgH.pkg) ∧
    (∃ r : NcReq, ∃ s1 : State, 0 < 8 ∧ 2 < 256 ∧ 2 / 32 = 0 ∧ (dar1.eng 0).cur = some dx ∧ dx.ch = 2 ∧ dx.fetch = some 4 ∧ dar1.ncTake 4 = some (r,
      s1) ∧ r.status ≠ 0) ∧
    (∃ r : NcReq, ∃ s1 : State, 0 < 8 ∧ 2 < 256 ∧ 2 / 32 = 0 ∧ (dar2.eng 0).cur = some dx ∧ dx.ch = 2 ∧ dx.fetch = some 4 ∧ dar2.ncTake 4 = some (r,
      s1) ∧ r.status = 0 ∧ { ch := dx.ch, addr := dx.addr, chained := dx.chained, words := descWords r.val, begun := dx.begun, began := r.at_ + 2, ent := dx.ent, rdPos := dx.rdPos, rdOut := dx.rdOut, parts := dx.parts, wrPos := dx.wrPos : DmaX }.ctrl
      4 = true ∧ s1.barReady 2 = false) ∧
    (∃ r : NcReq, ∃ s1 : State, 0 < 8 ∧ 2 < 256 ∧ 2 / 32 = 0 ∧ (dar3.eng 0).cur = some dx ∧ dx.ch = 2 ∧ dx.fetch = some 4 ∧ dar3.ncTake 4 = some (r,
      s1) ∧ r.status = 0 ∧ ({ ch := dx.ch, addr := dx.addr, chained := dx.chained, words := descWords r.val, begun := dx.begun, began := r.at_ + 2, ent := dx.ent, rdPos := dx.rdPos, rdOut := dx.rdOut, parts := dx.parts, wrPos := dx.wrPos : DmaX }.ctrl
      4 = false ∨ s1.barReady 2 = true)) ∧
    (∃ r : NcReq, ∃ s1 : State, 0 < 8 ∧ 2 < 256 ∧ 2 / 32 = 0 ∧ (dar4.eng 0).cur = some dx ∧ dx.ch = 2 ∧ dx.fetch = some 4 ∧ dar4.ncTake 4 = some (r,
      s1) ∧ r.status = 0 ∧ ({ ch := dx.ch, addr := dx.addr, chained := dx.chained, words := descWords r.val, begun := dx.begun, began := r.at_ + 2, ent := dx.ent, rdPos := dx.rdPos, rdOut := dx.rdOut, parts := dx.parts, wrPos := dx.wrPos : DmaX }.ctrl
      4 = false ∨ s1.barReady 2 = true) ∧ s1.descReason { ch := dx.ch, addr := dx.addr, chained := dx.chained, words := descWords r.val, begun := dx.begun, began := r.at_ + 2, ent := dx.ent, rdPos := dx.rdPos, rdOut := dx.rdOut, parts := dx.parts, wrPos := dx.wrPos : DmaX }
      ≠ 0 ∧ dx.chained = false ∧ (dar4.chan 2).ents = [] ∧ pkgOf (dar4.fget Fld.dmaChcplAddr 0 (2 % 32) * 64) = dar4.pkg) ∧
    (∃ s1 : State, 0 < 8 ∧ 2 < 256 ∧ 2 / 32 = 0 ∧ rrS.dmaAnswer 0 NcUse.src = some (sxq, s1) ∧ (rrS.eng 0).cur = none ∧ (rrS.eng 0).xs = [dxs] ∧
      dxs.rdOut = [(sxq.id, 0, 64)] ∧ rrS.fcyc < (rrS.eng 0).wrAt) ∧
    (∃ s : State, ∃ r : NcReq, 0 < 8 ∧ 2 < 256 ∧ 2 / 32 = 0 ∧ s.dmaAnswer 0 NcUse.dst = some (r, takeS (s.ncTake 7)) ∧ r.agent = Agent.dma 2 ∧ (s.eng
      0).cur = none ∧ (s.eng 0).xs = [] ∧ (s.chan 2).ents = [en1] ∧ en1.wrs = [r.id] ∧ en1.last = true ∧ en1.reason = 0 ∧ r.status = 0 ∧ pkgOf
      (s.fget Fld.dmaChcplAddr 0 (2 % 32) * 64) = s.pkg) ∧
    (∃ s : State, ∃ r : NcReq, 0 < 8 ∧ 2 < 256 ∧ 2 / 32 = 0 ∧ s.dmaAnswer 0 NcUse.dst = some (r, takeS (s.ncTake 7)) ∧ r.agent = Agent.dma 2 ∧ (s.eng
      0).cur = none ∧ (s.eng 0).xs = [] ∧ (s.chan 2).ents = [en2] ∧ en2.wrs = [r.id] ∧ en2.last = false ∧ en2.reason = 0 ∧ r.status ≠ 0) := by
  refine ⟨?_, ?_, ?_, ⟨(deq 0x1081 0), (takeS (dar1.ncTake 4)), ?_⟩, ⟨(deq 0 (dvv 0x11)), (takeS (dar2.ncTake 4)), ?_⟩, ⟨(deq 0 (dvv 0x50001)),
    (takeS (dar3.ncTake 4)), ?_⟩, ⟨(deq 0 (dvv 0x50003)), (takeS (dar4.ncTake 4)), ?_⟩, ⟨(takeS (rrS.ncTake 7)), ?_⟩, ⟨(waS 0 en1), (wq 0), ?_⟩,
    ⟨(waS 0x1081 en2), (wq 0x1081), ?_⟩⟩
  all_goals decide +kernel

def hpS (h : Hpm) : State := baseK (fun k => { k with hpm := [(4, h)] })
def rtSamp : Retire := { ctx := 5, pc := 0x1000, addr := 0x2000, raw := 0x33, issued := 900, done := 903, flags := 0, prv := .m }
def smS (r : Option Retire) (n : Nat) : State := baseK (fun k => { k with smpDue := [(4, r)], sbuf := List.replicate n { pc := 0, addr := 0, insn := 0, ctx := 0, ctr := 0, lat := 0, event := 0, flags := 0, time := 0 } })
def rnS (l : List (Fld × Nat × Nat × Nat)) : State := withRegs (smS none 40) ([(.cdSmpringBase, 0, 0, 5), (.cdSmphdrHdr, 0, 0, 0x800), (.cdSmpringK, 0, 0, 6)] ++ l)
def rgv : W64 := BitVec.ofNat 64 (1 + 6 * 256 + 5 * 2 ^ 16)
def noP : State := (rnS []).fput ⟨.prtCore, 0, 1⟩ 0 0 0
def rdq (v : LineData) : NcReq := { id := 9, agent := .smp 0, use := .hdr, write := false, pa := 0x40040, len := 4, val := v, at_ := 600 }
def spO (e : Nat) : State := let s := (rnS [(.cdSmpringEn, 0, 0, e)]).modCore 0 (fun k => { k with spill := some { rd := some 9 }, smpPi := 60 }); { s with home := { s.home with ncDone := [rdq 50] } }
def akS (p : Spill) (e : Nat) (d : List NcReq) : State := let s := (rnS [(.cdSmpringEn, 0, 0, e)]).modCore 0 (fun k => { k with spill := some p }); { s with home := { s.home with ncDone := d } }
def bkS (i : Bool) : State := let s := (base.rput .pmuMcSel 3 1 (if i then 0x40000001 else 1)); { withRegs s [(.irtRouteEn, 421, 0, 1), (.irtRouteSent, 421, 0, 1)] with pmu := { banks := [(bankNo 1 3 1, { exceed := 1, prev := 3 })] } }
def bwS (m : Nat) : State := withRegs { base with pmu := { bwA := [(5, 77)], bwB := [(5, 88)], bwStart := [(5, 3)] } } [(.bwwCfgRun, 5, 0, 1), (.bwwCfgMbx, 5, 0, m), (.bwwCfgInterval, 5, 0, 600), (.bwwCfgPart, 5, 0, 0)]

/-- Each clause of `Obligations.CountersAndSamples` has a state and operands that meet its hypotheses. -/
theorem meets_CountersAndSamples :
    (∃ s : State, 0 < 240 ∧ ((s.core 0).hpmOf 4).count < 2 ^ 48) ∧
    (∃ s : State, 0 < 240 ∧ 2 ^ 48 ≤ ((s.core 0).hpmOf 4).count) ∧
    (∃ s : State, ∃ r : Option Retire, 0 < 240 ∧ (s.core 0).smpDue = [(4, r)] ∧ (s.core 0).sbuf.length < 64) ∧
    (∃ s : State, ∃ r : Option Retire, 0 < 240 ∧ (s.core 0).smpDue = [(4, r)] ∧ 64 ≤ (s.core 0).sbuf.length) ∧
    (∃ s : State, ∃ r : Option Retire, 0 < 240 ∧ (s.core 0).smpDue = [(4, r)]) ∧
    (∃ s : State, 0 < 240 ∧ s.fget Fld.cdSmpringEn (dieOf 0) (0 % 20) = 1 ∧ bit (1 : W64) 0 = true) ∧
    (∃ s : State, 0 < 240 ∧ s.fget Fld.cdSmpringEn (dieOf 0) (0 % 20) = 1 ∧ bit (0 : W64) 0 = false) ∧
    (∃ s : State, ∃ v : BitVec 64, ∃ r ∈ ((s.rwrite RegKind.cdSmpring (dieOf 0) (0 % 20) (setBit v 0 false)).smpReason 0), 0 < 240 ∧ s.fget
      Fld.cdSmpringEn (dieOf 0) (0 % 20) = 0 ∧ bit v 0 = true) ∧
    (∃ s : State, 0 < 240 ∧ s.fget Fld.cdSmpringEn (dieOf 0) (0 % 20) = 0 ∧ bit rgv 0 = true ∧ (s.rwrite RegKind.cdSmpring (dieOf 0) (0 % 20) (setBit
      rgv 0 false)).smpReason 0 = none ∧ pkgOf (s.smpHdr 0) = s.pkg) ∧
    (∃ s : State, 0 < 240 ∧ s.fget Fld.cdSmpringEn (dieOf 0) (0 % 20) = 0 ∧ bit rgv 0 = true ∧ (s.core 0).spill ≠ none) ∧
    (0 < 240 ∧ noP.fget Fld.cdSmpringEn (dieOf 0) (0 % 20) = 0 ∧ bit rgv 0 = true ∧ (noP.core 0).spill = none ∧ noP.corePart 0 = none) ∧
    (∃ s : State, ∃ v : BitVec 64, 0 < 240 ∧ s.fget Fld.cdSmpringEn (dieOf 0) (0 % 20) = 0 ∧ bit v 0 = true ∧ (s.core 0).spill = none ∧ s.corePart 0
      ≠ none ∧ (bits v 8 5 < 6 ∨ 20 < bits v 8 5)) ∧
    (∃ s : State, 0 < 240 ∧ (s.core 0).spill = none ∧ s.fget Fld.cdSmpringEn (dieOf 0) (0 % 20) = 1 ∧ (32 ≤ (s.core 0).sbuf.length ∨ 1 ≤ (s.core
      0).sbuf.length ∧ s.spillForCs3 0 = true) ∧ pkgOf (s.smpHdr 0 + 64) = s.pkg) ∧
    (∃ s : State, 0 < 240 ∧ (s.core 0).spill = none ∧ (s.fget Fld.cdSmpringEn (dieOf 0) (0 % 20) = 0 ∨ (s.core 0).sbuf.length < 32 ∧ s.spillForCs3 0
      = false)) ∧
    (∃ s : State, ∃ p : Spill, ∃ r : NcReq, 0 < 240 ∧ (s.core 0).spill = some p ∧ p.rd = some 9 ∧ s.home.ncDone = [r] ∧ r.id = 9 ∧ r.dram = false ∧
      r.at_ ≤ s.fcyc ∧ s.fget Fld.cdSmpringEn (dieOf 0) (0 % 20) = 0) ∧
    (∃ s : State, ∃ p : Spill, ∃ r : NcReq, 0 < 240 ∧ (s.core 0).spill = some p ∧ p.rd = some 9 ∧ s.home.ncDone = [r] ∧ r.id = 9 ∧ r.dram = false ∧
      r.at_ ≤ s.fcyc ∧ s.fget Fld.cdSmpringEn (dieOf 0) (0 % 20) = 1 ∧ (∀ (i : Nat), i < min ((if r.status = 0 then 2 ^ s.fget Fld.cdSmpringK (dieOf
      0) (0 % 20) - ((s.core 0).smpPi + 2 ^ 32 - bits r.val 0 32) % 2 ^ 32 else 0) / 2) (((s.core 0).sbuf.length + b2n (s.spillForCs3 0)) / 2) →
      pkgOf (s.smpBase 0 + ((s.core 0).smpPi + 2 * i) % 2 ^ s.fget Fld.cdSmpringK (dieOf 0) (0 % 20) * 32) = s.pkg)) ∧
    (∃ s : State, ∃ p : Spill, ∃ r : NcReq, 0 < 240 ∧ (s.core 0).spill = some p ∧ p.rd = none ∧ p.hdr = some 9 ∧ s.home.ncDone = [r] ∧ r.id = 9 ∧
      r.dram = false ∧ r.at_ ≤ s.fcyc) ∧
    (∃ s : State, ∃ p : Spill, 0 < 240 ∧ (s.core 0).spill = some p ∧ p.rd = none ∧ p.hdr = none ∧ (∀ (id : Nat), id ∈ p.wrs → ∃ r, r ∈ s.home.ncDone
      ∧ r.id = id ∧ r.dram = false ∧ r.at_ ≤ s.fcyc) ∧ s.fget Fld.cdSmpringEn (dieOf 0) (0 % 20) = 0) ∧
    (∃ s : State, ∃ p : Spill, 0 < 240 ∧ (s.core 0).spill = some p ∧ p.rd = none ∧ p.hdr = none ∧ (∀ (id : Nat), id ∈ p.wrs → ∃ r, r ∈ s.home.ncDone
      ∧ r.id = id ∧ r.dram = false ∧ r.at_ ≤ s.fcyc) ∧ s.fget Fld.cdSmpringEn (dieOf 0) (0 % 20) = 1 ∧ pkgOf (s.smpHdr 0) = s.pkg) ∧
    (∃ s : State, ∃ p : Spill, 0 < 240 ∧ (s.core 0).spill = some p ∧ p.rd = none ∧ 9 ∈ p.wrs ∧ p.hdr = none ∧ (∀ (r : NcReq), r ∈ s.home.ncDone →
      r.id ≠ 9)) := by
  refine ⟨⟨(hpS { count := 5 }), ?_⟩, ⟨(hpS { count := 2 ^ 48 + 3, sel := 0x5 }), ?_⟩, ⟨(smS (some rtSamp) 3), (some rtSamp), ?_⟩, ⟨(smS (some
    rtSamp) 64), (some rtSamp), ?_⟩, ⟨(smS none 64), none, ?_⟩, ⟨(rnS [(.cdSmpringEn, 0, 0, 1)]), ?_⟩, ⟨(rnS [(.cdSmpringEn, 0, 0, 1)]), ?_⟩, ⟨(rnS
    []), (1 + 5 * 256), ?_⟩, ⟨(rnS []), ?_⟩, ⟨((rnS []).modCore 0 (fun k => { k with spill := some {} })), ?_⟩, ?_, ⟨(rnS []), (1 + 21 * 256), ?_⟩,
    ⟨(rnS [(.cdSmpringEn, 0, 0, 1)]), ?_⟩, ⟨(rnS []), ?_⟩, ⟨(spO 0), { rd := some 9 }, (rdq 50), ?_⟩, ⟨(spO 1), { rd := some 9 }, (rdq 50), ?_⟩,
    ⟨(akS { hdr := some 9 } 1 [rdq 0]), { hdr := some 9 }, (rdq 0), ?_⟩, ⟨(akS { wrs := [9] } 0 [rdq 0]), { wrs := [9] }, ?_⟩, ⟨(akS { wrs := [9] } 1
    [rdq 0]), { wrs := [9] }, ?_⟩, ⟨(akS { wrs := [9] } 1 []), { wrs := [9] }, ?_⟩⟩
  all_goals decide +kernel

/-- Each clause of `Obligations.BlockCountersAndWindows` has a state and operands that meet its hypotheses. -/
theorem meets_BlockCountersAndWindows :
    (1 < 5 ∧ (Tab.get { : Bank } base.pmu.banks (bankNo 1 3 1)).exceed = 0) ∧
    (∃ s : State, 1 < 5 ∧ 0 < (Tab.get { : Bank } s.pmu.banks (bankNo 1 3 1)).exceed ∧ bit (s.rget (pmuKinds 1).fst 3 1) 30 = false) ∧
    (∃ s : State, 1 < 5 ∧ 0 < (Tab.get { : Bank } s.pmu.banks (bankNo 1 3 1)).exceed ∧ bit (s.rget (pmuKinds 1).fst 3 1) 30 = true ∧ s.fget
      Fld.irtRouteEn (420 + 1) = 1 ∧ s.fget Fld.irtRouteSent (420 + 1) = 1) ∧
    (5 < 32 ∧ (base.fget Fld.bwwCfgRun 5 = 0 ∨ base.fcyc < Tab.get 0 base.pmu.bwStart 5 + base.fget Fld.bwwCfgInterval 5)) ∧
    (∃ s : State, 5 < 32 ∧ s.fget Fld.bwwCfgRun 5 = 1 ∧ Tab.get 0 s.pmu.bwStart 5 + s.fget Fld.bwwCfgInterval 5 ≤ s.fcyc) := by
  refine ⟨?_, ⟨(bkS false), ?_⟩, ⟨(bkS true), ?_⟩, ?_, ⟨(bwS 0), ?_⟩⟩
  all_goals decide +kernel

def relS (l : List (Fld × Nat × Nat × Nat)) (p : RPort) : State :=
  { withRegs base ([(.reelStatState, 3, 0, 2), (.reelStatPeer, 3, 0, 1), (.reelStatPeerv, 3, 0, 1), (.reelSysMembers, 0, 0, 3), (.reelSysFormed, 0, 0, 1)] ++ l) with reel := { ({} : Reel) with ports := [(3, p)] } }
def mRd (part : Nat) : RMsg := { op := .rdS, m := { kind := .rdS, line := 0x80, part := part } }
def cl (part : Nat) : Cell := { cls := 1, start := true, phase := 0, idx := 0, msg := mRd part }
def mWb : RMsg := { op := .wb, m := { kind := .rdS, line := 0x80, part := 0 } }
def cw (i : Nat) : Cell := { cls := 4, start := i == 0, phase := 0, idx := i, msg := mWb }
def ct : Cell := { cls := 6, start := true, phase := 1, idx := 0, msg := { op := .tsync } }
def fl (n : Nat) (c : List Cell) : Flit := { fseq := n, ackSeq := 0, cmd := 0, null := c.isEmpty, crCls := 0, crCnt := 0, cells := c }

/-- Each clause of `Obligations.ReelFlits` has a state and operands that meet its hypotheses. -/
theorem meets_ReelFlits :
    ((base.linkUp 3 = false ∨ base.fcyc < (base.rport 3).nextTx)) ∧
    (∃ s : State, s.linkUp 3 = true ∧ (s.rport 3).nextTx ≤ s.fcyc) ∧
    (∃ s : State, s.linkUp 3 = true ∧ (s.rport 3).nextTx ≤ s.fcyc ∧ (s.rport 3).resend = [fl 9 [cl 0], fl 10 []]) ∧
    (∃ s : State, s.linkUp 3 = true ∧ (s.rport 3).nextTx ≤ s.fcyc ∧ (s.rport 3).resend = [] ∧ ((s.rport 3).txq = [] ∨ 128 ≤ (s.rport
      3).retry.length)) ∧
    (∃ s : State, ∃ c : Cell, s.linkUp 3 = true ∧ (s.rport 3).nextTx ≤ s.fcyc ∧ (s.rport 3).resend = [] ∧ (s.rport 3).txq = [c] ∧ (s.rport
      3).retry.length < 128 ∧ ((s.rport 3).mayTake c = false ∨ ∃ o, s.flitOwner 3 ((s.rport 3).flits % 64) = some o ∧ cellOwner c ≠ some o)) ∧
    (∃ s : State, ∃ c : Cell, s.linkUp 3 = true ∧ (s.rport 3).nextTx ≤ s.fcyc ∧ (s.rport 3).resend = [] ∧ (s.rport 3).txq = [c] ∧ (s.rport
      3).retry.length < 128 ∧ (s.rport 3).mayTake c = true ∧ ((∃ o, s.flitOwner 3 ((s.rport 3).flits % 64) = some o ∧ cellOwner c = some o) ∨
      s.flitOwner 3 ((s.rport 3).flits % 64) = none ∧ (c.cls = 6 ∧ cellOwner c = none ∨ ∃ q, q < 64 ∧ cellOwner c = some q ∧ s.isot q = false))) ∧
    (base.linkUp 3 = false) ∧
    (∃ s : State, s.linkUp 3 = true) ∧
    (∃ s : State, ∃ f : Flit, s.linkUp 3 = true ∧ FlitRx.intact ≠ FlitRx.crcFail ∧ f.null = false ∧ f.fseq ≠ (s.rport 3).rxSeq) ∧
    (∃ s : State, ∃ f : Flit, s.linkUp 3 = true ∧ f.null = true ∧ f.cells = [] ∧ (s.rport 3).resends < 3 ∧ (f.cmd = 0 ∨ f.cmd = 1)) ∧
    (∃ s : State, ∃ f : Flit, s.linkUp 3 = true ∧ f.null = true ∧ f.cells = [] ∧ f.cmd = 1 ∧ (s.rport 3).resends = 3 ∧ (∀ (x : Flit), x ∈ (s.rport
      3).retry → 512 ≤ (f.ackSeq + 1024 - x.fseq) % 1024)) ∧
    (∃ s : State, ∃ f : Flit, ∃ c : Cell, s.linkUp 3 = true ∧ f.null = false ∧ f.fseq = (s.rport 3).rxSeq ∧ f.cmd = 0 ∧ f.cells = [c] ∧ opQueued
      c.msg.op = true ∧ (rmsgShape c.msg).snd = c.idx + 1 ∧ (s.rport 3).resends < 4 ∧ s.reel.rx = []) ∧
    (∃ s : State, ∃ f : Flit, ∃ c : Cell, s.linkUp 3 = true ∧ f.null = false ∧ f.fseq = (s.rport 3).rxSeq ∧ f.cmd = 0 ∧ f.cells = [c] ∧ c.idx + 1 <
      (rmsgShape c.msg).snd ∧ (s.rport 3).resends < 4) ∧
    (∃ s : State, s.fget Fld.reelStatState 3 = 2 ∧ (s.rport 3).lastGood + 1024 ≤ s.fcyc) ∧
    (∃ s : State, (s.fget Fld.reelStatState 3 ≠ 2 ∨ s.fcyc < (s.rport 3).lastGood + 1024)) ∧
    (∃ s : State, s.fget Fld.reelStatState 3 = 3 ∧ s.now < (s.rport 3).retrainEnd) := by
  refine ⟨?_, ⟨(relS [] {}), ?_⟩, ⟨((relS [] { resend := [fl 9 [cl 0], fl 10 []], retry := [fl 9 [cl 0]], txSeq := 44 })), ?_⟩, ⟨(relS [] { txSeq := 44 }),
    ?_⟩, ⟨(relS [] { txSeq := 44, txq := [cl 0], used := [(1, 256)] }), (cl 0), ?_⟩, ⟨((relS [] { txSeq := 1023, txq := [cl 5], used := [(1, 255)] }).rput
    .reelWheel 3 0 0x45), (cl 5), ?_⟩, ?_, ⟨(relS [] {}), ?_⟩, ⟨(relS [] {}), (fl 3 [cl 0]), ?_⟩, ⟨(relS [] { retry := [fl 8 [cl 0], fl 9 [cl 0], fl 10 [cl 0]], resends := 2, resend := [fl 9 [cl 0]] }),
    { fl 0 [] with ackSeq := 9, cmd := 1 }, ?_⟩, ⟨(relS [] { retry := [fl 1 [cl 0]], resends := 3, nextTx := 3 }), { fl 0 [] with ackSeq := 0, cmd := 1 },
    ?_⟩, ⟨(relS [] { rxSeq := 1023 }), (fl 1023 [cl 0]), (cl 0), ?_⟩, ⟨(relS [] { rxSeq := 3, rxpart := [(2, cw 0)], resends := 3 }), (fl 3 [cw 1]),
    (cw 1), ?_⟩, ⟨{ relS [] { lastGood := 0, resends := 2 } with now := 1639 }, ?_⟩, ⟨{ relS [] { lastGood := 0, resends := 2 } with now := 1637 },
    ?_⟩, ⟨(relS [(.reelStatState, 3, 0, 3), (.reelErrRetrain, 3, 0, 255)] { retrainEnd := 1001, retry := [fl 3 [cl 0]] }), ?_⟩⟩
  all_goals decide +kernel

def relB (l : List (Fld × Nat × Nat × Nat)) (p3 p4 : RPort) : State :=
  let s := withRegs base ([(.reelStatState, 3, 0, 2), (.reelStatPeer, 3, 0, 1), (.reelStatPeerv, 3, 0, 1), (.reelStatState, 4, 0, 2), (.reelStatPeer, 4, 0, 1), (.reelStatPeerv, 4, 0, 1), (.reelSysMembers, 0, 0, 3), (.reelSysFormed, 0, 0, 1)] ++ l)
  { s with reel := { ({} : Reel) with ports := [(3, p3), (4, p4)] } }
def relC (s : State) (x : List RRx) : State := { s with reel := { s.reel with rx := x } }
def rsy : RMsg := { op := .resync, src := 1, ctl := 5 }
def rak (fs : List Nat) : RMsg := { op := .resyncAck, src := 1, ctl := resyncAckCtl 3 fs }
def relQ (l : List (Fld × Nat × Nat × Nat)) (p3 p4 : RPort) : State := let s := relB l p3 p4; { s with reel := { s.reel with quiesce := [1, 2] } }
def rt (l : List (Fld × Nat × Nat × Nat)) (p : RPort) : State := { withRegs base ([(.reelStatState, 3, 0, 1)] ++ l) with reel := { ({} : Reel) with ports := [(3, p)] } }
def hc (set v pk slot boot : Nat) : BitVec 96 := BitVec.ofNat 96 (pk + 8 * boot + 16 * slot + 256 * set + 2^24 * v)
def rh (l : List (Fld × Nat × Nat × Nat)) (c : BitVec 96) : State := relC (rt l { stage := 4 }) [{ port := 3, at_ := 600, msg := { op := .hello, src := 1, ctl := c } }]
def f0 : Nat := bits (base.ioFuses.getD 0 0) 8 16
def fo (l : List (Fld × Nat × Nat × Nat)) (rep : List (Nat × Nat)) (ps : List (Nat × RPort)) : State :=
  let s := withRegs base ([(.glbBootstatStage, 0, 0, 7), (.reelStatState, 3, 0, 2), (.reelStatPeer, 3, 0, 1), (.reelStatPeerv, 3, 0, 1)] ++ l); { s with reel := { ({} : Reel) with reports := rep, ports := ps } }
def ts (l : List (Fld × Nat × Nat × Nat)) : State := withRegs base ([(.reelSysFormed, 0, 0, 1), (.reelSysMembers, 0, 0, 3), (.reelStatState, 3, 0, 2), (.reelStatPeer, 3, 0, 1), (.reelStatPeerv, 3, 0, 1)] ++ l)
def tm (f : Nat) (src : Nat) (t : Nat) : State := relC { ts [(.reelSysLead, 0, 0, 1)] with tb := BitVec.ofNat 64 t } [{ port := 3, at_ := 600, msg := { op := .tsync, src := src, ctl := BitVec.ofNat 96 f } }]

/-- Each clause of `Obligations.ReelBundles` has a state and operands that meet its hypotheses. -/
theorem meets_ReelBundles :
    (∃ s : State, 3 < 10 ∧ 4 < 10 ∧ 4 ≠ 3 ∧ s.fget Fld.reelStatState 3 = 3 ∧ (s.rport 3).retrainEnd ≤ s.now ∧ 1 = s.fget Fld.reelStatPeer 3 ∧
      (s.rport 3).cmd = none ∧ s.fget Fld.reelStatPeerv 3 = 1 ∧ (∀ (x : Nat), x < 10 → x ≠ 3 → (x ∈ s.bundle 1 ↔ x = 4)) ∧ s.kiln.log.length <
      0x1000) ∧
    (∃ s : State, (s.fget Fld.reelStatState 3 ≠ 3 ∨ s.now < (s.rport 3).retrainEnd)) ∧
    (∃ s : State, ∃ x ∈ (s.reelCtl fun x => x.msg.op == ReelOp.resync && x.msg.src == 1 && decide (bits x.msg.ctl 0 4 = 5)), x.msg.src = 1 ∧ 3 < 10 ∧
      4 < 10 ∧ 4 ≠ 3 ∧ s.fget Fld.reelStatPeerv 3 = 1 ∧ s.fget Fld.reelStatPeer 3 = 1 ∧ s.fget Fld.reelStatPslot 3 = 5 ∧ s.fget Fld.reelStatState 3 =
      2 ∧ (s.rport 3).cmd = none ∧ (s.rport 3).txq = [] ∧ (∀ (y : Nat), y < 10 → y ≠ 3 → (y ∈ s.bundle 1 ↔ y = 4) ∧ ¬(s.fget Fld.reelStatPeerv y = 1
      ∧ s.fget Fld.reelStatPeer y = 1 ∧ s.fget Fld.reelStatPslot y = 5))) ∧
    (∃ s : State, ∃ fs : List Nat, ∃ x ∈ (s.reelCtl fun x => x.msg.op == ReelOp.resyncAck && x.msg.src == 1 && x.msg.ctl == resyncAckCtl 3 fs), 3 <
      10 ∧ 4 ≠ 3 ∧ x.port ≠ 3 ∧ (s.rport 3).resyncWait = false) ∧
    (∃ s : State, ∃ fs : List Nat, ∃ x ∈ (s.reelCtl fun x => x.msg.op == ReelOp.resyncAck && x.msg.src == 1 && x.msg.ctl == resyncAckCtl 3 fs), 3 <
      10 ∧ 4 ≠ 3 ∧ x.port ≠ 3 ∧ (s.rport 3).resyncWait = true ∧ (∀ (k : Nat), k < 10 → k ≠ 3 → (s.rport k).resyncWait = false) ∧ s.bundle 1 = [4] ∧
      s.reel.held = [] ∧ (∀ (e : Nat × Nat × RMsg), e ∈ (s.rport 3).sentStart → e.fst = 1 ∧ (e.snd.fst + 1024 - fs.getD 0 0) % 1024 < 512 ∧
      (rmsgShape e.snd.snd).fst = 1) ∧ (∀ (c : Cell), c ∈ (s.rport 3).txq → c.start = false)) ∧
    (∃ s : State, ¬1 ∈ s.reel.quiesce) ∧
    (∃ s : State, 3 < 10 ∧ 4 < 10 ∧ 4 ≠ 3 ∧ 1 ∈ s.reel.quiesce ∧ s.reel.held = [] ∧ s.fget Fld.reelStatPeerv 3 = 1 ∧ s.fget Fld.reelStatPeer 3 = 1 ∧
      (∀ (x : Nat), x < 10 → x ≠ 3 → x ≠ 4 → s.fget Fld.reelStatPeerv x = 0 ∨ s.fget Fld.reelStatPeer x ≠ 1) ∧ s.fget Fld.reelStatState 4 = 2 ∧
      (s.rport 4).retry = [] ∧ (s.rport 4).txq = [] ∧ (s.rport 4).resyncWait = false ∧ (s.rport 3).resyncWait = false ∧ (s.rport 4).joining = false ∧
      (s.rport 4).draining = false ∧ (s.rport 3).cmd = none ∧ s.fget Fld.reelStatState 3 = 1 ∧ (s.rport 3).joining = true ∧ (s.rport 3).draining =
      false) ∧
    (∃ s : State, 3 < 10 ∧ 4 < 10 ∧ 4 ≠ 3 ∧ 1 ∈ s.reel.quiesce ∧ s.reel.held = [] ∧ s.fget Fld.reelStatPeerv 3 = 1 ∧ s.fget Fld.reelStatPeer 3 = 1 ∧
      (∀ (x : Nat), x < 10 → x ≠ 3 → x ≠ 4 → s.fget Fld.reelStatPeerv x = 0 ∨ s.fget Fld.reelStatPeer x ≠ 1) ∧ s.fget Fld.reelStatState 4 = 2 ∧
      (s.rport 4).retry = [] ∧ (s.rport 4).txq = [] ∧ (s.rport 4).resyncWait = false ∧ (s.rport 3).resyncWait = false ∧ (s.rport 4).joining = false ∧
      (s.rport 4).draining = false ∧ (s.rport 3).cmd = none ∧ s.fget Fld.reelStatState 3 = 2 ∧ (s.rport 3).draining = true ∧ (s.rport 3).joining =
      false ∧ (s.rport 3).retry = [] ∧ (s.rport 3).txq = []) ∧
    (∃ s : State, 3 < 10 ∧ 4 < 10 ∧ 4 ≠ 3 ∧ 1 ∈ s.reel.quiesce ∧ s.reel.held = [] ∧ s.fget Fld.reelStatPeerv 3 = 1 ∧ s.fget Fld.reelStatPeer 3 = 1 ∧
      (∀ (x : Nat), x < 10 → x ≠ 3 → x ≠ 4 → s.fget Fld.reelStatPeerv x = 0 ∨ s.fget Fld.reelStatPeer x ≠ 1) ∧ s.fget Fld.reelStatState 4 = 2 ∧
      (s.rport 4).retry = [] ∧ (s.rport 4).txq = [] ∧ (s.rport 4).resyncWait = false ∧ (s.rport 3).resyncWait = false ∧ (s.rport 4).joining = false ∧
      (s.rport 4).draining = false ∧ (s.rport 3).cmd = none ∧ s.fget Fld.reelStatState 3 = 2 ∧ (s.rport 3).retry ≠ []) := by
  refine ⟨⟨(relB [(.reelStatState, 3, 0, 3)] { retrainEnd := 1000 } { txq := [cl 0] }), ?_⟩, ⟨(relB [] { retrainEnd := 1000 } {}), ?_⟩, ⟨(relC (relB
    [(.reelStatPslot, 3, 0, 5)] { rxSeq := 44 } {}) [{ port := 4, at_ := 600, msg := rsy }]), ?_⟩, ⟨(relC (relB [] {} {}) [{ port := 4, at_ := 600, msg := rak [3,4] }]),
    [3,4], ?_⟩, ⟨(let s := relC (relB [(.reelStatState, 3, 0, 4)] { resyncWait := true, retry := [fl 3 [cl 0]], txq := [cw 3, cw 4], sentStart := [(1, 3, mRd 0), (1, 4, mRd 2)] } {}) [{ port := 4, at_ := 600, msg := rak [3,4] }]; { s with reel := { s.reel with quiesce := [1] } }),
    [3,4], ?_⟩, ⟨(relB [] {} {}), ?_⟩, ⟨(relQ [(.reelStatState, 3, 0, 1)] { joining := true } {}), ?_⟩, ⟨(relQ [] { draining := true } {}), ?_⟩,
    ⟨(relQ [] { draining := true, retry := [fl 3 [cl 0]] } {}), ?_⟩⟩
  · decide +kernel
  · decide +kernel
  · exact ⟨{ port := 4, at_ := 600, msg := rsy }, by decide +kernel, by ((repeat' apply And.intro) <;> first | decide +kernel | exact fun _ => rfl | (intro q h; cases h))⟩
  · decide +kernel
  · decide +kernel
  · decide +kernel
  · decide +kernel
  · decide +kernel
  · decide +kernel

/-- Each clause of `Obligations.ReelTrainingAndFormation` has a state and operands that meet its hypotheses. -/
theorem meets_ReelTrainingAndFormation :
    (∃ s : State, 3 < 10 ∧ (s.fget Fld.reelStatState 3 ≠ 1 ∨ (s.rport 3).stage ≠ 1)) ∧
    (∃ s : State, 3 < 10 ∧ s.fget Fld.reelStatState 3 = 1 ∧ (s.rport 3).stage = 1) ∧
    (∃ s : State, 3 < 10 ∧ s.fget Fld.reelStatState 3 = 1 ∧ (s.rport 3).stage = 2) ∧
    (∃ s : State, 3 < 10 ∧ s.fget Fld.reelStatState 3 = 1 ∧ (s.rport 3).stage = 3 ∧ 4 ≤ 16 ∧ 16 ≤ 16) ∧
    (∃ s : State, 3 < 10 ∧ s.fget Fld.reelStatState 3 = 1 ∧ (1, rLinkPeerAbsent) ∈ [(1, rLinkPeerAbsent), (2, rLinkTrainFailed), (3, rLinkTooLong),
      (4, rLinkPeerAbsent), (5, rLinkPeerAbsent)] ∧ (s.rport 3).stage = 1 ∧ (TrainRes.fail = TrainRes.fail ∨ 1 = 3 ∧ 16 < 4) ∧ (s.rport 3).cmd = none
      ∧ (s.forming = false ∨ ∃ j, j < 10 ∧ j ≠ 3 ∧ s.fget Fld.reelStatState j = 1)) ∧
    (∃ s : State, ∃ ctl : BitVec 96, ∃ x ∈ (s.reelCtl fun x => x.msg.op == ReelOp.hello && x.port == 3 && x.msg.ctl == ctl), 3 < 10 ∧ s.fget
      Fld.reelStatState 3 = 1 ∧ (s.rport 3).stage = 4 ∧ (s.forming = false ∨ ∃ j, j < 10 ∧ j ≠ 3 ∧ s.fget Fld.reelStatState j = 1) ∧ (bits ctl 8 16 ≠
      bits (s.ioFuses.getD 0 0) 8 16 ∨ bits ctl 24 8 ≠ 1)) ∧
    (∃ s : State, ∃ ctl : BitVec 96, ∃ x ∈ (s.reelCtl fun x => x.msg.op == ReelOp.hello && x.port == 3 && x.msg.ctl == ctl), 3 < 10 ∧ s.fget
      Fld.reelStatState 3 = 1 ∧ (s.rport 3).stage = 4 ∧ (s.forming = false ∨ ∃ j, j < 10 ∧ j ≠ 3 ∧ s.fget Fld.reelStatState j = 1) ∧ bits ctl 8 16 =
      bits (s.ioFuses.getD 0 0) 8 16 ∧ bits ctl 24 8 = 1 ∧ bits ctl 0 3 = s.pkg) ∧
    (∃ s : State, ∃ ctl : BitVec 96, ∃ x ∈ (s.reelCtl fun x => x.msg.op == ReelOp.hello && x.port == 3 && x.msg.ctl == ctl), 3 < 10 ∧ s.fget
      Fld.reelStatState 3 = 1 ∧ (s.rport 3).stage = 4 ∧ (s.forming = false ∨ ∃ j, j < 10 ∧ j ≠ 3 ∧ s.fget Fld.reelStatState j = 1) ∧ s.helloReason 3
      ctl = none) ∧
    (∃ s : State, ∃ ctl : BitVec 96, ∃ x ∈ (s.reelCtl fun x => x.msg.op == ReelOp.hello && x.port == 3 && x.msg.ctl == ctl), 3 < 10 ∧ s.fget
      Fld.reelStatState 3 = 1 ∧ (s.rport 3).stage = 4 ∧ (s.forming = false ∨ ∃ j, j < 10 ∧ j ≠ 3 ∧ s.fget Fld.reelStatState j = 1) ∧ s.helloReason 3
      ctl = some rLinkIdConflict ∧ (s.rport 3).cmd = none) ∧
    (∃ s : State, ∃ ctl : BitVec 96, ∃ x ∈ (s.reelCtl fun x => x.msg.op == ReelOp.hello && x.port == 3 && x.msg.ctl == ctl), 3 < 10 ∧ s.fget
      Fld.reelStatState 3 = 1 ∧ (s.rport 3).stage = 4 ∧ (s.forming = false ∨ ∃ j, j < 10 ∧ j ≠ 3 ∧ s.fget Fld.reelStatState j = 1) ∧ s.helloReason 3
      ctl = none ∧ s.fget Fld.reelSysFormed = 0) ∧
    (∃ s : State, ∃ ctl : BitVec 96, ∃ x ∈ (s.reelCtl fun x => x.msg.op == ReelOp.hello && x.port == 3 && x.msg.ctl == ctl), 3 < 10 ∧ s.fget
      Fld.reelStatState 3 = 1 ∧ (s.rport 3).stage = 4 ∧ (s.forming = false ∨ ∃ j, j < 10 ∧ j ≠ 3 ∧ s.fget Fld.reelStatState j = 1) ∧ s.helloReason 3
      ctl = none ∧ s.fget Fld.reelSysFormed = 1) ∧
    (3 < 10 ∧ (base.forming = false ∨ base.now < base.reel.formBy)) ∧
    (∃ s : State, 3 < 10 ∧ s.forming = true ∧ s.reel.formBy ≤ s.now ∧ s.oneLead ≠ some s.pkg) ∧
    (∃ s : State, 5 < 10 ∧ s.forming = true ∧ s.reel.formBy ≤ s.now ∧ s.oneLead = some s.pkg ∧ 1 < 8 ∧ 1 ≠ s.pkg ∧ s.reel.reports = [(1, 1)] ∧
      topologyOk [(s.pkg, s.linkCounts), (1, 1)] = true) ∧
    (5 < 10 ∧ (base.fget Fld.reelSysFormed = 0 ∨ base.fget Fld.reelSysLead ≠ base.pkg ∨ base.fcyc < base.reel.tsyncNext)) ∧
    (∃ s : State, 5 < 10 ∧ s.fget Fld.reelSysFormed = 1 ∧ s.fget Fld.reelSysLead = s.pkg ∧ s.reel.tsyncNext ≤ s.fcyc ∧ 1 < 8 ∧ 1 ≠ s.pkg ∧ s.bundle 1
      = [3] ∧ ¬1 ∈ s.reel.quiesce ∧ (∀ (r : Nat), r < 8 → r ≠ s.pkg → (s.member r = true ↔ r = 1))) ∧
    (∃ s : State, ∃ x ∈ (s.reelCtl fun x => x.msg.op == ReelOp.tsync && x.port == 3 && decide (x.msg.ctl.toNat = 100)), 3 < 10 ∧ x.msg.src ≠ s.fget
      Fld.reelSysLead) ∧
    (∃ s : State, ∃ x ∈ (s.reelCtl fun x => x.msg.op == ReelOp.tsync && x.port == 3 && decide (x.msg.ctl.toNat = 120)), 3 < 10 ∧ x.msg.src = s.fget
      Fld.reelSysLead ∧ ((s.fTime : Int) - (s.crossing 3 : Int) - 120).natAbs ≤ 8) ∧
    (∃ s : State, ∃ x ∈ (s.reelCtl fun x => x.msg.op == ReelOp.tsync && x.port == 3 && decide (x.msg.ctl.toNat = 137)), 3 < 10 ∧ x.msg.src = s.fget
      Fld.reelSysLead ∧ 8 < ((s.fTime : Int) - (s.crossing 3 : Int) - 137).natAbs ∧ s.kiln.log = []) := by
  refine ⟨⟨(rt [] { stage := 2 }), ?_⟩, ⟨(rt [] { stage := 1 }), ?_⟩, ⟨(rt [] { stage := 2 }), ?_⟩, ⟨(rt [(.glbStrapsBootPkg, 0, 0, 1)] { stage := 3 }),
    ?_⟩, ⟨(rt [] { stage := 1 }), ?_⟩, ⟨(rh [] (hc (f0+1) 1 1 7 0)), (hc (f0+1) 1 1 7 0), ?_⟩, ⟨(rh [] (hc f0 1 0 7 0)), (hc f0 1 0 7 0), ?_⟩, ⟨(rh
    [] (hc f0 1 1 7 0)), (hc f0 1 1 7 0), ?_⟩, ⟨(rh [] (hc f0 1 0 7 0)), (hc f0 1 0 7 0), ?_⟩, ⟨(rh [] (hc f0 1 1 7 1)), (hc f0 1 1 7 1), ?_⟩, ⟨(rh
    [(.reelSysFormed, 0, 0, 1), (.reelSysMembers, 0, 0, 3), (.reelStatState, 4, 0, 2), (.reelStatPeer, 4, 0, 1), (.reelStatPeerv, 4, 0, 1)] (hc f0 1
    1 7 1)), (hc f0 1 1 7 1), ?_⟩, ?_, ⟨(fo [] [] []), ?_⟩, ⟨(fo [(.glbStrapsBootPkg, 0, 0, 1)] [(1, 1)] []), ?_⟩, ?_, ⟨(ts []), ?_⟩, ⟨(tm 100 2 10),
    ?_⟩, ⟨(tm 120 1 10), ?_⟩, ⟨(tm 137 1 10), ?_⟩⟩
  all_goals decide +kernel

def mb (l : List (Fld × Nat × Nat × Nat)) (told : List KRelay) : State :=
  let s := withRegs base ([(.prtCtlState, 0, 0, 0), (.reelSysFormed, 0, 0, 1), (.reelSysMembers, 0, 0, 7), (.reelStatState, 3, 0, 2), (.reelStatPeer, 3, 0, 1), (.reelStatPeerv, 3, 0, 1), (.reelStatState, 4, 0, 2), (.reelStatPeer, 4, 0, 2), (.reelStatPeerv, 4, 0, 1)] ++ l)
  { s with reel := { s.reel with told := told } }
def mw (l : List (Fld × Nat × Nat × Nat)) (n : Option Nat) (ls : Option (Nat × Nat)) : State := let s := mb l []; { s with reel := { s.reel with deputyWait := n, lossSent := ls } }
def ke (op k : Nat) (l : List (Fld × Nat × Nat × Nat)) (p : RPort) (m : W64) : State :=
  let s := cmdS op [BitVec.ofNat 64 k] (mb l []); { s with reel := { s.reel with ports := [(3, p)] }, kiln := { s.kiln with cfg := { s.kiln.cfg with reelMask := m.setWidth _ } } }
def nx (r : RMsg) : State := relC (relS [] {}) [{ port := 3, at_ := 600, msg := r }]
def nq (op : ReelOp) : RMsg := { op := op, src := 1, len := 8, m := { kind := .long, line := 0x80, arg := 0x88, tag := 5, slice := 8, data := 77, poison := true } }
def nd (w : Bool) : State := let s := nx (nq .nccpl); { s with home := { s.home with ncDone := [{ id := 5, agent := .smp 0, use := .hdr, write := w, pa := 0x40040, len := 8, val := 99, at_ := 600, dram := true }] } }
def np (pa : Nat) : NcReq := { id := 7, agent := .peer (1 + 8 * 44), write := false, pa := pa, len := 8, at_ := 600 }
def nr (pa : Nat) (m : Tab Msc) : State := let s := homeB m [] [] []; { withRegs s [(.reelStatState, 3, 0, 2), (.reelStatPeer, 3, 0, 1), (.reelStatPeerv, 3, 0, 1), (.reelSysMembers, 0, 0, 3)] with home := { s.home with ncq := [np pa] } }
def nb : State := (nr 0x2008 [(0x80, mscA)]).fput .mcCfgUp 8 0 0

/-- Each clause of `Obligations.ReelMembership` has a state and operands that meet its hypotheses. -/
theorem meets_ReelMembership :
    (∃ s : State, QuietAbout s 1 ∧ KRelay.expel 1 ∈ s.reel.told) ∧
    (∃ s : State, ¬KRelay.expel 2 ∈ s.reel.told) ∧
    (∃ s : State, ¬KRelay.loss 2 1 ∈ s.reel.told) ∧
    (∃ s : State, KRelay.loss 2 1 ∈ s.reel.told ∧ s.lost 2 = false ∧ s.lost 1 = false ∧ s.fget Fld.reelSysLead = s.pkg ∧ (2 = if 1 = s.pkg then 2
      else max 2 1) ∧ QuietAbout s 2) ∧
    (∃ s : State, KRelay.loss 2 1 ∈ s.reel.told ∧ s.lost 2 = false ∧ s.lost 1 = false ∧ s.fget Fld.reelSysLead ≠ s.pkg ∧ 1 = s.fget Fld.reelSysLead ∧
      s.deputy = some s.pkg ∧ s.bundle 1 ≠ []) ∧
    (∃ s : State, KRelay.loss 1 2 ∈ s.reel.told ∧ (s.lost 1 = true ∨ s.lost 2 = true)) ∧
    (∃ s : State, ∃ n ∈ (s.reel.deputyWait), s.now < n) ∧
    (∃ s : State, ∃ n ∈ (s.reel.deputyWait), n ≤ s.now ∧ 1 = s.fget Fld.reelSysLead ∧ QuietAbout s 1) ∧
    (∃ s : State, s.reel.lossSent = some (1, 4) ∧ s.now < 4 + 3200000) ∧
    (∃ s : State, s.reel.lossSent = some (1, 4) ∧ 4 + 3200000 ≤ s.now ∧ QuietAbout s 1 ∧ (∀ (r : Nat), r < 8 → r ≠ s.pkg → r ≠ 1 → s.member r =
      false)) ∧
    (∃ s : State, ∃ c ∈ (s.kready 1 1027), (10 ≤ bits (c.p 0) 0 4 ∨ bit s.kiln.cfg.reelMask (bits (c.p 0) 0 4) = false)) ∧
    (∃ s : State, ∃ c ∈ (s.kready 1 1027), bits (c.p 0) 0 4 < 10 ∧ bit s.kiln.cfg.reelMask (bits (c.p 0) 0 4) = true ∧ s.fget Fld.reelSysFormed = 0) ∧
    (∃ s : State, ∃ c ∈ (s.kready 1 1027), bits (c.p 0) 0 4 < 10 ∧ bit s.kiln.cfg.reelMask (bits (c.p 0) 0 4) = true ∧ s.fget Fld.reelSysFormed = 1 ∧
      (s.rport (bits (c.p 0) 0 4)).draining = true) ∧
    (∃ s : State, ∃ c ∈ (s.kready 1 1027), bits (c.p 0) 0 4 < 10 ∧ bit s.kiln.cfg.reelMask (bits (c.p 0) 0 4) = true ∧ s.fget Fld.reelSysFormed = 1 ∧
      (s.rport (bits (c.p 0) 0 4)).draining = false ∧ (s.fget Fld.reelStatState (bits (c.p 0) 0 4) = 2 ∨ s.fget Fld.reelStatState (bits (c.p 0) 0 4)
      = 3)) ∧
    (∃ s : State, ∃ c ∈ (s.kready 1 1027), bits (c.p 0) 0 4 < 10 ∧ bit s.kiln.cfg.reelMask (bits (c.p 0) 0 4) = true ∧ s.fget Fld.reelSysFormed = 1 ∧
      (s.rport (bits (c.p 0) 0 4)).draining = false ∧ s.fget Fld.reelStatState (bits (c.p 0) 0 4) ≠ 2 ∧ s.fget Fld.reelStatState (bits (c.p 0) 0 4) ≠
      3 ∧ s.fget Fld.reelStatPeerv (bits (c.p 0) 0 4) = 1 ∧ s.lost (s.fget Fld.reelStatPeer (bits (c.p 0) 0 4)) = true) ∧
    (∃ s : State, ∃ c ∈ (s.kready 1 1027), bits (c.p 0) 0 4 < 10 ∧ bit s.kiln.cfg.reelMask (bits (c.p 0) 0 4) = true ∧ s.fget Fld.reelSysFormed = 1 ∧
      (s.rport (bits (c.p 0) 0 4)).draining = false ∧ s.fget Fld.reelStatState (bits (c.p 0) 0 4) ≠ 2 ∧ s.fget Fld.reelStatState (bits (c.p 0) 0 4) ≠
      3 ∧ (s.fget Fld.reelStatPeerv (bits (c.p 0) 0 4) = 0 ∨ s.lost (s.fget Fld.reelStatPeer (bits (c.p 0) 0 4)) = false)) ∧
    (∃ s : State, ∃ c ∈ (s.kready 1 1028), (10 ≤ bits (c.p 0) 0 4 ∨ bit s.kiln.cfg.reelMask (bits (c.p 0) 0 4) = false)) ∧
    (∃ s : State, ∃ c ∈ (s.kready 1 1028), bits (c.p 0) 0 4 < 10 ∧ bit s.kiln.cfg.reelMask (bits (c.p 0) 0 4) = true ∧ s.fget Fld.reelSysFormed = 0) ∧
    (∃ s : State, ∃ c ∈ (s.kready 1 1028), bits (c.p 0) 0 4 < 10 ∧ bit s.kiln.cfg.reelMask (bits (c.p 0) 0 4) = true ∧ s.fget Fld.reelSysFormed = 1 ∧
      s.fget Fld.reelStatState (bits (c.p 0) 0 4) ≠ 2 ∧ s.fget Fld.reelStatState (bits (c.p 0) 0 4) ≠ 3) ∧
    (∃ s : State, ∃ c ∈ (s.kready 1 1028), bits (c.p 0) 0 4 < 10 ∧ bit s.kiln.cfg.reelMask (bits (c.p 0) 0 4) = true ∧ s.fget Fld.reelSysFormed = 1 ∧
      (s.fget Fld.reelStatState (bits (c.p 0) 0 4) = 2 ∨ s.fget Fld.reelStatState (bits (c.p 0) 0 4) = 3) ∧ (s.bundle (s.fget Fld.reelStatPeer (bits
      (c.p 0) 0 4))).length ≤ 1) ∧
    (∃ s : State, ∃ c ∈ (s.kready 1 1028), bits (c.p 0) 0 4 < 10 ∧ bit s.kiln.cfg.reelMask (bits (c.p 0) 0 4) = true ∧ s.fget Fld.reelSysFormed = 1 ∧
      (s.fget Fld.reelStatState (bits (c.p 0) 0 4) = 2 ∨ s.fget Fld.reelStatState (bits (c.p 0) 0 4) = 3) ∧ 2 ≤ (s.bundle (s.fget Fld.reelStatPeer
      (bits (c.p 0) 0 4))).length) := by
  refine ⟨⟨(mb [] [.expel 1]), ?_⟩, ⟨(mb [] []), ?_⟩, ⟨(mb [] []), ?_⟩, ⟨(mb [] [.loss 2 1]), ?_⟩, ⟨(mb [(.reelSysLead, 0, 0, 1)] [.loss 2 1]), ?_⟩,
    ⟨(mb [(.reelSysLost, 0, 0, 2)] [.loss 1 2]), ?_⟩, ⟨(mw [(.reelSysLead, 0, 0, 1)] (some 1001) none), ?_⟩, ⟨(mw [(.reelSysLead, 0, 0, 1)] (some
    1000) none), ?_⟩, ⟨(mw [(.reelSysLead, 0, 0, 1)] none (some (1, 4))), ?_⟩, ⟨{ mw [(.reelSysLead, 0, 0, 1), (.reelSysMembers, 0, 0, 3)] none (some (1, 4)) with now := 3200004 },
    ?_⟩, ⟨(ke 0x403 12 [] {} 8), ?_⟩, ⟨(ke 0x403 3 [(.reelSysFormed, 0, 0, 0)] {} 8), ?_⟩, ⟨(ke 0x403 3 [] { draining := true } 8), ?_⟩, ⟨(ke 0x403 3
    [] {} 8), ?_⟩, ⟨(ke 0x403 3 [(.reelStatState, 3, 0, 4), (.reelSysLost, 0, 0, 2)] {} 8), ?_⟩, ⟨(ke 0x403 3 [(.reelStatState, 3, 0, 4)] {} 8), ?_⟩,
    ⟨(ke 0x404 12 [] {} 8), ?_⟩, ⟨(ke 0x404 3 [(.reelSysFormed, 0, 0, 0)] {} 8), ?_⟩, ⟨(ke 0x404 3 [(.reelStatState, 3, 0, 4)] {} 8), ?_⟩, ⟨(ke 0x404
    3 [] {} 8), ?_⟩, ⟨(ke 0x404 3 [(.reelStatState, 5, 0, 2), (.reelStatPeer, 5, 0, 1), (.reelStatPeerv, 5, 0, 1)] {} 8), ?_⟩⟩
  · ((repeat' apply And.intro) <;> first | decide +kernel | exact noSent _ (by decide +kernel))
  · decide +kernel
  · decide +kernel
  · ((repeat' apply And.intro) <;> first | decide +kernel | exact noSent _ (by decide +kernel))
  · decide +kernel
  · decide +kernel
  · decide +kernel
  · exact ⟨1000, by decide +kernel, by ((repeat' apply And.intro) <;> first | decide +kernel | exact noSent _ (by decide +kernel))⟩
  · decide +kernel
  · ((repeat' apply And.intro) <;> first | decide +kernel | exact noSent _ (by decide +kernel))
  · decide +kernel
  · decide +kernel
  · decide +kernel
  · decide +kernel
  · decide +kernel
  · decide +kernel
  · decide +kernel
  · decide +kernel
  · decide +kernel
  · decide +kernel
  · decide +kernel

/-- Each clause of `Obligations.NonCoherentAccessesAcrossPackages` has a state and operands that meet its hypotheses. -/
theorem meets_NonCoherentAccessesAcrossPackages :
    (∃ s : State, ∃ m ∈ (s.reelFor 8 fun x => x == ReelOp.ncrd), True) ∧
    (∃ s : State, ∃ m ∈ (s.reelFor 8 fun x => x == ReelOp.ncwr), True) ∧
    (∃ s : State, ((s.reelFor 8 fun x => x == ReelOp.ncrd) = none)) ∧
    (∃ s : State, ((s.reelFor 8 fun x => x == ReelOp.ncwr) = none)) ∧
    (∃ s : State, ∃ x : RRx, ∃ r : NcReq, s.reel.rx = [x] ∧ x.at_ ≤ s.fcyc ∧ x.msg.op = ReelOp.nccpl ∧ s.home.ncDone = [r] ∧ r.id = x.msg.m.tag ∧
      r.dram = true) ∧
    (∃ s : State, ∃ r : NcReq, ∃ m ∈ (s.msc (r.pa / 64)), s.ncFront 8 false = some r ∧ r.agent = Agent.peer (1 + 8 * 44) ∧ s.homeReason (r.pa / 64) =
      none ∧ m.p = false ∧ s.bundle ((1 + 8 * 44) % 8) = [3] ∧ ¬(1 + 8 * 44) % 8 ∈ s.reel.quiesce) ∧
    (∃ r : NcReq, ∃ e ∈ (nb.homeReason (r.pa / 64)), nb.ncFront 8 false = some r ∧ r.agent = Agent.peer (1 + 8 * 44) ∧ r.write = false ∧ nb.bundle
      ((1 + 8 * 44) % 8) = [3] ∧ ¬(1 + 8 * 44) % 8 ∈ nb.reel.quiesce) := by
  refine ⟨⟨(nx (nq .ncrd)), ?_⟩, ⟨(nx (nq .ncwr)), ?_⟩, ⟨(nx (nq .ncwr)), ?_⟩, ⟨(nx (nq .ncrd)), ?_⟩, ⟨(nd true), { port := 3, at_ := 600, msg := nq .nccpl },
    { id := 5, agent := .smp 0, use := .hdr, write := true, pa := 0x40040, len := 8, val := 99, at_ := 600, dram := true }, ?_⟩, ⟨(nr 0x2008 [(0x80,
    mscA)]), (np 0x2008), ?_⟩, ⟨(np 0x2008), ?_⟩⟩
  all_goals decide +kernel

/-- The state after a command. -/
def after (c : Instr) (s : State) : State :=
  match exec c s with
  | .next t => t
  | _ => s

/-- The command at the front of the queue, and an empty queue. -/
theorem meets_CommandAtTheFront :
    (∃ (s : State) (c : Instr) (rest : List Instr), s.pending = c :: rest) ∧ State.reset.pending = [] ∧
    (∃ s : State, s.pending = [] ∧ (s.kiln.aonHeld = true ∨ s.pins.thermtrip = true)) :=
  ⟨⟨{ base with pending := [.fence ins] }, .fence ins, [], rfl⟩, rfl, { base with kiln := { base.kiln with aonHeld := true } }, rfl, .inl rfl⟩

/-- The reset state and a step of it. -/
theorem meets_EveryStepKeepsMemoryCanonical : ∃ s t : State, s.MemOk ∧ step s = .next t :=
  ⟨{ pending := [.complete] }, {}, ⟨rfl, rfl, rfl⟩, rfl⟩

def rwD (sz : Nat) : Dev := { id := 1, who := .ctx 0 5, pa := base.ctlPa (RegKind.irtRoute.addr 7 0), sz := sz, write := true, val := 0x101, at_ := 600 }
def rwS : State := { base with fab := { base.fab with devs := [rwD 3] } }
def rwN : State := { base with fab := { base.fab with devs := [rwD 2] } }

/-- A write of each kind of register, alone and by a context that has a transfer for it. -/
theorem meets_RegisterWritesOfEachRequester :
    WritesRegister (fun q => .irtRouteWrite q 7 0x101) (RegKind.irtRoute.addr 7 0) 3 0x101 ∧
    (∀ d, base.devNextOf 0 5 = some d → d.write = false) ∧
    (∃ d, rwS.devNextOf 0 5 = some d ∧ d.write = true ∧ d.pa = rwS.ctlPa (RegKind.irtRoute.addr 7 0) ∧
      d.val.toNat % 2 ^ (8 * 2 ^ d.sz) = (0x101 : W64).toNat ∧ d.at_ + 3 ≤ rwS.fcyc ∧ rwS.corePart 0 = some 0 ∧ rwS.plat 0 = true ∧ d.sz = 3) ∧
    (∃ d, rwN.devNextOf 0 5 = some d ∧ d.write = true ∧ d.pa = rwN.ctlPa (RegKind.irtRoute.addr 7 0) ∧ d.sz ≠ 3) :=
  ⟨.inr ⟨rfl, .irtRoute, 7, 0, by decide +kernel, rfl, .inl ⟨rfl, rfl, rfl⟩⟩, fun _ h => (nomatch (show none = some _ from h)), ⟨rwD 3, by decide +kernel⟩,
    ⟨rwD 2, by decide +kernel⟩⟩

/-- A core whose lanes have issued in this cycle, and one that issues. -/
theorem meets_AtMostTwoInstructionsIssue :
    (∃ (k : Core) (t : Nat), t < k.lane0 ∧ t < k.lane1) ∧ coreA.issueOk 1000 ins { lane := 0, regs := [3, 1] } = true :=
  ⟨⟨{ coreA with lane0 := 1001, lane1 := 1001 }, 1000, by decide⟩, by decide +kernel⟩

/-- R17 (RISC-V, log 5): a sum wraps; a W-form sum is sign-extended. -/
theorem test_add_wraps :
    ((after (.integerAlu ins .add 3 1 (.imm 1)) (baseX (fun x => { x with x := [(1, -1)] }))).ctx 0 5).getX 3 = 0 ∧
    ((after (.integerAlu ins .addw 3 1 (.imm 1)) (baseX (fun x => { x with x := [(1, 0x7FFFFFFF)] }))).ctx 0 5).getX 3 = 0xFFFFFFFF80000000 := by
  decide +kernel

/-- R17 (log 5): a shift right of a negative number keeps its sign. -/
theorem test_sra : ((after (.integerAlu ins .sra 3 1 (.imm 63)) (baseX (fun x => { x with x := [(1, 1 <<< 63)] }))).ctx 0 5).getX 3 = -1 := by
  decide +kernel

/-- R17 (log 5): the high half of the product of all ones by itself, signed and unsigned. -/
theorem test_mulh :
    ((after (.multiply ins .mulh 3 1 1) (baseX (fun x => { x with x := [(1, -1)] }))).ctx 0 5).getX 3 = 0 ∧
    ((after (.multiply ins .mulhu 3 1 1) (baseX (fun x => { x with x := [(1, -1)] }))).ctx 0 5).getX 3 = -2 := by
  decide +kernel

/-- R18 (log 5): a quotient by 0 is all ones, a remainder by 0 the dividend. -/
theorem test_divide_by_zero :
    ((after (.divide ins .div 3 2 0) base).core 0).divu.map (fun d => d.val) = some (-1) ∧
    ((after (.divide ins .rem 3 2 0) base).core 0).divu.map (fun d => d.val) = some 7 := by
  decide +kernel

/-- R54 (IEEE 754): 1 + 2 = 3, exactly. -/
theorem test_fp_add : ((after (.fpOperation ins .add .d .rne 3 1 2 0) base).ctx 0 5).getF 3 = 0x4008000000000000 := by decide +kernel

/-- R54 (IEEE 754): 1 / 3 and the square root of 2 in double precision, to nearest. -/
theorem test_fp_divide :
    ((after (.fpDivide ins false .d .rne 3 1 2) (baseX (fun x => { x with f := [(1, 0x3FF0000000000000), (2, 0x4008000000000000)] }))).core 0).fdivu.map
      (fun d => d.val) = some 0x3FD5555555555555 ∧
    ((after (.fpDivide ins true .d .rne 3 2 0) base).core 0).fdivu.map (fun d => d.val) = some 0x3FF6A09E667F3BCD := by
  decide +kernel

/-- R20, R22: a taken branch goes to its target; a jump leaves the address after it. -/
theorem test_branch_and_jump :
    ((after (.conditionalBranch ins .eq 1 1 0x20) base).ctx 0 5).pc = 0x1020 ∧ ((after (.directJump ins 3 0x40) base).ctx 0 5).getX 3 = 0x1004 := by
  decide +kernel

/-- R31, R36: a load takes the bytes of the store buffer, little-endian, with its sign. -/
theorem test_load_forwards :
    ((after (.load ins { sz := 0, sgn := true, fp := false } 3 1 1 .none)
      (baseK (fun k => { k with sb := [{ ctx := 5, va := 0x2000, pa := 0x2000, sz := 3, val := 0x8899, mt := 0, fp := false, filled := 900 }] }))).ctx 0 5).getX 3
      = 0xFFFFFFFFFFFFFF88 := by
  decide +kernel

/-- R20, R56: ECALL from M-mode: cause 11, the pc saved. -/
theorem test_ecall :
    ((after (.ecall ins) base).ctx 0 5).mcause = 11 ∧ ((after (.ecall ins) base).ctx 0 5).mepc = 0x1000 ∧ ((after (.ecall ins) base).ctx 0 5).prv = .m := by
  decide +kernel

/-- R20: a CSR read and write in one: the old value to rd, the new one from rs1. -/
theorem test_csr_swap :
    ((after (.csrAccess ins .rw 0x340 3 1) (baseX (fun x => { x with mscratch := 9 }))).ctx 0 5).getX 3 = 9 ∧
    ((after (.csrAccess ins .rw 0x340 3 1) (baseX (fun x => { x with mscratch := 9 }))).ctx 0 5).mscratch = 0x2000 := by
  decide +kernel

/-- R152: CRC-32C of 32 bytes of zeros and of ones, the two vectors of RFC 3720, B.4. -/
theorem test_crc32c : crc32c [0, 0, 0, 0] = 0x8A9136AA ∧ crc32c [-1, -1, -1, -1] = 0x62A8AB43 := by decide +kernel

/-- R184: one symbol error of a stored word is corrected; none is found in a clean one. -/
theorem test_ecc :
    (base.decodeLine 0x80 []).out = .clean ∧ (base.decodeLine 0x80 [{ pos := 20, xor := 0x5A }]).out = .corrected ∧
    (base.decodeLine 0x80 [{ pos := 20, xor := 0x5A }]).data = (base.decodeLine 0x80 []).data := by
  decide +kernel

/-- R205, R209: with nothing to send, a link in L0 sends a null flit and keeps its sequence. -/
theorem test_null_flit :
    ((after (.reelFlitTransmit 3) (relS [] { txSeq := 9 })).rport 3).out.map (fun f => (f.null, f.cells)) = some (true, []) ∧
    ((after (.reelFlitTransmit 3) (relS [] { txSeq := 9 })).rport 3).txSeq = 9 := by
  decide +kernel

/-- A byte of memory written and written back to what an unlisted byte reads as. -/
theorem test_memory_canonical : Memory.put (Memory.put [] 5 7) 5 0 = [] ∧ Memory.get (Memory.putN [] 5 2 0x1234) 6 = 0x12 := by decide

/-- Commands with every operand in range are well formed. -/
theorem test_wf_takes :
    ([.integerAlu ins .add 31 31 (.reg 31), .load { ins with core := 239, ctx := 1023 } { sz := 3, sgn := true, fp := true } 31 31 0 .none,
      .counterWrap 239 10, .irtRouteWrite (.ctx 239 1023) 4095 0, .fence ins] : List Instr).all (fun i => i.wf) = true := by decide

/-- From integerAlu to indirectJump: one operand out of range each, refused. -/
theorem test_wf_refuses_1 :
    ([.integerAlu { ins with core := 240 } .add 0 0 (.imm 0), .integerAlu ins .add 32 0 (.imm 0), .integerAlu ins .add 0 32 (.imm 0),
      .integerAlu ins .add 0 0 (.reg 32), .multiply { ins with core := 240 } .mul 0 0 0, .multiply ins .mul 32 0 0, .multiply ins .mul 0 32 0,
      .multiply ins .mul 0 0 32, .divide { ins with core := 240 } .div 0 0 0, .divide ins .div 32 0 0, .divide ins .div 0 32 0,
      .divide ins .div 0 0 32, .dividerFree 240 false, .fpOperation { ins with core := 240 } .add .d .rne 0 0 0 0,
      .fpOperation ins .add .d .rne 32 0 0 0, .fpOperation ins .add .d .rne 0 32 0 0, .fpOperation ins .add .d .rne 0 0 32 0,
      .fpOperation ins .add .d .rne 0 0 0 32, .fpDivide { ins with core := 240 } false .d .rne 0 0 0, .fpDivide ins false .d .rne 32 0 0,
      .fpDivide ins false .d .rne 0 32 0, .fpDivide ins false .d .rne 0 0 32, .conditionalBranch { ins with core := 240 } .eq 0 0 0,
      .conditionalBranch ins .eq 32 0 0, .conditionalBranch ins .eq 0 32 0, .directJump { ins with core := 240 } 0 0, .directJump ins 32 0,
      .indirectJump { ins with core := 240 } 0 0 0, .indirectJump ins 32 0 0, .indirectJump ins 0 32 0] : List Instr).all (fun i => !i.wf) = true := by decide

/-- From instructionFetch to sc: one operand out of range each, refused. -/
theorem test_wf_refuses_2 :
    ([.instructionFetch 240 0 .runs .none, .instructionFetch 0 1024 .runs .none,
      .load { ins with core := 240 } { sz := 3, sgn := true, fp := false } 0 0 0 .none, .load ins { sz := 4, sgn := true, fp := false } 0 0 0 .none,
      .load ins { sz := 3, sgn := true, fp := false } 32 0 0 .none, .load ins { sz := 3, sgn := true, fp := false } 0 32 0 .none,
      .loadAfterDrain 240 0 .none, .loadAfterDrain 0 1024 .none, .store { ins with core := 240 } { sz := 3, sgn := true, fp := false } 0 0 0 .none,
      .store ins { sz := 4, sgn := true, fp := false } 0 0 0 .none, .store ins { sz := 3, sgn := true, fp := false } 32 0 0 .none,
      .store ins { sz := 3, sgn := true, fp := false } 0 32 0 .none, .storeBufferDrain 240 0, .storeBufferDrain 0 1024, .deferredStoreFault 240 0,
      .deferredStoreFault 0 1024, .amo { ins with core := 240 } .add 3 0 0 0, .amo ins .add 4 0 0 0, .amo ins .add 3 32 0 0, .amo ins .add 3 0 32 0,
      .amo ins .add 3 0 0 32, .lr { ins with core := 240 } 3 0 0, .lr ins 4 0 0, .lr ins 3 32 0, .lr ins 3 0 32,
      .sc { ins with core := 240 } 3 0 0 0, .sc ins 4 0 0 0, .sc ins 3 32 0 0, .sc ins 3 0 32 0, .sc ins 3 0 0 32] : List Instr).all (fun i => !i.wf) = true := by decide

/-- From fence to ctxWake: one operand out of range each, refused. -/
theorem test_wf_refuses_3 :
    ([.fence { ins with core := 240 }, .fenceI { ins with core := 240 }, .csrAccess { ins with core := 240 } .rw 0 0 0, .csrAccess ins .rw 4096 0 0,
      .csrAccess ins .rw 0 32 0, .csrAccess ins .rw 0 0 32, .ecall { ins with core := 240 }, .ebreak { ins with core := 240 },
      .illegalInstruction { ins with core := 240 }, .mret { ins with core := 240 }, .sret { ins with core := 240 }, .wfi { ins with core := 240 },
      .sfenceVma { ins with core := 240 } 0 0, .sfenceVma ins 32 0, .sfenceVma ins 0 32, .cboClean { ins with core := 240 } 0, .cboClean ins 32,
      .cboFlush { ins with core := 240 } 0, .cboFlush ins 32, .cboInval { ins with core := 240 } 0, .cboInval ins 32,
      .cboZero { ins with core := 240 } 0, .cboZero ins 32, .ctxYield { ins with core := 240 }, .ctxWait { ins with core := 240 } 0, .ctxWait ins 32,
      .ctxSleep { ins with core := 240 } 0, .ctxSleep ins 32, .ctxWake { ins with core := 240 } 0, .ctxWake ins 32] : List Instr).all (fun i => !i.wf) = true := by decide

/-- From ctxSpawn to mctxdataAccess: one operand out of range each, refused. -/
theorem test_wf_refuses_4 :
    ([.ctxSpawn { ins with core := 240 } 0 0 0, .ctxSpawn ins 32 0 0, .ctxSpawn ins 0 32 0, .ctxSpawn ins 0 0 32, .ctxExit { ins with core := 240 },
      .interruptTaken 240 0, .interruptTaken 0 1024, .longHint 240, .heldFetchHint 240 0, .heldFetchHint 0 1024, .contextPark 240 0,
      .contextPark 0 1024, .contextUnpark 240 0, .contextUnpark 0 8, .quantumExpiry 240 0, .quantumExpiry 0 1024, .recordFill 240 0,
      .recordFill 0 1024, .recordBusError 240 0, .recordBusError 0 1024, .parkedStoreError 240 0, .parkedStoreError 0 1024, .wakeDelivery 240,
      .spawnRequest 240, .spawnResponse 240, .deadlineExpiry 240, .mtimerCompare 240, .stimerCompare 240 0, .stimerCompare 0 1024,
      .mctxdataAccess { ins with core := 240 } .rw 0 0] : List Instr).all (fun i => !i.wf) = true := by decide

/-- From mctxdataAccess to irtRouteWrite: one operand out of range each, refused. -/
theorem test_wf_refuses_5 :
    ([.mctxdataAccess ins .rw 32 0, .mctxdataAccess ins .rw 0 32, .mctxholdWrite { ins with core := 240 } .rw 0 0, .mctxholdWrite ins .rw 32 0,
      .mctxholdWrite ins .rw 0 32, .sxltWrite { ins with core := 240 } .rw 0 0, .sxltWrite ins .rw 32 0, .sxltWrite ins .rw 0 32,
      .sxltbaseWrite { ins with core := 240 } .rw 0 0, .sxltbaseWrite ins .rw 32 0, .sxltbaseWrite ins .rw 0 32,
      .sxltinvWrite { ins with core := 240 } .rw 0 0, .sxltinvWrite ins .rw 32 0, .sxltinvWrite ins .rw 0 32,
      .pmpWrite { ins with core := 240 } .rw 0 0 0, .pmpWrite ins .rw 4096 0 0, .pmpWrite ins .rw 0 32 0, .pmpWrite ins .rw 0 0 32,
      .ifClaim { ins with core := 240 } .rw false 0 0, .ifClaim ins .rw false 32 0, .ifClaim ins .rw false 0 32,
      .ifEoi { ins with core := 240 } .rw false 0 0, .ifEoi ins .rw false 32 0, .ifEoi ins .rw false 0 32,
      .ifPost { ins with core := 240 } .rw false 0 0, .ifPost ins .rw false 32 0, .ifPost ins .rw false 0 32, .routeEvent 4096 false, .deliver 240,
      .irtRouteWrite (.ctx 240 0) 0 0] : List Instr).all (fun i => !i.wf) = true := by decide

/-- From irtRouteWrite to ncRead: one operand out of range each, refused. -/
theorem test_wf_refuses_6 :
    ([.irtRouteWrite .host 4096 0, .msiDoorbell (.ctx 240 0) 0, .walkStart 240 0 false, .walkStart 0 1024 false, .walkRoundDecision 240 0,
      .adFlagOrReturn 240 0, .shootdownReceipt 240, .shootdownLocalDone 240, .l2MissRequest 240 0, .requestLaunch 12, .creditReturn 12, .rdS 16,
      .rdM 16, .upg 16, .amoH 16, .homeAdmission 16 .none, .wb 16, .evc 16, .snpAck 16, .snpData 16, .dataS 240 .none, .dataM 240, .amoRet 240,
      .ackUpg 240, .wbAck 240, .evcAck 240, .snpInv 240, .snpShd 240, .heldSnoopAnswer 240 0, .ncRead 16] : List Instr).all (fun i => !i.wf) = true := by decide

/-- From ncWrite to ectWriteEnc: one operand out of range each, refused. -/
theorem test_wf_refuses_7 :
    ([.ncWrite 16, .dramReadComplete 16 [], .reelRequest 16, .rsnpShd 16, .rsnpInv 16, .rsnpAck 16, .rsnpData 16, .relayedResponse 16,
      .forwardedRelease 16, .remoteReleaseAck 16, .rangeCleanScan 16, .trackerTimeout 16 0, .sidebandPoll 12 false,
      .slipFrameReceive 12 0 (List.replicate 2 0), .slipFrameReceive 0 16 (List.replicate 2 0), .slipFrameReceive 0 0 [], .slipReplayRequest 12 0 0,
      .slipReplayRequest 0 16 0, .slipErrorWindow 12 0, .slipErrorWindow 0 16, .slipRepairDone 12 0 false, .slipRepairDone 0 16 false,
      .streamHandoverEnd 12 0, .streamHandoverEnd 0 16, .refresh 16, .alertN 16, .channelRetrainDone 16 false, .patrolRead 16 [],
      .ectWriteRaw (.ctx 240 0), .ectWriteEnc (.ctx 240 0)] : List Instr).all (fun i => !i.wf) = true := by decide

/-- From ectReadRaw to pwrCorectlWrite: one operand out of range each, refused. -/
theorem test_wf_refuses_8 :
    ([.ectReadRaw (.ctx 240 0), .ectReadDec (.ctx 240 0), .reelFlitTransmit 10, .reelFlitReceive 10 .intact (fl 0 []), .reelSilenceTimeout 10,
      .reelRetrainDone 10 false false, .reelRetrainTimeout 10, .resync 8 0, .resyncAck 8 0 [], .bundleQuiesced 8,
      .reelTrainingStage 10 0 .ok false false 0, .hello 10 0, .krelay 8 (.restart 0), .tsync 10 0, .loss 8 0, .loss 0 8, .expel 8, .ncrd 16,
      .ncwr 16, .partitionDrainDone 64, .coreResetDone 240, .mbxDoorbell (.ctx 240 0) 0 0, .mbxDoorbell .host 64 0, .coreStateEntry 240,
      .coreExitDone 240, .dieStateEntry 12, .dieExitDone 12, .pwrSpillWrite (.ctx 240 0) 0 0, .pwrSpillWrite .host 240 0,
      .pwrCorectlWrite (.ctx 240 0) 0 0] : List Instr).all (fun i => !i.wf) = true := by decide

/-- From pwrCorectlWrite to counterWrap: one operand out of range each, refused. -/
theorem test_wf_refuses_9 :
    ([.pwrCorectlWrite .host 240 0, .pwrDiectlWrite (.ctx 240 0) 0 0, .pwrDiectlWrite .host 12 0, .packageWake 32 0, .reelWakePattern 10 0 0,
      .wakeInChange 2 false, .wakeInStuck 2, .wakeInUnstuck 2, .vfTransitionDone 12, .ringEnable 4 0, .ringDisable 4 0, .crpiWrite 4 0,
      .ringReadCompletion 32 .ok [], .ringReadTimeout 32, .dmaChannelEnable (.ctx 240 0) 0 0, .dmaChannelEnable .host 256 0,
      .dmaChannelDisable (.ctx 240 0) 0 0, .dmaChannelDisable .host 256 0, .dmaChpiWrite (.ctx 240 0) 0 0, .dmaChpiWrite .host 256 0,
      .dmaTriggerNotice 256, .triggerLineReadDone 256, .dmaNextDescriptor 8, .descriptorArrival 8, .dmaReadReturn 8, .dmaWriteAck 8,
      .completionRecordAck 256, .barrierRelease 256, .dmaDrainDone 256, .counterWrap 240 3] : List Instr).all (fun i => !i.wf) = true := by decide

/-- From counterWrap to forwardedClockFailure: one operand out of range each, refused. -/
theorem test_wf_refuses_10 :
    ([.counterWrap 0 2, .counterWrap 0 11, .sampleRecord 240 3, .sampleRecord 0 2, .sampleRecord 0 11, .sampleSpill 240, .sampleSpillAck 240,
      .smpRingEnable (.ctx 240 0) 0 0 0, .smpRingEnable .host 12 0 0, .smpRingEnable .host 0 20 0, .bwWindowInterval 32, .aonResetRelease [],
      .glbBootimgGo (.ctx 240 0) 0 none, .railPowerGood 16, .railPgTimeout 16, .glbResetPkg (.ctx 240 0) 0, .glbResetKiln (.ctx 240 0) 0, .pgFall 16,
      .rptEnable (.ctx 240 0) 0 0, .rptEnable .host 20 0, .rptLinkDown none 20, .rptDrainDone 20, .upstreamTlp 20 .read 0 0 [] false,
      .downstreamCompletion 20 0 .ok 0, .rootPortCplTimeout 20 0, .configRetry 20 0, .registerWrite .control (.ctx 240 0) 0 0 0,
      .rootPortLinkUp 20 0 0 false, .rootPortL1Change 20 false, .forwardedClockFailure 12 0] : List Instr).all (fun i => !i.wf) = true := by decide

/-- From forwardedClockFailure to forwardedClockFailure: one operand out of range each, refused. -/
theorem test_wf_refuses_11 :
    ([.forwardedClockFailure 0 16] : List Instr).all (fun i => !i.wf) = true := by decide

end Sys2Proof.Tests
end

section
/-! How a write of a register reaches control space from each requester (R8, R9, R64, R74, R337). -/

namespace Sys2Proof.Machine

/-- R64: a device access is the write of an offset of control space with a value, and has arrived. -/
def State.DevWrites (s : State) (d : Dev) (off : Nat) (v : W64) : Prop :=
  d.write = true ∧ d.pa = s.ctlPa off ∧ d.val.toNat % 2 ^ (8 * 2 ^ d.sz) = v.toNat ∧ d.at_ + 3 ≤ s.fcyc

/-- R64: a core's write waits while its context's oldest device access is another one or has not arrived. -/
theorem State.ctlWrite_ctx_waits {s : State} {c i off : Nat} {v : W64} (sz : Nat) (f : State → State)
    (h : ∀ d, s.devNextOf c i = some d → ¬ s.DevWrites d off v) : s.ctlWrite (.ctx c i) off sz v f = .next s := by
  cases hd : s.devNextOf c i with
  | none => simp [State.ctlWrite, hd]
  | some d =>
    have hn := h d hd
    unfold State.DevWrites at hn
    simp only [State.ctlWrite, hd, Bool.and_eq_true, beq_iff_eq, decide_eq_true_eq, and_assoc, if_neg hn]

/-- R8, R9: a core's write that has arrived is performed, or ends with OUTSIDE_WINDOW, by its right and its width. -/
theorem State.ctlWrite_ctx_arrived {s : State} {c i off : Nat} {v : W64} {d : Dev} (hd : s.devNextOf c i = some d) (h : s.DevWrites d off v)
    (sz : Nat) (f : State → State) :
    s.ctlWrite (.ctx c i) off sz v f =
      .next (if s.mayReach (.ctx c i) off = true ∧ d.sz = sz then (f s).devDone d.id 0 0 else s.devDone d.id rOutsideWindow 0) := by
  unfold State.DevWrites at h
  simp only [State.ctlWrite, hd, Bool.and_eq_true, beq_iff_eq, decide_eq_true_eq, and_assoc, if_pos h]
  split <;> rfl

/-- R8: what a core may reach, by its partition. -/
theorem State.mayReach_ctx_iff (s : State) (c i off : Nat) :
    s.mayReach (.ctx c i) off = true ↔ ∃ p, s.corePart c = some p ∧ (s.plat p = true ∨ inMailbox p off = true) := by
  simp [State.mayReach, Option.any_eq_true]

/-- What a register-writing command does when its write is performed, by who makes it: a write of `off`, performed as `f`; the kiln's and the host's
differ in a doorbell alone, and a core's and the kiln's in GLB_RESET alone. -/
structure PerformsWrite (w : Req → Instr) (off sz : Nat) (v : W64) (f : Req → State → State) : Prop where
  exec_eq : ∀ q s, exec (w q) s = s.ctlWrite q off sz v (f q)
  kiln : f .kiln = f .host ∨ ∃ p b, w = (fun q => .mbxDoorbell q p b)
  core : ∀ c i s, f (.ctx c i) s = if off = RegKind.glbReset.addr 0 0 then s else f .kiln s

/-- GLB_RESET's offset lies below every register whose base is above it. -/
theorem RegKind.addr_ne_glbReset {k : RegKind} (h : 0x310 < k.place.1) (i j : Nat) : k.addr i j ≠ RegKind.glbReset.addr 0 0 := by
  have hr : RegKind.glbReset.addr 0 0 = 0x310 := rfl
  have hk : k.addr i j = k.place.1 + i * k.place.2.1 + j * k.place.2.2.2.1 := rfl
  omega

/-- A write that is performed alike for every requester, at another offset than GLB_RESET's. -/
theorem PerformsWrite.alike {w : Req → Instr} {off sz : Nat} {v : W64} {f : State → State} (he : ∀ q s, exec (w q) s = s.ctlWrite q off sz v f)
    (ho : off ≠ RegKind.glbReset.addr 0 0) : PerformsWrite w off sz v (fun _ => f) :=
  ⟨he, .inl rfl, fun _ _ _ => by rw [if_neg ho]⟩

/-- A write of a register that exists is a write of its offset. -/
theorem State.regWrite_has {k : RegKind} {i j : Nat} (h : k.has i j = true) (s : State) (q : Req) (v : W64) (f : State → State) :
    s.regWrite q k i j v f = s.ctlWrite q (k.addr i j) 3 v f := if_pos h

/-- As `PerformsWrite.alike`, of a register of 64 bits by its kind and index. -/
theorem PerformsWrite.reg {w : Req → Instr} {k : RegKind} {i j : Nat} {v : W64} {f : State → State} (h : k.has i j = true)
    (he : ∀ q s, exec (w q) s = s.regWrite q k i j v f) (hb : k.addr i j ≠ RegKind.glbReset.addr 0 0) :
    PerformsWrite w (k.addr i j) 3 v (fun _ => f) :=
  .alike (fun q s => by rw [he, State.regWrite_has h]) hb

/-- A write of a register of a DMA channel, which the channel's number names. -/
theorem PerformsWrite.channel {w : Req → Instr} {k : RegKind} {i j : Nat} {v : W64} {f : State → State} (h : k.has i j = true)
    (hj : k.place.2.2.2.2 = 32) (he : ∀ q s, exec (w q) s = s.regWrite q k ((i * 32 + j) / 32) ((i * 32 + j) % 32) v f)
    (hb : 0x310 < k.place.1) : PerformsWrite w (k.addr i j) 3 v (fun _ => f) := by
  have hlt : j < k.place.2.2.2.2 := by simp only [RegKind.has, Bool.and_eq_true, decide_eq_true_eq] at h; exact h.2
  have hi : (i * 32 + j) / 32 = i ∧ (i * 32 + j) % 32 = j := by omega
  rw [hi.1, hi.2] at he
  exact .reg h he (RegKind.addr_ne_glbReset hb i j)

/-- R337: GLB_RESET's two commands do the same for the host and the kiln, and nothing for a core. -/
theorem PerformsWrite.glbReset {w : Req → Instr} {v : W64} {f : Req → State → State}
    (he : ∀ q s, exec (w q) s = s.regWrite q .glbReset 0 0 v (f q)) (hk : f .kiln = f .host) (hc : ∀ c i s, f (.ctx c i) s = s) :
    PerformsWrite w (RegKind.glbReset.addr 0 0) 3 v f :=
  ⟨fun q s => by rw [he, State.regWrite_has (by decide)], .inl hk, fun c i s => by rw [if_pos rfl, hc]⟩

/-- Every command that writes a register performs a write of its offset. -/
theorem WritesRegister.performs {w : Req → Instr} {off sz : Nat} {v : W64} (h : WritesRegister w off sz v) : ∃ f, PerformsWrite w off sz v f := by
  obtain ⟨b, rfl, rfl, rfl, rfl⟩ | ⟨rfl, k, i, j, hk, rfl, h⟩ := h
  · exact ⟨_, .alike (fun _ _ => rfl) (by decide)⟩
  have low {k : RegKind} (hb : 0x310 < k.place.1) : k.addr i j ≠ RegKind.glbReset.addr 0 0 := RegKind.addr_ne_glbReset hb i j
  rcases h with route | ect | doorbell | spill | corectl | diectl | chctl | chpi | smp | bootimg | reset | rpt
  · obtain ⟨rfl, rfl, rfl⟩ := route
    exact ⟨_, .reg hk (fun _ _ => rfl) (low (by decide))⟩
  · obtain ⟨rfl, rfl, rfl, h⟩ := ect
    rcases h with ⟨rfl, rfl⟩ | ⟨rfl, rfl⟩ | ⟨rfl, rfl⟩ | ⟨rfl, rfl⟩ <;> exact ⟨_, .reg hk (fun _ _ => rfl) (low (by decide))⟩
  · obtain ⟨rfl, rfl, rfl⟩ := doorbell
    exact ⟨fun q s => s.doorbell i (q == .host) v, fun q s => State.regWrite_has hk s q v _, .inr ⟨i, v, rfl⟩,
      fun _ _ _ => by rw [if_neg (low (by decide))]; rfl⟩
  · obtain ⟨rfl, rfl, rfl⟩ := spill
    exact ⟨_, .reg hk (fun _ _ => rfl) (low (by decide))⟩
  · obtain ⟨rfl, rfl, rfl⟩ := corectl
    exact ⟨_, .reg hk (fun _ _ => rfl) (low (by decide))⟩
  · obtain ⟨rfl, rfl, rfl⟩ := diectl
    exact ⟨_, .reg hk (fun _ _ => rfl) (low (by decide))⟩
  · obtain ⟨rfl, rfl | rfl⟩ := chctl <;> exact ⟨_, .channel hk rfl (fun _ _ => rfl) (by decide)⟩
  · obtain ⟨rfl, rfl⟩ := chpi
    exact ⟨_, .channel hk rfl (fun _ _ => rfl) (by decide)⟩
  · obtain ⟨rfl, rfl⟩ := smp
    exact ⟨_, .reg hk (fun _ _ => rfl) (low (by decide))⟩
  · obtain ⟨rfl, rfl, rfl, img, rfl⟩ := bootimg
    exact ⟨_, .reg hk (fun _ _ => rfl) (by decide)⟩
  · obtain ⟨rfl, rfl, rfl, rfl | rfl⟩ := reset <;>
      exact ⟨_, .glbReset (fun _ _ => rfl) rfl (fun _ _ s => by simp [State.glbResetPut])⟩
  · obtain ⟨rfl, rfl, rfl | rfl⟩ := rpt <;> exact ⟨_, .reg hk (fun _ _ => rfl) (low (by decide))⟩

/-- Settles O5: each command performs a write of its register's offset (`WritesRegister.performs`), and such a write reaches it by who makes it. -/
theorem registerWritesOfEachRequester : Obligations.RegisterWritesOfEachRequester := by
  intro s w off sz v hw
  obtain ⟨f, hf⟩ := hw.performs
  refine ⟨?_, fun c i => ⟨fun h => ?_, fun d hd hwr hpa hval hat => ⟨fun h => ?_, fun p hp hr hsz => ?_⟩⟩⟩
  · refine hf.kiln.imp (fun h => ?_) id
    rw [hf.exec_eq, hf.exec_eq, h]; rfl
  · rw [hf.exec_eq]
    refine State.ctlWrite_ctx_waits _ _ fun d hd ⟨hwr, hpa, hval, hat⟩ => ?_
    rcases h d hd with h | h | h | h
    · simp [hwr] at h
    · exact h hpa
    · exact h hval
    · omega
  · have hn : ¬ (s.mayReach (.ctx c i) off = true ∧ d.sz = sz) := by
      rintro ⟨hr, hsz⟩
      obtain ⟨p, hp, hr⟩ := (s.mayReach_ctx_iff c i off).mp hr
      rcases h with h | h
      · exact h hsz
      · simp [h p hp] at hr
    rw [hf.exec_eq, State.ctlWrite_ctx_arrived hd ⟨hwr, hpa, hval, hat⟩, if_neg hn]
  · have hy : s.mayReach (.ctx c i) off = true := (s.mayReach_ctx_iff c i off).mpr ⟨p, hp, hr⟩
    refine ⟨f .kiln s, hf.exec_eq _ _, ?_⟩
    rw [hf.exec_eq, State.ctlWrite_ctx_arrived hd ⟨hwr, hpa, hval, hat⟩, if_pos ⟨hy, hsz⟩, hf.core]

end Sys2Proof.Machine
end

section
/-! The state of reset (R11, R38, R337, R339): every register holds its reset value, and every core and context the default. -/

namespace Sys2Proof.Machine

/-- A field after reset is that of its register's reset value. -/
theorem State.fget_reset (f : Fld) (i j : Nat) : State.reset.fget f i j = bits (f.kind.resetVal i j) f.lo f.len := rfl

/-- R70, R71: a route's register after reset holds LEVEL at most. -/
theorem RegKind.resetVal_irtRoute (i j : Nat) : RegKind.irtRoute.resetVal i j = 2 ∨ RegKind.irtRoute.resetVal i j = 0 := by
  unfold RegKind.resetVal
  dsimp only
  split
  · exact .inl rfl
  · exact .inr rfl

/-- R70, R71: no route is enabled or has a delivery on its way. -/
theorem State.routes_reset (n : Nat) : State.reset.fget .irtRouteEn n = 0 ∧ State.reset.fget .irtRouteSent n = 0 := by
  rcases RegKind.resetVal_irtRoute n 0 with h | h <;>
  · simp only [State.fget_reset, Fld.irtRouteEn, Fld.irtRouteSent, h]
    decide

/-- R178: partition 0 starts with every way of the MSC, and no other with any. -/
theorem RegKind.resetVal_hsMscway (n p : Nat) : RegKind.hsMscway.resetVal n p = if p = 0 then 0xFFFF else 0 := rfl

/-- R152: each die's fuses hold its position. -/
theorem State.diePosition_reset : ∀ d < 12, bits ((State.reset.die d).fuses.getD 0 0) 0 4 = d := by decide

/-- Settles O2, from the registers' reset values. -/
theorem resetState : Obligations.ResetState := by
  refine ⟨rfl, ⟨rfl, rfl, rfl⟩, rfl, rfl, fun c i => ⟨rfl, fun n => ?_⟩, fun c => ⟨rfl, rfl, rfl, rfl, rfl, rfl, rfl, rfl⟩, fun p _ => ?_,
    fun n => ⟨?_, ?_, fun p hp => ?_⟩, State.routes_reset, fun n => ?_, ?_, ?_, fun d hd => State.diePosition_reset d hd⟩
  · exact ite_self _
  · exact (by decide : bits (fieldsReset RegKind.prtCtl.fields) 0 2 = 0)
  · exact (by decide : bits (fieldsReset RegKind.hsTmo.fields) 0 24 = 0x100000)
  · exact RegKind.resetVal_hsMscway n 0
  · exact (RegKind.resetVal_hsMscway n p).trans (if_neg hp)
  · exact (by decide : fieldsReset RegKind.rptCtl.fields = 0x13C)
  · exact (by decide : fieldsReset RegKind.slpCfg.fields = 0x10081F)
  · exact (by decide : fieldsReset RegKind.pwrWakecfg.fields = 0x10FF)

end Sys2Proof.Machine
end

section
/-! The fault check of a data access, one lemma for each of its steps (R6, R8, R25, R28, R60, R61, R63, R75). -/

namespace Sys2Proof.Machine

section
variable (s : State) (t : Nat) (h : Ins) (old : Ctx) (kind : AKind) (va size : Nat) (atomic : Bool) (mis : Nat)

/-- The trap that a failed fault check takes: its handler is entered three cycles later (R28). -/
def State.checkTrap (tr : Trap) : State := s.modCore h.core (fun k => k.syncTrap t h tr (t + 3))

/-- What is checked of an access that has been translated: PMP, the memory type of an atomic, the physical window. -/
def State.checkPhys (pa mt : Nat) : Chk :=
  let pa0 := if mis = 0 then pa / size * size else pa
  if !(s.core h.core).pmpOk ((s.ctx h.core h.ctx).effPrv kind) kind pa0 size then
    .stop (s.checkTrap t h { cause := kind.accessFault, tval := BitVec.ofNat 64 va })
  else if atomic && mt ≠ 0 then .stop (s.checkTrap t h { cause := 7, tval := BitVec.ofNat 64 va })
  else
    match s.physReason (s.corePart h.core) pa0 size with
    | some r => .stop (s.checkTrap t h { cause := kind.accessFault, tval := BitVec.ofNat 64 va, reason := r })
    | none => .ok pa mt

variable {va size mis}

/-- Alignment is checked first. -/
theorem State.check_misaligned (ha : va % size ≠ 0) (hm : mis ≠ 0) :
    s.check t h old kind va size atomic mis = .stop (s.checkTrap t h { cause := mis, tval := BitVec.ofNat 64 va }) := if_pos ⟨ha, hm⟩

/-- Then the address is translated: a fault of the translation is the access's. -/
theorem State.check_fault (ha : va % size = 0 ∨ mis = 0) {tr : Trap} (hx : s.xlate h.core h.ctx kind va = .fault tr) :
    s.check t h old kind va size atomic mis = .stop (s.checkTrap t h tr) := by
  have hn : ¬ (va % size ≠ 0 ∧ mis ≠ 0) := fun ⟨hne, hm⟩ => ha.elim hne hm
  unfold State.check
  rw [if_neg hn, hx]; rfl

/-- A translated access goes on to the checks of its physical address. -/
theorem State.check_translated (ha : va % size = 0 ∨ mis = 0) {pa mt : Nat} (hx : s.xlate h.core h.ctx kind va = .ok pa mt) :
    s.check t h old kind va size atomic mis = s.checkPhys t h kind va size atomic mis pa mt := by
  have hn : ¬ (va % size ≠ 0 ∧ mis ≠ 0) := fun ⟨hne, hm⟩ => ha.elim hne hm
  unfold State.check
  rw [if_neg hn, hx]; rfl

end

/-- Settles O9, step by step in the order of `State.check`. -/
theorem dataAccessCheck : Obligations.DataAccessCheck := by
  intro s t h old kind va size atomic mis pa mt traps htraps
  obtain rfl : traps = s.checkTrap t h := funext htraps
  refine ⟨s.check_misaligned t h old kind atomic, fun ha => ⟨fun tr hx => s.check_fault t h old kind atomic ha hx, fun hx pa0 hpa0 => ?_⟩⟩
  subst hpa0
  rw [s.check_translated t h old kind atomic ha hx]
  refine ⟨fun hpmp => ?_, fun hpmp => ⟨fun hat hmt => ?_, fun hmt => ⟨fun r hr => ?_, fun hr => ?_⟩⟩⟩
  · simp [State.checkPhys, hpmp]
  · simp [State.checkPhys, hpmp, hat, hmt]
  · have hn : (atomic && decide (mt ≠ 0)) = false := by rcases hmt with h | h <;> simp [h]
    simp only [State.checkPhys, hpmp, hn, hr]; rfl
  · have hn : (atomic && decide (mt ≠ 0)) = false := by rcases hmt with h | h <;> simp [h]
    simp only [State.checkPhys, hpmp, hn, hr]; rfl

end Sys2Proof.Machine
end

section
/-! CSR instructions: what `State.csrDo` does, one lemma for each way it goes, of an instruction that issues (R20, R56, R57, R58, R94, R367). -/

namespace Sys2Proof.Machine

/-- Every command that is a CSR instruction is one of the CSR that it names. -/
theorem CsrCommand.exec_eq {c : Instr} {h : Ins} {op : CsrOp} {csr rd src : Nat} (hc : CsrCommand c h op csr rd src) (s : State) :
    exec c s = s.csrDo h op csr rd src := by
  obtain rfl | rfl | ⟨rfl, rfl⟩ | ⟨rfl, rfl⟩ | ⟨rfl, rfl⟩ | ⟨rfl, rfl⟩ | ⟨rfl, rfl⟩ | ⟨rfl, rfl⟩ |
    ⟨rfl, rfl⟩ | ⟨rfl, rfl⟩ | ⟨rfl, rfl⟩ | ⟨rfl, rfl⟩ | ⟨rfl, rfl⟩ := hc <;> rfl

/-- R36: an instruction that waits for its context's stores issues when they have drained. -/
theorem State.issueDrained_issues {s : State} {h : Ins} {q : IssQ} (hi : Issues s h q) (hd : (s.core h.core).drained h.ctx = true)
    (f : State → Nat → State) : s.issueDrained h q f = .next (f (s.issuedDrained h q) (s.cyc h.core)) := by
  unfold State.issueDrained
  rw [if_pos hd, State.issue_issues hi]
  rfl

/-- The CSRs whose write waits for the context's stores to drain (R72, R94): sxltinv, mifpost and sifpost. -/
def csrDrains (csr : Nat) : Prop := csr = 0x5C6 ∨ csr = 0x7D4 ∨ csr = 0x5D4

/-- R72: an S-level post of a vector below 16. -/
def lowPost (op : CsrOp) (csr src : Nat) (x : Ctx) : Prop := csr = 0x5D4 ∧ csrWrites op src = true ∧ bits (csrOperand op x src) 0 6 < 16

section
variable {s : State} {h : Ins} {op : CsrOp} {csr src : Nat} {q : IssQ} (rd : Nat)

theorem State.csrDo_refused (hq : q = serialQ (csrSrcRegs op src ++ [rd])) (hi : Issues s h q)
    (hbad : s.csrOk h.core h.ctx csr (csrWrites op src) = false ∨ lowPost op csr src (s.ctx h.core h.ctx)) :
    s.csrDo h op csr rd src = .next ((s.issued h q).modCore h.core (fun k => k.illegal (s.cyc h.core) h)) := by
  subst hq
  have hc : (!s.csrOk h.core h.ctx csr (csrWrites op src) ||
      (csr == 0x5D4 && csrWrites op src && decide (bits (csrOperand op (s.ctx h.core h.ctx) src) 0 6 < 16))) = true := by
    rcases hbad with hbad | ⟨h1, h2, h3⟩
    · simp [hbad]
    · simp [h1, h2, h3]
  unfold State.csrDo
  exact (if_pos hc).trans (State.issueK_issues hi _)

/-- What a CSR instruction does that is neither refused nor made to wait: at the time it issues, `CsrResult` of the state it issues in. -/
def State.csrGo (h : Ins) (op : CsrOp) (csr rd src : Nat) (x : Ctx) (s : State) (t : Nat) : State :=
  let a := csrOperand op x src
  let old := s.csrOld h.core h.ctx csr
  let s := if csr = 0x7C2 then s.modCore h.core Core.ctxdataErr else s
  let s := if csrWrites op src then s.csrPut h.core h.ctx csr (csrNew op old a) (csrOnes op a) else s
  s.modCore h.core (fun k => (k.serialDone t h (some rd) (fun x => x.setX rd old)).intWake t h.ctx)

/-- An instruction that is not refused goes one of three ways, by its CSR and by whether it writes. -/
theorem State.csrDo_ok (hq : q = serialQ (csrSrcRegs op src ++ [rd])) (hok : s.csrOk h.core h.ctx csr (csrWrites op src) = true)
    (hl : ¬ lowPost op csr src (s.ctx h.core h.ctx)) :
    s.csrDo h op csr rd src =
      if (csrWrites op src && (csr == 0x5C6 || csr == 0x7D4 || csr == 0x5D4)) = true then
        if csr = 0x5C6 ∧ (s.ctx h.core h.ctx).xbusy = true then .next s
        else s.issueDrained h q (fun s' => s'.csrGo h op csr rd src (s.ctx h.core h.ctx))
      else if csr ≤ 3 then s.issueFpS h q (fun s' => s'.csrGo h op csr rd src (s.ctx h.core h.ctx))
      else s.issue h q (fun s' => s'.csrGo h op csr rd src (s.ctx h.core h.ctx)) := by
  subst hq
  have hc : ¬ (!s.csrOk h.core h.ctx csr (csrWrites op src) ||
      (csr == 0x5D4 && csrWrites op src && decide (bits (csrOperand op (s.ctx h.core h.ctx) src) 0 6 < 16))) = true := by
    simpa [hok, lowPost] using hl
  unfold State.csrDo
  exact if_neg hc

/-- An integer CSR's access, but for a write that waits for the stores. -/
theorem State.csrDo_plain (hq : q = serialQ (csrSrcRegs op src ++ [rd])) (hi : Issues s h q)
    (hok : s.csrOk h.core h.ctx csr (csrWrites op src) = true) (hn : 3 < csr) (hw : csrDrains csr → csrWrites op src = false) :
    s.csrDo h op csr rd src = .next (CsrResult s (s.issued h q) h op csr rd src) := by
  have hd : ¬ (csrWrites op src && (csr == 0x5C6 || csr == 0x7D4 || csr == 0x5D4)) = true := by
    simp only [Bool.and_eq_true, Bool.or_eq_true, beq_iff_eq, or_assoc]
    exact fun ⟨h1, h2⟩ => by simp [hw h2] at h1
  have hl : ¬ lowPost op csr src (s.ctx h.core h.ctx) := fun ⟨h1, h2, _⟩ => by simp [hw (.inr (.inr h1))] at h2
  rw [State.csrDo_ok rd hq hok hl, if_neg hd, if_neg (by omega), State.issue_issues hi]
  rfl

/-- R56: an FP CSR's access, with FS on and the FP part in the slot. -/
theorem State.csrDo_fp (hq : q = serialQ (csrSrcRegs op src ++ [rd])) (hi : Issues s h q)
    (hok : s.csrOk h.core h.ctx csr (csrWrites op src) = true) (hn : csr ≤ 3) (hfs : (s.ctx h.core h.ctx).fs ≠ 0)
    (hfp : (s.ctx h.core h.ctx).fpHere = true) : s.csrDo h op csr rd src = .next (CsrResult s (s.issued h q) h op csr rd src) := by
  have hd : ¬ (csrWrites op src && (csr == 0x5C6 || csr == 0x7D4 || csr == 0x5D4)) = true := by
    simp only [Bool.and_eq_true, Bool.or_eq_true, beq_iff_eq]
    omega
  have hl : ¬ lowPost op csr src (s.ctx h.core h.ctx) := fun ⟨h1, _⟩ => by omega
  rw [State.csrDo_ok rd hq hok hl, if_neg hd, if_pos hn, State.issueFpS_here _ _ _ _ hfs hfp, State.issue_issues hi]
  rfl

/-- R72, R94: a write of sxltinv or of a post, with the stores drained and BUSY clear. -/
theorem State.csrDo_drains (hq : q = serialQ (csrSrcRegs op src ++ [rd])) (hi : Issues s h q)
    (hok : s.csrOk h.core h.ctx csr (csrWrites op src) = true) (hc : csrDrains csr) (hw : csrWrites op src = true)
    (hd : (s.core h.core).drained h.ctx = true) (hb : csr = 0x5C6 → (s.ctx h.core h.ctx).xbusy = false)
    (hl : csr = 0x5D4 → 16 ≤ bits (csrOperand op (s.ctx h.core h.ctx) src) 0 6) :
    s.csrDo h op csr rd src = .next (CsrResult s (s.issuedDrained h q) h op csr rd src) := by
  have hp : (csrWrites op src && (csr == 0x5C6 || csr == 0x7D4 || csr == 0x5D4)) = true := by
    simp only [Bool.and_eq_true, Bool.or_eq_true, beq_iff_eq, or_assoc]
    exact ⟨hw, hc⟩
  have hx : ¬ (csr = 0x5C6 ∧ (s.ctx h.core h.ctx).xbusy = true) := fun ⟨h1, h2⟩ => by simp [hb h1] at h2
  have hlow : ¬ lowPost op csr src (s.ctx h.core h.ctx) := fun ⟨h1, _, h3⟩ => absurd (hl h1) (by omega)
  rw [State.csrDo_ok rd hq hok hlow, if_pos hp, if_neg hx, State.issueDrained_issues hi hd]
  rfl

end

/-- Settles O15: each CSR command is `csrDo` of its CSR, whose ways are the lemmas above. -/
theorem csrInstructions : Obligations.CsrInstructions := by
  rintro s c h op csr rd src x q hc rfl hq hi
  rw [hc.exec_eq]
  refine ⟨fun hok => State.csrDo_refused rd hq hi (.inl hok), fun hok => ⟨fun hn h1 h2 h3 => ?_, fun hn hfs hfp => ?_, fun hp hw => ?_,
    fun hp hw hd hb hl => ?_, fun hp hw hl => ?_⟩⟩
  · exact State.csrDo_plain rd hq hi hok hn fun hp => by rcases hp with hp | hp | hp <;> contradiction
  · exact State.csrDo_fp rd hq hi hok hn hfs hfp
  · exact State.csrDo_plain rd hq hi hok (by omega) fun _ => hw
  · exact State.csrDo_drains rd hq hi hok hp hw hd hb hl
  · exact State.csrDo_refused rd hq hi (.inr ⟨hp, hw, hl⟩)

end Sys2Proof.Machine
end

section
/-! What logging leaves alone, and what the loss of a die, of a package or of a core leaves of the die registers and of GLB_ERRSTAT.FATAL (R130, R131, R166,
R222, R345, R346). -/

namespace Sys2Proof.Machine

/-- The dies and their status registers are as before, and a FATAL error stays shown. -/
structure Steady (s t : State) : Prop where
  dies : t.dies = s.dies
  dstat : ∀ d j, t.rget .slpDstat d j = s.rget .slpDstat d j
  fatal : s.fget .glbErrstatFatal = 1 → t.fget .glbErrstatFatal = 1

/-- As `Steady`, and the cores, the partitions, the homes, memory, the commands with their relays and replies, and the watchdog are as before. -/
structure Logged (s t : State) : Prop extends Steady s t where
  cores : t.cores = s.cores
  parts : t.parts = s.parts
  home : t.home = s.home
  mem : t.mem = s.mem
  cmds : t.kiln.cmds = s.kiln.cmds
  replies : t.kiln.replies = s.kiln.replies
  wdog : t.kiln.wdog = s.kiln.wdog
  relays : t.reel.relays = s.reel.relays

@[simp] theorem Steady.refl (s : State) : Steady s s := ⟨rfl, fun _ _ => rfl, id⟩

theorem Steady.trans {s t u : State} (h : Steady s t) (g : Steady t u) : Steady s u :=
  ⟨g.dies.trans h.dies, fun d j => (g.dstat d j).trans (h.dstat d j), fun f => g.fatal (h.fatal f)⟩

@[simp] theorem Logged.refl (s : State) : Logged s s := ⟨.refl s, rfl, rfl, rfl, rfl, rfl, rfl, rfl, rfl⟩

theorem Logged.trans {s t u : State} (h : Logged s t) (g : Logged t u) : Logged s u :=
  ⟨h.toSteady.trans g.toSteady, g.cores.trans h.cores, g.parts.trans h.parts, g.home.trans h.home, g.mem.trans h.mem, g.cmds.trans h.cmds,
    g.replies.trans h.replies, g.wdog.trans h.wdog, g.relays.trans h.relays⟩

/-- A change of neither the registers nor the dies is steady. -/
theorem Steady.of {s t u : State} (h : Steady s t) (hc : u.cs = t.cs) (hd : u.dies = t.dies) : Steady s u := by
  have hr : ∀ k i j, u.rget k i j = t.rget k i j := fun k i j => by unfold State.rget; rw [hc]
  exact h.trans ⟨hd, fun d j => hr _ d j, fun f => by unfold State.fget at *; rwa [hr]⟩

/-- The registers of every kind but SLP_DSTAT may change, and in GLB_ERRSTAT every field but FATAL. -/
theorem Steady.fput {s : State} (f : Fld) (i j v : Nat) (hd : f.kind ≠ .slpDstat)
    (he : f.kind ≠ .glbErrstat ∨ 3 ≤ f.lo ∨ f.lo + f.len ≤ 2) : Steady s (s.fput f i j v) := by
  refine ⟨rfl, fun d k => State.rget_fput_ne _ _ _ _ _ _ _ _ hd.symm, fun h => ?_⟩
  rw [← h]
  rcases he with he | he
  · exact State.fget_fput_ne _ _ _ _ _ _ _ _ he.symm
  · exact State.fget_fput_disjoint _ _ _ _ _ _ _ _ he

/-- A change of a field of a register, as `Steady.fput`, touches no more than the registers. -/
theorem Logged.fput {s : State} (f : Fld) (i j v : Nat) (hd : f.kind ≠ .slpDstat)
    (he : f.kind ≠ .glbErrstat ∨ 3 ≤ f.lo ∨ f.lo + f.len ≤ 2) : Logged s (s.fput f i j v) :=
  ⟨.fput f i j v hd he, rfl, rfl, rfl, rfl, rfl, rfl, rfl, rfl⟩

/-- A FATAL error is shown in GLB_ERRSTAT. -/
theorem State.fget_fatal_errBit (s : State) : (s.errBit 3).fget .glbErrstatFatal = 1 :=
  State.fget_fput s .glbErrstatFatal 0 0 1 (by decide)

theorem errBit_logged (s : State) (cls : Nat) : Logged s (s.errBit cls) := by
  unfold State.errBit
  split
  · exact .fput _ _ _ _ (by decide) (by decide)
  split
  · exact .fput _ _ _ _ (by decide) (by decide)
  split
  · exact ⟨⟨rfl, fun d k => State.rget_fput_ne _ _ _ _ _ _ _ _ (by decide), fun _ => State.fget_fatal_errBit s⟩, rfl, rfl, rfl, rfl,
      rfl, rfl, rfl, rfl⟩
  · exact .refl s

theorem notify_logged (s : State) (part : Option Nat) (n : Notice) : Logged s (s.notify part n) := by
  unfold State.notify
  cases part <;> exact ⟨Steady.of (.refl s) rfl rfl, rfl, rfl, rfl, rfl, rfl, rfl, rfl, rfl⟩

theorem logRaw_logged (s : State) (e : Ev) : Logged s (s.logRaw e).1 := by
  have put (t : State) (l a : List LogRec) : Logged t { t with kiln := { t.kiln with log := l, aonLog := a } } :=
    ⟨Steady.of (.refl t) rfl rfl, rfl, rfl, rfl, rfl, rfl, rfl, rfl, rfl⟩
  have drop (t : State) : Logged t (t.fbump .glbErrstatDropped 0 0) := .fput _ _ _ _ (by decide) (by decide)
  have seq (t : State) (n : Nat) : Logged t (t.fput .glbErrstatNextseq 0 0 n) := .fput _ _ _ _ (by decide) (by decide)
  unfold State.logRaw
  dsimp only
  split
  · exact .trans (put s _ s.kiln.aonLog) (errBit_logged _ 1)
  split
  · exact (drop s).trans (errBit_logged _ e.cls)
  · refine .trans (.trans (.trans (.trans ?_ (put _ _ _)) (seq _ _)) (errBit_logged _ _)) (notify_logged _ _ _)
    split
    · exact .refl s
    · exact drop s

/-- What a message to another package leaves alone. -/
theorem reelSend_logged (s : State) (q : Nat) (m : RMsg) : Logged s (s.reelSend q m) := by
  unfold State.reelSend
  dsimp only
  split
  · exact ⟨Steady.of (.refl s) rfl rfl, rfl, rfl, rfl, rfl, rfl, rfl, rfl, rfl⟩
  split
  · exact ⟨Steady.of (.refl s) rfl rfl, rfl, rfl, rfl, rfl, rfl, rfl, rfl, rfl⟩
  · exact .refl s

theorem send_logged (s : State) (m : Msg) (at_ : Nat) : Logged s (s.send m at_) :=
  ⟨Steady.of (.refl s) rfl rfl, rfl, rfl, rfl, rfl, rfl, rfl, rfl, rfl⟩

theorem sendDeliver_logged (s : State) (r hart vec : Nat) : Logged s (s.sendDeliver r hart vec) := by
  unfold State.sendDeliver
  split
  · exact .refl s
  dsimp only
  split
  · exact send_logged _ _ _
  · exact reelSend_logged _ _ _

theorem routeIdle_logged (s : State) (r : Nat) : Logged s (s.routeIdle r) :=
  .trans (.trans (.fput _ _ _ _ (by decide) (by decide)) (.fput _ _ _ _ (by decide) (by decide))) (.fput _ _ _ _ (by decide) (by decide))

theorem tryDeliver_logged (s : State) (r : Nat) : Logged s (s.tryDeliver r).1 := by
  unfold State.tryDeliver
  split
  · split
    · exact .trans (.fput _ _ _ _ (by decide) (by decide)) (sendDeliver_logged _ _ _ _)
    · exact routeIdle_logged s r
  · exact .refl s

theorem fireCe_logged (s : State) : Logged s s.fireCe := by
  unfold State.fireCe
  split
  · exact .refl s
  split
  · dsimp only
    split
    · exact (tryDeliver_logged s 425).trans (logRaw_logged _ _)
    · exact tryDeliver_logged s 425
  · exact .fput _ _ _ _ (by decide) (by decide)

/-- R346: what an entry in the log leaves alone. -/
theorem logEvent_logged (s : State) (e : Ev) : Logged s (s.logEvent e) := by
  unfold State.logEvent
  dsimp only
  split
  · exact (logRaw_logged s e).trans (fireCe_logged _)
  · exact logRaw_logged s e

/-- R345, R349: a FATAL event shows in GLB_ERRSTAT, whether the log has room or not. -/
theorem State.fget_fatal_logEvent (s : State) {e : Ev} (he : e.cls = 3) : (s.logEvent e).fget .glbErrstatFatal = 1 := by
  have hraw : (s.logRaw e).1.fget .glbErrstatFatal = 1 := by
    unfold State.logRaw
    rw [he]
    dsimp only
    rw [if_neg (by simp)]
    split
    · exact State.fget_fatal_errBit _
    · exact (notify_logged _ _ _).fatal (State.fget_fatal_errBit _)
  unfold State.logEvent
  rw [he]
  simpa using hraw

/-- R218: what a relay to another kiln leaves alone. -/
theorem krelaySend_logged (s : State) (q : Nat) (k : KRelay) : Logged s (s.krelaySend q k) := by
  have out (l : List (Nat × KRelay)) : Logged s { s with reel := { s.reel with relayOut := l } } :=
    ⟨Steady.of (.refl s) rfl rfl, rfl, rfl, rfl, rfl, rfl, rfl, rfl, rfl⟩
  exact .trans (out _) (reelSend_logged _ q _)

theorem Logged.foldl {α : Type} (f : State → α → State) (hf : ∀ t x, Logged t (f t x)) (l : List α) (s : State) : Logged s (l.foldl f s) := by
  induction l generalizing s with
  | nil => exact .refl s
  | cons x l ih => exact (hf s x).trans (ih _)

end Sys2Proof.Machine
end

section
/-! The loss of a die and of a package, operation by operation: none touches the dies, their status registers or a FATAL error shown (R130, R131, R222,
R223, R341). -/

namespace Sys2Proof.Machine

theorem Steady.logged {s0 s t : State} (h : Steady s0 s) (g : Logged s t) : Steady s0 t := h.trans g.toSteady

/-- As `Steady.fput`, after other operations. -/
theorem Steady.put {s0 s : State} (h : Steady s0 s) (f : Fld) (i j v : Nat) (hd : f.kind ≠ .slpDstat)
    (he : f.kind ≠ .glbErrstat ∨ 3 ≤ f.lo ∨ f.lo + f.len ≤ 2) : Steady s0 (s.fput f i j v) := h.trans (.fput f i j v hd he)

theorem steady_ite {s0 a b : State} (c : Prop) [Decidable c] (ha : Steady s0 a) (hb : Steady s0 b) : Steady s0 (if c then a else b) := by
  split
  · exact ha
  · exact hb

theorem steady_foldl {α : Type} {s0 s : State} (f : State → α → State) (l : List α) (h : Steady s0 s)
    (hf : ∀ t x, Steady t (f t x)) : Steady s0 (l.foldl f s) := by
  induction l generalizing s with
  | nil => exact h
  | cons x l ih => exact ih (h.trans (hf s x))

section
variable {s0 s : State} (h : Steady s0 s)
include h

theorem logEvent_steady (e : Ev) : Steady s0 (s.logEvent e) := h.logged (logEvent_logged s e)
theorem reelSend_steady (q : Nat) (m : RMsg) : Steady s0 (s.reelSend q m) := h.logged (reelSend_logged s q m)
theorem krelaySend_steady (q : Nat) (k : KRelay) : Steady s0 (s.krelaySend q k) := h.logged (krelaySend_logged s q k)
theorem send_steady (m : Msg) (at_ : Nat) : Steady s0 (s.send m at_) := h.logged (send_logged s m at_)
theorem notify_steady (p : Option Nat) (n : Notice) : Steady s0 (s.notify p n) := h.logged (notify_logged s p n)
theorem routeIdle_steady (r : Nat) : Steady s0 (s.routeIdle r) := h.logged (routeIdle_logged s r)
theorem setCore_steady (c : Nat) (k : Core) : Steady s0 (s.setCore c k) := h.of rfl rfl
theorem modSlice_steady (n : Nat) (f : Slice → Slice) : Steady s0 (s.modSlice n f) := h.of rfl rfl
theorem modRport_steady (k : Nat) (f : RPort → RPort) : Steady s0 (s.modRport k f) := h.of rfl rfl
theorem modTrk_steady (n line : Nat) (f : Trk → Trk) : Steady s0 (s.modTrk n line f) := h.of rfl rfl
theorem pev_steady (kind code idx part n : Nat) : Steady s0 (s.pev kind code idx part n) := h.of rfl rfl
theorem dramStore_steady (line : Nat) (d : LineData) (l : List Nat) : Steady s0 (s.dramStore line d l) := h.of rfl rfl
theorem openRow_steady (line : Nat) : Steady s0 (s.openRow line) := h.of rfl rfl
theorem setMsc_steady (line : Nat) (m : Msc) : Steady s0 (s.setMsc line m) := h.of rfl rfl
theorem dropMsc_steady (line : Nat) : Steady s0 (s.dropMsc line) := h.of rfl rfl
theorem takeFree_steady : Steady s0 s.takeFree := h.of rfl rfl
theorem kmod_steady (id : Nat) (f : KCmd → KCmd) : Steady s0 (s.kmod id f) := h.of rfl rfl
theorem dupDel_steady (line core : Nat) : Steady s0 (s.dupDel line core) := h.of rfl rfl
theorem dupSet_steady (line core : Nat) (m : Bool) (way : Nat) : Steady s0 (s.dupSet line core m way) := h.of rfl rfl

/-! The cores and the memory of a die that is lost. -/

theorem sendComplete_steady (hart vec : Nat) : Steady s0 (s.sendComplete hart vec) :=
  steady_foldl _ _ (send_steady h _ _) fun t _ => steady_ite _ (reelSend_steady (.refl t) _ _) (.refl t)

theorem loseCore_steady (c : Nat) : Steady s0 (s.loseCore c) :=
  setCore_steady (steady_foldl _ _ h fun t _ => steady_ite _ (.refl t) (sendComplete_steady (.refl t) _ _)) _ _

theorem bytes_steady (kind idx part : Nat) (a : Bool) (n : Nat) : Steady s0 (s.bytes kind idx part a n) :=
  steady_foldl _ _ h fun t w => by
    split
    · split
      · exact Steady.of (.refl t) rfl rfl
      · exact Steady.of (.refl t) rfl rfl
    · exact .refl t

theorem dramWrite_steady (line : Nat) (d : LineData) (p : Bool) : Steady s0 (s.dramWrite line d p) :=
  dramStore_steady (openRow_steady (bytes_steady (pev_steady (pev_steady h _ _ _ _ _) _ _ _ _ _) _ _ _ _ _) _) _ _ _

theorem evictMsc_steady (line : Nat) : Steady s0 (s.evictMsc line) := by
  unfold State.evictMsc
  split
  · exact h
  · exact steady_ite _ (dramWrite_steady (dropMsc_steady h _) _ _ _) (dropMsc_steady h _)

theorem mscInstall_steady (line : Nat) (d : LineData) (dirty p : Bool) : Steady s0 (s.mscInstall line d dirty p) := by
  unfold State.mscInstall
  dsimp only
  split
  · exact setMsc_steady h _ _
  split
  · exact setMsc_steady h _ _
  · refine setMsc_steady (takeFree_steady ?_) _ _
    split
    · exact evictMsc_steady h _
    · exact h

theorem trigMatch_steady (line : Nat) : Steady s0 (s.trigMatch line) := steady_foldl _ _ h fun t _ => Steady.of (.refl t) rfl rfl

theorem mscWrite_steady (line : Nat) (d : LineData) (p : Bool) : Steady s0 (s.mscWrite line d p) :=
  steady_ite _ h (trigMatch_steady (mscInstall_steady h _ _ _ _) _)

theorem poisonLine_steady (line lost : Nat) : Steady s0 (s.poisonLine line lost) :=
  logEvent_steady (mscWrite_steady h _ _ _) _

/-! Answers, grants and releases at a home slice. -/

theorem setVec_steady (line : Nat) (v : BitVec 8) : Steady s0 (s.setVec line v) := by
  unfold State.setVec
  dsimp only
  split
  · exact setMsc_steady (by exact h.of rfl rfl) _ _
  · exact h.of rfl rfl

theorem closeAt_steady (n line f : Nat) : Steady s0 (s.closeAt n line f) := by
  unfold State.closeAt
  split
  · exact h
  · exact steady_ite _ (steady_ite _ (modTrk_steady h _ _ _) (send_steady (modTrk_steady h _ _ _) _ _)) h

theorem respond_steady (r : Msg) (kind : MsgKind) (op : ReelOp) (launch : Nat) (d : Option LineData) (status : Nat) (v : W64) :
    Steady s0 (s.respond r kind op launch d status v) :=
  steady_ite _ (send_steady h _ _) (reelSend_steady h _ _)

theorem refuse_steady (n : Nat) (t : Trk) (launch reason : Nat) : Steady s0 (s.refuse n t launch reason) :=
  closeAt_steady (modTrk_steady (steady_ite _ h (respond_steady h _ _ _ _ _ _ _)) _ _ _) _ _ _

theorem grantTo_steady (r : Msg) (m : Bool) : Steady s0 (s.grantTo r m) :=
  steady_ite _ (steady_ite _ (setVec_steady (steady_ite _ h (dupSet_steady h _ _ _ _)) _ _) (steady_ite _ h (dupSet_steady h _ _ _ _)))
    (setVec_steady h _ _)

theorem grantDone_steady (n line f : Nat) : Steady s0 (s.grantDone n line f) :=
  closeAt_steady (modTrk_steady h _ _ _) _ _ _

theorem farWrite_steady (line : Nat) (d : Option LineData) : Steady s0 (s.farWrite line d) := by
  cases d
  · exact h
  · exact mscWrite_steady h _ _ _

theorem grantNow_steady (n line launch : Nat) (t : Trk) : Steady s0 (s.grantNow n line launch t) := by
  unfold State.grantNow
  cases t.data <;> simp (maxDischargeDepth := 8) [h, steady_ite, respond_steady, grantTo_steady, grantDone_steady, farWrite_steady]

theorem tryGrant_steady (n line launch : Nat) : Steady s0 (s.tryGrant n line launch) := by
  unfold State.tryGrant
  split
  · exact h
  · exact steady_ite _ h (steady_ite _ (refuse_steady h _ _ _ _) (steady_ite _ h (grantNow_steady h _ _ _ _)))

theorem settle_steady (n line : Nat) : Steady s0 (s.settle n line) := by
  unfold State.settle
  dsimp only
  split
  · exact closeAt_steady (steady_ite _ (tryGrant_steady h _ _ _) h) _ _ _
  · exact closeAt_steady h _ _ _

theorem remoteAnswer_steady (n : Nat) (t : Trk) : Steady s0 (s.remoteAnswer n t) :=
  reelSend_steady (modSlice_steady h _ _) _ _

theorem copyEnds_steady (n line core : Nat) (d : Option LineData) (p a : Bool) : Steady s0 (s.copyEnds n line core d p a) :=
  steady_foldl _ _ (modSlice_steady h _ _) fun t _ => remoteAnswer_steady (.refl t) _ _

theorem forwardRelease_steady (n : Nat) (m : Msg) : Steady s0 (s.forwardRelease n m) :=
  reelSend_steady (modSlice_steady h _ _) _ _

theorem loseHolder_steady (d : Nat) (e : Dup) : Steady s0 (s.loseHolder d e) :=
  steady_ite _ (dupDel_steady h _ _) (steady_ite _ (poisonLine_steady (dupDel_steady h _ _) _ _) (forwardRelease_steady (dupDel_steady h _ _) _ _))

/-- R130: what a home slice does for a lost die. -/
theorem sliceLoses_steady (d n : Nat) : Steady s0 (s.sliceLoses d n) :=
  steady_foldl _ _ (modSlice_steady (steady_foldl _ _ (steady_foldl _ _ h fun t _ => copyEnds_steady (.refl t) _ _ _ _ _ _)
    fun t _ => loseHolder_steady (.refl t) _ _) _ _) fun t _ => settle_steady (.refl t) _ _

/-! The loss of a package. -/

theorem snoop_steady (n line core : Nat) (inv : Bool) (launch : Nat) : Steady s0 (s.snoop n line core inv launch) :=
  pev_steady (send_steady h _ _) _ _ _ _ _

theorem trkLoses_steady (n r : Nat) (t : Trk) : Steady s0 (s.trkLoses n r t) :=
  modTrk_steady h _ _ _

theorem sliceLosesPkg_steady (r n : Nat) : Steady s0 (s.sliceLosesPkg r n) := by
  have h1 (t : State) (l : List Trk) : Steady t (l.foldl (fun t x => t.trkLoses n r x) t) :=
    steady_foldl _ _ (.refl t) fun u _ => trkLoses_steady (.refl u) _ _ _
  have h2 (t : State) (l : List Trk) : Steady t (l.foldl (fun t x => t.refuse n { x with remote := false } (t.fcyc + 1) rPeerLost) t) :=
    steady_foldl _ _ (.refl t) fun u _ => refuse_steady (.refl u) _ _ _ _
  have h3 (t : State) (l : List Msg) : Steady t (l.foldl (fun t m => if m.core < 240 then t.send { m with
      kind := if m.kind = .wb then .wbAck else .evcAck, slice := n } (t.fcyc + 3) else t) t) :=
    steady_foldl _ _ (.refl t) fun u _ => steady_ite _ (send_steady (.refl u) _ _) (.refl u)
  exact steady_foldl _ _ (steady_foldl _ _ (modSlice_steady (((modSlice_steady (h.trans (h1 _ _)) _ _).trans (h2 _ _)).trans (h3 _ _)) _ _)
    fun t _ => modSlice_steady (snoop_steady (.refl t) _ _ _ _ _) _ _) fun t _ => settle_steady (.refl t) _ _

theorem vecsLose_steady (r : Nat) : Steady s0 (s.vecsLose r) :=
  steady_foldl _ _ h fun t _ => steady_ite _ (poisonLine_steady (setVec_steady (.refl t) _ _) _ _) (setVec_steady (.refl t) _ _)

theorem kfinish_steady (c : KCmd) (p : List W64) : Steady s0 (s.kfinish c p) := by
  have hk (k : Kiln) : Steady s0 { s with kiln := k } := h.of rfl rfl
  unfold State.kfinish
  split
  · exact krelaySend_steady (hk _) _ _
  · split
    · exact hk _
    · exact logEvent_steady (hk _) _
  · exact hk _

theorem kgather_steady (c : KCmd) : Steady s0 (s.kgather c) := by
  unfold State.kgather
  dsimp only
  split
  · exact h
  split
  · exact kfinish_steady h _ _
  · exact kfinish_steady h _ _
  · exact kfinish_steady h _ _
  · exact h

theorem kreply_steady (id status : Nat) (v : W64) (more : List W64) : Steady s0 (s.kreply id status v more) := by
  have hp (c : KCmd) : Steady s0 (s.partReason c status) := steady_ite _ (h.put _ _ _ _ (by decide) (by decide)) h
  unfold State.kreply
  split
  · exact h
  · exact kgather_steady (kmod_steady (by exact (hp _).of rfl rfl) _ _) _

theorem kreplied_steady (rid : Nat) (p : List W64) : Steady s0 (s.kreplied rid p) := by
  unfold State.kreplied
  split
  · exact h
  · dsimp only
    split
    · split
      · exact h.of rfl rfl
      · exact kgather_steady (by exact h.of rfl rfl) _
    · exact h.of rfl rfl

theorem relaysLose_steady (r : Nat) : Steady s0 (s.relaysLose r) :=
  steady_foldl _ _ h fun t x => by
    split
    · exact kreplied_steady (.refl t) _ _
    · exact .refl t

theorem spawnReply_steady (m : Msg) (v : W64) : Steady s0 (s.spawnReply m v) := by
  unfold State.spawnReply
  split
  · exact h
  · exact steady_ite _ (send_steady h _ _) (reelSend_steady h _ _)

theorem spawnsLose_steady (r : Nat) : Steady s0 (s.spawnsLose r) :=
  steady_foldl _ _ h fun t _ => steady_foldl _ _ (.refl t) fun u _ => by
    split
    · exact steady_ite _ (spawnReply_steady (.refl u) _ _) (.refl u)
    · exact .refl u

theorem partsLose_steady (r : Nat) : Steady s0 (s.partsLose r) :=
  steady_foldl _ _ h fun _ _ => notify_steady (.fput _ _ _ _ (by decide) (by decide)) _ _

theorem ncLoses_steady (r : Nat) : Steady s0 (s.ncLoses r) := h.of rfl rfl

theorem routesLose_steady (r : Nat) : Steady s0 (s.routesLose r) :=
  steady_foldl _ _ h fun t _ => logEvent_steady (routeIdle_steady (.refl t) _) _

theorem linksDown_steady (r reason : Nat) : Steady s0 (s.linksDown r reason) :=
  steady_foldl _ _ h fun t k => by
    have hr (u : State) (hu : Steady t u) : Steady t (((u.fput .reelStatState k 0 5).fput .reelStatReason k 0 reason).modRport k (fun _ => {})) :=
      modRport_steady ((hu.put _ _ _ _ (by decide) (by decide)).put _ _ _ _ (by decide) (by decide)) _ _
    dsimp only
    split
    · exact hr _ (kreply_steady (.refl t) _ _ _ _)
    · exact hr _ (.refl t)

/-- R131, R222, R223, R235: what the loss of a package leaves alone. -/
theorem losePackage_steady (r : Nat) : Steady s0 (s.losePackage r) := by
  unfold State.losePackage
  split
  · exact h
  · have fab (t : State) (f : Fab) : Steady t { t with fab := f } := Steady.of (.refl t) rfl rfl
    have reel (t : State) (l : Reel) : Steady t { t with reel := l } := Steady.of (.refl t) rfl rfl
    refine logEvent_steady (routesLose_steady (partsLose_steady (ncLoses_steady (spawnsLose_steady (relaysLose_steady (.trans ?_ (fab _ _)) r) r) r) r) r) _
    refine .put (vecsLose_steady (steady_foldl _ _ ?_ fun t n => sliceLosesPkg_steady (.refl t) r n) r) _ _ _ _ (by decide) (by decide)
    exact (linksDown_steady h r _).trans (reel _ _)

/-- R222: what a package that expels itself leaves alone. -/
theorem expelSelf_steady : Steady s0 s.expelSelf := by
  have hl (t : State) (l : List Nat) : Steady t (l.foldl (fun t q => t.losePackage q) t) :=
    steady_foldl _ _ (.refl t) fun u q => losePackage_steady (.refl u) q
  exact Steady.put (by exact (h.trans (hl s _)).of rfl rfl) .reelSysLead _ _ _ (by decide) (by decide)

end

end Sys2Proof.Machine
end

section
/-! The resets and what the power-good and thermal events do (R11, R12, R166, R281, R337, R338, R340, R345). -/

namespace Sys2Proof

/-! Tables mapped and filtered. -/

theorem Tab.get_map {V W : Type} (f : V → W) (d : V) (m : Tab V) (i : Nat) :
    Tab.get (f d) (m.map (fun e => (e.1, f e.2))) i = f (Tab.get d m i) := by
  induction m with
  | nil => rfl
  | cons e m ih =>
    simp only [List.map_cons, Tab.get]
    split
    · rfl
    · exact ih

theorem Tab.find_map {V W : Type} (f : V → W) (m : Tab V) (i : Nat) :
    Tab.find (m.map (fun e => (e.1, f e.2))) i = (Tab.find m i).map f := by
  induction m with
  | nil => rfl
  | cons e m ih =>
    simp only [List.map_cons, Tab.find]
    split
    · rfl
    · exact ih

theorem Tab.get_filter_key {V : Type} (d : V) (p : Nat → Bool) (m : Tab V) (i : Nat) :
    Tab.get d (m.filter (fun e => p e.1)) i = if p i then Tab.get d m i else d := by
  induction m with
  | nil => simp [Tab.get]
  | cons e m ih =>
    rw [List.filter_cons]
    by_cases hi : i = e.1
    · subst hi
      by_cases hp : p e.1 = true
      · simp [hp, Tab.get]
      · simp only [hp, Bool.false_eq_true, if_false] at ih ⊢
        exact ih
    · have hm : Tab.get d (e :: m) i = Tab.get d m i := if_neg hi
      split
      · rw [hm, ← ih]
        exact if_neg hi
      · rw [hm, ih]

end Sys2Proof

namespace Sys2Proof.Machine

/-- What every step of a fold keeps, the fold keeps. -/
theorem foldl_keeps {σ α β : Type} (g : σ → β) (f : σ → α → σ) (hf : ∀ t x, g (f t x) = g t) (l : List α) (s : σ) :
    g (l.foldl f s) = g s := by
  induction l generalizing s with
  | nil => rfl
  | cons x l ih => exact (ih _).trans (hf s x)

/-! The registers after a reset of their domain. -/

theorem RegKind.mem_all (k : RegKind) : k ∈ RegKind.all := by cases k <;> decide

/-- The registers of the domain's kinds are gone from the table, and the others stay. -/
theorem get_resetDomain (cs : Tab (Tab (Tab W64))) (d : Domain) (k : RegKind) :
    Tab.get [] (resetDomain cs d) k.num = if k.domain = d then [] else Tab.get [] cs k.num := by
  have step (l : List RegKind) (t : Tab (Tab (Tab W64))) :
      Tab.get [] (l.foldl (fun t k => if k.domain = d then Tab.del t k.num else t) t) k.num =
        if k ∈ l ∧ k.domain = d then [] else Tab.get [] t k.num := by
    induction l generalizing t with
    | nil => simp
    | cons x l ih =>
      rw [List.foldl_cons, ih]
      by_cases hk : k = x
      · subst hk
        by_cases hd : k.domain = d <;> simp [hd]
      · have hn : k.num ≠ x.num := fun h => hk (RegKind.num_inj h)
        by_cases hx : x.domain = d <;> simp [hk, hx, hn]
  refine (step RegKind.all cs).trans ?_
  simp only [k.mem_all, true_and]

/-! AON reset and package reset. -/

/-- R337: a die after a reset has nothing but its fuses, and is held in reset. -/
theorem State.die_of_reset {s t : State} (h : t.dies = s.dies.map (fun e => (e.1, { fuses := e.2.fuses }))) (d : Nat) :
    t.die d = { fuses := (s.die d).fuses } := by
  unfold State.die
  rw [h]
  exact Tab.get_map (fun x : Die => ({ fuses := x.fuses } : Die)) {} s.dies d

/-- R193: only GLB_FIRED changes when a package reset drops the fired units. -/
theorem State.rget_dropFired (s : State) {k : RegKind} (hk : k ≠ .glbFired) (i j : Nat) : s.dropFired.rget k i j = s.rget k i j := by
  unfold State.dropFired
  refine foldl_keeps (fun t : State => t.rget k i j) _ (fun t n => ?_) _ _
  split
  · rfl
  · exact State.rget_rput_ne _ _ _ _ _ _ _ _ hk

/-- R337: the registers after a package reset, but for the two that it writes. -/
theorem State.rget_pkgReset (s : State) {k : RegKind} (he : k ≠ .glbErrstat) (ht : k ≠ .pwrTherm) (i j : Nat) :
    s.pkgReset.rget k i j = if k.domain = .package ∨ k.domain = .partition then k.resetVal i j else s.dropFired.rget k i j := by
  unfold State.pkgReset
  rw [State.rget_fput_ne _ _ _ _ _ _ _ _ ht, State.rget_fput_ne _ _ _ _ _ _ _ _ ht, State.rget_fput_ne _ _ _ _ _ _ _ _ he]
  unfold State.rget
  dsimp only
  rw [get_resetDomain, get_resetDomain]
  by_cases h1 : k.domain = .partition
  · simp [h1]
  · by_cases h2 : k.domain = .package
    · simp [h2]
    · simp [h1, h2]

/-- R346: the log goes on with the records kept in AON memory. -/
theorem State.nextseq_pkgReset (s : State) : s.pkgReset.fget .glbErrstatNextseq = s.kiln.aonLog.length % 2 ^ 32 := by
  unfold State.pkgReset
  rw [State.fget_fput_ne _ _ _ _ _ _ _ _ (by decide), State.fget_fput_ne _ _ _ _ _ _ _ _ (by decide)]
  exact State.fget_fput _ .glbErrstatNextseq 0 0 _ (by decide)

theorem State.bootStage_pkgReset (s : State) : s.pkgReset.fget .glbBootstatStage = 0 := by
  unfold State.fget
  rw [State.rget_pkgReset s (by decide) (by decide), if_pos (.inl (by decide))]
  decide

theorem State.die_pkgReset (s : State) (d : Nat) : s.pkgReset.die d = { fuses := (s.die d).fuses } := State.die_of_reset rfl d

/-- R12, R338: memory after a package reset holds what the kept ranks held, and nothing else. -/
theorem State.dram_pkgReset (s : State) (a : Nat) :
    Memory.get s.pkgReset.mem.dram a = if s.rankKept (a / s.stripe) then Memory.get s.mem.dram a else 0 :=
  Tab.get_filter_key 0 (fun a => s.rankKept (a / s.stripe)) s.mem.dram a

/-- R337: the commands that take a package reset, each from the state itself but for the pins' record of lost rails. -/
theorem exec_packageReset (s : State) {c : Instr} (hc : c ∈ [Instr.packageReset, .glbResetPkg .host 0xA501, .pgFall 12]) :
    ∃ p, exec c s = .next ({ s with pins := p } : State).pkgReset := by
  simp only [List.mem_cons, List.not_mem_nil, or_false] at hc
  rcases hc with rfl | rfl | rfl
  · exact ⟨_, rfl⟩
  · exact ⟨s.pins, rfl⟩
  · exact ⟨_, rfl⟩

/-! Kiln reset and the watchdog. -/

/-- R340: the state that a kiln reset has cleared, before it tells the members and logs. -/
def State.kilnCleared (s : State) : State :=
  let own := s.kiln.cmds.filter (fun (c : KCmd) => match c.src with | .peer _ _ _ _ _ => false | .ring _ => true | .mbx _ _ _ => true)
  let back := own.map (fun (c : KCmd) => ({ src := c.src, notify := decide (pktFlags c.pkt % 2 = 1), pkt := replyPkt c rTimeout 0 [] } : KReply))
  { s with
    kiln := { s.kiln with cmds := [], got := [], notices := [], mbxNotices := [], fwSwitch := none, replies := s.kiln.replies ++ back }
    reel := { s.reel with relays := [] }
    mem := { s.mem with scrub := none, fireQ := if s.fget .glbBootstatStage < 10 then s.mem.fireQ.map (fun (e : Nat × List Nat) => (e.1, [])) else [] }
    home := { s.home with range := none, slices := s.home.slices.map (fun (e : Nat × Slice) => (e.1, { e.2 with rcSet := none })) } }

/-- R340: telling the members and logging leave what was cleared. -/
theorem kilnReset_logged (s : State) (n : Nat) : Logged s.kilnCleared (s.kilnReset n) :=
  (Logged.foldl _ (fun t q => krelaySend_logged t q _) _ s.kilnCleared).trans (logEvent_logged _ _)

/-- R340: a mailbox's command gets TIMEOUT. -/
theorem State.timeout_kilnReset (s : State) (n : Nat) {c : KCmd} (hc : c ∈ s.kiln.cmds) {p sl : Nat} {h : Bool} (hs : c.src = .mbx p sl h) :
    { src := c.src, notify := decide (pktFlags c.pkt % 2 = 1), pkt := replyPkt c rTimeout 0 [] } ∈ (s.kilnReset n).kiln.replies := by
  rw [(kilnReset_logged s n).replies]
  refine List.mem_append_right _ (List.mem_map.mpr ⟨c, List.mem_filter.mpr ⟨hc, ?_⟩, rfl⟩)
  rw [hs]

/-- R340: the watchdog's expiry while the kiln runs: a kiln reset, and after another within 10 s a FATAL error. -/
theorem exec_kilnWatchdog {s : State} (ha : s.kiln.aonHeld = false) (ht : s.pins.thermtrip = false) (hst : s.fget .glbBootstatStage ≠ 0) :
    exec .kilnWatchdog s =
      let again := s.kiln.wdog.any (fun t => decide (s.now < t + 32000000000))
      let t := ({ s with kiln := { s.kiln with wdog := some s.now } } : State).kilnReset (1 + b2n again)
      .next (if again then t.fatal 8 0 0 else t) := if_neg (by simp [ha, ht, hst])

/-- R337: without its key a write of GLB_RESET does nothing. -/
theorem exec_glbReset_noKey {s : State} {c : Instr} {v : W64} (hv : bits v 8 8 ≠ 0xA5) (hc : c ∈ [Instr.glbResetPkg .host v, .glbResetKiln .host v]) :
    exec c s = .next s := by
  have hp : s.glbResetPut .host v = s := if_pos hv
  simp only [List.mem_cons, List.not_mem_nil, or_false] at hc
  rcases hc with rfl | rfl
  · refine congrArg Host.Outcome.next (?_ : (if bit v 0 then s.glbResetPut .host v else s) = s)
    rw [hp, ite_self]
  · refine congrArg Host.Outcome.next (?_ : (if bit v 0 then s else s.glbResetPut .host v) = s)
    rw [hp, ite_self]

/-! A FATAL error. -/

/-- R345: a die held in reset, with its status 0. -/
def State.Held (s : State) (d : Nat) : Prop := (s.die d).rstHeld = true ∧ s.fget .slpDstatState d = 0

/-- R345: a die taken into reset by a FATAL error. -/
def State.holdDie (s : State) (d : Nat) : State := (s.modDie d (fun x => { x with rstHeld := true })).fput .slpDstatState d 0 0

theorem State.held_holdDie (s : State) (d e : Nat) (h : d = e ∨ s.Held d) : (s.holdDie e).Held d := by
  unfold State.holdDie State.Held
  rw [State.fput_die, State.die_modDie]
  by_cases hd : d = e
  · subst hd
    exact ⟨by rw [if_pos rfl], State.fget_fput _ .slpDstatState d 0 0 (by decide)⟩
  · obtain ⟨h1, h2⟩ := h.resolve_left hd
    exact ⟨by rw [if_neg hd, h1], by rw [State.fget_fput_idx _ _ _ _ _ _ _ _ (.inl hd)]; exact h2⟩

theorem State.held_foldl (l : List Nat) (s : State) (d : Nat) (h : d ∈ l ∨ s.Held d) : (l.foldl State.holdDie s).Held d := by
  induction l generalizing s with
  | nil => exact h.resolve_left List.not_mem_nil
  | cons e l ih =>
    refine ih _ ?_
    rcases h with h | h
    · rcases List.mem_cons.mp h with h | h
      · exact .inr (s.held_holdDie d e (.inl h))
      · exact .inl h
    · exact .inr (s.held_holdDie d e (.inr h))

theorem Steady.held {s t : State} (h : Steady s t) {d : Nat} (g : s.Held d) : t.Held d := by
  obtain ⟨h1, h2⟩ := g
  unfold State.Held State.die State.fget
  exact ⟨h.dies ▸ h1, (congrArg (fun v => bits v 0 2) (h.dstat d 0)).trans h2⟩

/-- R345: what a FATAL error has left once it holds the dies in reset, and what it still does, which leaves the dies and FATAL alone. -/
theorem fatal_steady (s : State) (structure_ kind idx : Nat) :
    Steady ((List.range 12).foldl State.holdDie (s.logEvent { cls := 3, event := 0xF0, kind := kind, idx := idx, detail := structure_ }))
      (s.fatal structure_ kind idx) := by
  have cores (t : State) (l : List Nat) :
      Steady t (l.foldl (fun s c => s.setCore c { cycBase := s.cyc c, cycRef := s.now, clockOn := false, rst := true }) t) :=
    steady_foldl _ _ (.refl t) fun u c => setCore_steady (.refl u) _ _
  have fab (t : State) (f : Fab) : Steady t { t with fab := f } := Steady.of (.refl t) rfl rfl
  have ports (t : State) (l : List Nat) : Steady t (l.foldl (fun s n => s.fput .rptCtlBmblk n 0 1) t) :=
    steady_foldl _ _ (.refl t) fun u n => .fput _ _ _ _ (by decide) (by decide)
  exact expelSelf_steady ((((cores _ _).trans (fab _ _))).trans (ports _ _))

/-- R345: a FATAL error shows, and every die is held in reset with its status 0. -/
theorem State.fatal_shows (s : State) (structure_ kind idx : Nat) :
    (s.fatal structure_ kind idx).fget .glbErrstatFatal = 1 ∧ ∀ d < 12, (s.fatal structure_ kind idx).Held d := by
  refine ⟨(fatal_steady s structure_ kind idx).fatal ?_, fun d hd => (fatal_steady s structure_ kind idx).held ?_⟩
  · refine List.foldlRecOn (motive := fun t : State => t.fget .glbErrstatFatal = 1) _ _ (State.fget_fatal_logEvent s rfl) fun t ht d _ => ?_
    unfold State.holdDie
    rw [State.fget_fput_ne _ _ _ _ _ _ _ _ (by decide)]
    exact ht
  · exact State.held_foldl _ _ d (.inl (List.mem_range.mpr hd))

/-! Losses of power-good. -/

/-- R166: the registers of a die that is fenced, before its cores are lost. -/
def State.dieFenced (s : State) (d cause : Nat) : State :=
  ((s.fput .slpDstatState d 0 2).fput .slpDstatFenceCause d 0 cause).modDie d (fun x => { fuses := x.fuses, rstHeld := true })

/-- R130, R166, R341: the loss of the cores, of their copies and the records of it leave those registers alone. -/
theorem fenceDie_steady (s : State) {d : Nat} (cause : Nat) (h : s.fget .slpDstatState d ≠ 2) :
    Steady (s.dieFenced d cause) (s.fenceDie d cause) := by
  have fab (t : State) (f : Fab) : Steady t { t with fab := f } := Steady.of (.refl t) rfl rfl
  have cores (t : State) (l : List Nat) : Steady t (l.foldl (fun s c => s.loseCore c) t) :=
    steady_foldl _ _ (.refl t) fun u c => loseCore_steady (.refl u) c
  have slices (t : State) (l : List Nat) : Steady t (l.foldl (fun s n => s.sliceLoses d n) t) :=
    steady_foldl _ _ (.refl t) fun u n => sliceLoses_steady (.refl u) d n
  have logs (t : State) (l : List Nat) (ev : Ev) : Steady t (l.foldl (fun s p => s.logEvent { ev with part := some p }) t) :=
    steady_foldl _ _ (.refl t) fun u p => logEvent_steady (.refl u) _
  have ends (t : State) (l : List Nat) (ev : Ev) :
      Steady t (if l.isEmpty then t.logEvent ev else l.foldl (fun s p => s.logEvent { ev with part := some p }) t) :=
    steady_ite _ (logEvent_steady (.refl t) _) (logs t l ev)
  unfold State.fenceDie
  rw [if_neg h]
  exact .trans (.trans (.trans (fab (s.dieFenced d cause) _) (cores _ _)) (slices _ _)) (ends _ _ _)

/-- R166: a die that was not fenced is, with the cause. -/
theorem State.fenceDie_shows (s : State) {d : Nat} (cause : Nat) (h : s.fget .slpDstatState d ≠ 2) :
    (s.fenceDie d cause).fget .slpDstatState d = 2 ∧ (s.fenceDie d cause).fget .slpDstatFenceCause d = cause % 8 := by
  have hr (f : Fld) (hf : f.kind = .slpDstat) : (s.fenceDie d cause).fget f d = (s.dieFenced d cause).fget f d := by
    unfold State.fget
    rw [hf, (fenceDie_steady s cause h).dstat]
  refine ⟨?_, ?_⟩
  · rw [hr _ rfl, State.dieFenced, State.modDie_fget, State.fget_fput_disjoint _ _ _ _ _ _ _ _ (by decide), State.fget_fput _ _ _ _ _ (by decide)]
    rfl
  · rw [hr _ rfl, State.dieFenced, State.modDie_fget, State.fget_fput _ _ _ _ _ (by decide)]
    rfl

/-- R166, R362: a core rail's loss fences a die that is up, and is none in DS2. -/
theorem exec_pgFall_die {s : State} {d : Nat} (hd : d < 12) (hup : s.dieUp d = true) (hdst : (s.die d).dst < 2) :
    exec (.pgFall d) s = .next (s.fenceDie d 5) := by
  refine (if_pos hd).trans (congrArg Host.Outcome.next (if_pos ?_))
  rw [hup, decide_eq_true hdst]
  rfl

theorem exec_pgFall_ds2 {s : State} {d : Nat} (hd : d < 12) (hdst : (s.die d).dst = 2) : exec (.pgFall d) s = .next s := by
  refine (if_pos hd).trans (congrArg Host.Outcome.next (if_neg ?_))
  simp [hdst]

/-- R197: a suspect bank's record leaves memory alone. -/
theorem State.mem_suspectBank (s : State) (mc sub rank bank : Nat) : (s.suspectBank mc sub rank bank).mem = s.mem := by
  unfold State.suspectBank
  dsimp only
  rw [(notify_logged _ _ _).mem, (logEvent_logged _ _).mem, State.rput_mem]

theorem State.mem_suspectRank (s : State) (mc rank : Nat) : (s.suspectRank mc rank).mem = s.mem := by
  have step (t : State) (b : Nat) : (t.suspectBank mc (b / 32) rank (b % 32)).mem = t.mem := State.mem_suspectBank t _ _ _ _
  unfold State.suspectRank
  exact foldl_keeps (fun t : State => t.mem) _ step _ _

/-- R12, R196: without VDDQ no rank holds SR_CLEAN. -/
theorem State.srClean_vddqLost (s : State) {k : Nat} {r : Rank} (h : Tab.find s.vddqLost.mem.ranks k = some r) : r.srClean = false := by
  have hm : s.vddqLost.mem.ranks = s.mem.ranks.map (fun e => (e.1, { e.2 with srClean := false })) := by
    have step (t : State) (k : Nat) : (t.suspectRank (k / 16) (k % 16)).mem.ranks = t.mem.ranks := by rw [State.mem_suspectRank]
    unfold State.vddqLost
    exact foldl_keeps (fun t : State => t.mem.ranks) _ step _ _
  have hf := Tab.find_map (fun x : Rank => { x with srClean := false }) s.mem.ranks k
  rw [← hm, h] at hf
  obtain ⟨x, -, rfl⟩ := Option.map_eq_some_iff.mp hf.symm
  rfl

/-! The thermal trip. -/

/-- R294: the counts of reads are shown in registers and configuration space alone. -/
theorem State.showReads_parts (s : State) : s.showReads.cores = s.cores ∧ s.showReads.ep.link = s.ep.link := by
  have step (t : State) (r : Nat) : (let u := t.fput .epRingstatTags r 0 (t.ringReads r)
      if u.ringState r = 3 ∧ u.ringReads r = 0 then u.fput .epRingstatState r 0 0 else u).cores = t.cores ∧
      (let u := t.fput .epRingstatTags r 0 (t.ringReads r)
      if u.ringState r = 3 ∧ u.ringReads r = 0 then u.fput .epRingstatState r 0 0 else u).ep = t.ep := by
    dsimp only
    split <;> exact ⟨rfl, rfl⟩
  unfold State.showReads
  exact ⟨foldl_keeps (fun t : State => t.cores) _ (fun t r => (step t r).1) _ _,
    foldl_keeps (fun t : State => t.ep.link) _ (fun t r => congrArg Ep.link (step t r).2) _ _⟩

/-- R299: an endpoint link reset leaves the cores, and the link is down. -/
theorem State.epLinkReset_parts (s : State) : s.epLinkReset.cores = s.cores ∧ s.epLinkReset.ep.link = 0 := by
  have hf : s.epFuncReset.cores = s.cores := by
    have hdrop (l : List Nat) : (l.foldl (fun t r => t.dropReplies r) s).cores = s.cores := foldl_keeps State.cores State.dropReplies (fun _ _ => rfl) l s
    have hcfg (t : State) : t.flrCfg.cores = t.cores := rfl
    unfold State.epFuncReset
    dsimp only
    rw [(State.showReads_parts _).1, hcfg]
    dsimp only
    exact hdrop _
  unfold State.epLinkReset
  dsimp only
  rw [(State.showReads_parts _).1, (State.showReads_parts _).2]
  exact ⟨hf, rfl⟩

/-- Settles O47: each reset by the lemmas about what it clears and what it keeps. -/
theorem resets : Obligations.Resets := by
  intro s
  refine ⟨⟨_, rfl, rfl, fun d => ?_⟩, fun c hc => ?_, fun c v hv hc => ?_, ⟨?_, ?_⟩, fun ha ht hst => ⟨fun hw => ?_, fun w hw hlt => ?_⟩,
    fun d hd => ⟨fun hup hdst => ?_, fun hdst => ?_⟩, ⟨_, rfl, fun k r hr => State.srClean_vddqLost s hr⟩,
    fun blk temp hblk => ⟨fun hlt => ?_, fun hle => ?_⟩⟩
  · exact (congrArg Die.fuses (State.die_of_reset (s := s) (t := s.aonClear) rfl d)).symm
  · obtain ⟨p, hp⟩ := exec_packageReset s hc
    refine ⟨_, hp, rfl, rfl, rfl, rfl, rfl, rfl, rfl, rfl, State.bootStage_pkgReset _, State.nextseq_pkgReset _, rfl, rfl, fun d => ?_, fun k i j hk hf => ?_,
      fun k i j hk he hth => ?_, fun a ha => ?_, fun a ha => ?_⟩
    · rw [State.die_pkgReset]
      exact ⟨rfl, rfl⟩
    · rw [State.rget_pkgReset _ (by rintro rfl; cases hk) (by rintro rfl; cases hk), if_neg (by rw [hk]; decide)]
      exact State.rget_dropFired _ hf i j
    · rw [State.rget_pkgReset _ he hth, if_pos hk]
    · exact (State.dram_pkgReset _ a).trans (if_pos ha)
    · exact (State.dram_pkgReset _ a).trans (if_neg (Bool.eq_false_iff.mp ha))
  · exact exec_glbReset_noKey hv hc
  · rfl
  · have hl := kilnReset_logged s 0
    exact ⟨hl.cmds, hl.relays, by rw [hl.mem]; rfl, by rw [hl.home]; rfl, hl.cores, hl.parts, by rw [hl.home]; rfl,
      fun c hc p n h hs => s.timeout_kilnReset 0 hc hs⟩
  · have hl := kilnReset_logged { s with kiln := { s.kiln with wdog := some s.now } } 1
    refine ⟨_, ?_, hl.wdog, hl.cmds, hl.cores⟩
    rw [exec_kilnWatchdog ha ht hst, hw]
    rfl
  · have hf := State.fatal_shows (({ s with kiln := { s.kiln with wdog := some s.now } } : State).kilnReset 2) 8 0 0
    refine ⟨_, ?_, hf⟩
    rw [exec_kilnWatchdog ha ht hst, hw, Option.any_some, decide_eq_true hlt]
    rfl
  · exact ⟨_, exec_pgFall_die hd hup hdst, s.fenceDie_shows 5 (by simp [State.dieUp] at hup; omega)⟩
  · exact exec_pgFall_ds2 hd hdst
  · exact if_pos (.inl hlt)
  · obtain ⟨hc, hl⟩ := s.pkgReset.epLinkReset_parts
    exact ⟨_, if_neg (by omega), rfl, hc, hl⟩

end Sys2Proof.Machine
end

section
/-! Accesses of control space, of the window and of BAR2 by the host, and the completion of device accesses (R9, R10, R64, R239, R286 to R288). -/

namespace Sys2Proof.Machine

/-! Writes of control space. -/

/-- R9: a write of eight bytes at an offset that names something is a write of control space. -/
theorem exec_registerWrite {off : Nat} (h : (ctlNamed off 3).isSome = true) (q : Req) (v : W64) (s : State) :
    exec (.registerWrite .control q off 8 v) s = s.ctlWrite q off 3 v (fun s => s.ctlPut q off 3 v) := if_pos ⟨h, rfl⟩

/-- R9: one at an offset that names nothing does nothing. -/
theorem exec_registerWrite_unnamed {off : Nat} (h : ctlNamed off 3 = none) (q : Req) (v : W64) (s : State) :
    exec (.registerWrite .control q off 8 v) s = .next s := if_neg (by simp [h])

/-- R10: a write of a register by its offset. -/
theorem State.ctlPut_register {off : Nat} {k : RegKind} {i j : Nat} (h : ctlNamed off 3 = some (some (k, i, j))) (s : State) (q : Req) (v : W64) :
    s.ctlPut q off 3 v = s.regPut q k i j v := by
  unfold State.ctlPut
  rw [h]

/-- R10: the plain registers: a write stores their writable fields. -/
theorem State.regPut_plain (s : State) (q : Req) {k : RegKind} (i j : Nat) (v : W64)
    (h : k = .mcPatrol ∨ k = .hsTmo ∨ k = .slpCfg ∨ k = .glbMemras ∨ k = .ectData ∨ k = .ectAddr ∨ k = .slpGerr) :
    s.regPut q k i j v = s.rput k i j (k.writeVal (s.rget k i j) v) := by
  rcases h with rfl | rfl | rfl | rfl | rfl | rfl | rfl <;> rfl

/-- R303: the registers of a DMA channel that are locked while it is enabled. -/
theorem State.regPut_locked {s : State} {i j : Nat} (he : s.fget .dmaChctlEn i j = 1) (q : Req) {k : RegKind} (v : W64)
    (h : k = .dmaChring ∨ k = .dmaChtrig ∨ k = .dmaChcpl) : s.regPut q k i j v = s := by
  have hn : ¬ decide (s.fget .dmaChctlEn i j = 0) = true := by simp [he]
  rcases h with rfl | rfl | rfl <;> exact if_neg hn

/-- R239: mailbox memory takes an access of eight bytes. -/
theorem ctlNamed_mailbox {a : Nat} (h1 : a < 0x40000) (h2 : 0x100 ≤ a % 0x1000) (h3 : a % 8 = 0) : ctlNamed (0xA000000 + a) 3 = some none := by
  have hm : mbxMemory (0xA000000 + a) = true := by
    have ho : 0xA000000 + a - 0xA000000 = a := by omega
    have hr : 0xA000000 ≤ 0xA000000 + a ∧ 0xA000000 + a < 0xB000000 := by omega
    unfold mbxMemory
    simp [ho, hr, h1, h2]
  unfold ctlNamed
  rw [if_neg (by omega), if_pos hm]
  rfl

/-- R239: what a write of mailbox memory leaves. -/
def State.mbxStored (s : State) (a : Nat) (v : W64) : State := { s with kiln := { s.kiln with mbx := Memory.putN s.kiln.mbx a 8 v.toNat } }

theorem State.ctlPut_mailbox {a : Nat} (h : ctlNamed (0xA000000 + a) 3 = some none) (s : State) (q : Req) (v : W64) :
    s.ctlPut q (0xA000000 + a) 3 v = s.mbxStored a v := by
  unfold State.ctlPut
  rw [h, Nat.add_sub_cancel_left]
  rfl

/-- R239: the doubleword reads back. -/
theorem State.mbxWord_mbxStored (s : State) (a : Nat) (v : W64) : (s.mbxStored a v).mbxWord a = v := by
  have hv : v.toNat % 256 ^ 8 = v.toNat := Nat.mod_eq_of_lt v.isLt
  unfold State.mbxWord State.mbxStored
  rw [Memory.getN_putN, hv, BitVec.ofNat_toNat, BitVec.setWidth_eq]

/-- R64: a core's write of eight bytes whose device access holds its value. -/
theorem State.devWrites_of_val {s : State} {d : Dev} {off : Nat} {v : W64} (hw : d.write = true) (hpa : d.pa = s.ctlPa off) (hv : d.val = v) (hs : d.sz = 3)
    (hat : d.at_ + 3 ≤ s.fcyc) : s.DevWrites d off v :=
  ⟨hw, hpa, by rw [hv, hs]; exact Nat.mod_eq_of_lt v.isLt, hat⟩

/-! The aperture and BAR2. -/

/-- R4: an address of memory names the package that holds it. -/
theorem State.target_mem {s : State} {pa q : Nat} (h : s.target pa = .mem q) : q = pkgOf pa := by
  unfold State.target at h
  split at h
  · injection h with h
    exact h.symm
  · dsimp only at h
    repeat' split at h
    all_goals cases h

/-- R286: an address of memory that is there, of a package that is not lost, is reached. -/
theorem State.winReason_none {s : State} {pa : Nat} (hl : s.lost (pkgOf pa) = false) (hp : s.populated pa = true) (hc : s.inCarve pa = false) :
    s.winReason pa = none := by
  simp [State.winReason, hl, hp, hc]

theorem State.winReason_unpopulated {s : State} {pa : Nat} (hl : s.lost (pkgOf pa) = false) (hp : s.populated pa = false) :
    s.winReason pa = some rOutsideWindow := by
  simp [State.winReason, hl, hp]

/-- An access within a line is one piece. -/
theorem linePieces_one {a len : Nat} (h0 : len ≠ 0) (h : a % 64 + len ≤ 64) (n : Nat) : linePieces a len (n + 2) = [(a, len)] := by
  have hk : min len (64 - a % 64) = len := by omega
  simp [linePieces, h0, hk]

/-- R286: what an aperture's read within a line of this package's memory leaves: the access, and its piece on its way to the MSC. -/
theorem State.winMemory_sent {s : State} {pa size : Nat} (h0 : size ≠ 0) (hl : pa % 64 + size ≤ 64) (hr : s.winReason pa = none) (hp : pkgOf pa = s.pkg) :
    s.winMemory false pa size [] =
      { s with
        fab := { s.fab with devNext := s.fab.devNext + 1 + 1 }
        home := { s.home with ncq := s.home.ncq ++ [{ id := s.fab.devNext + 1, agent := .ep s.fab.devNext, write := false, pa := pa, len := size,
                                                      at_ := s.fcyc + 3 }] }
        ep := { s.ep with accs := s.ep.accs ++ [{ id := s.fab.devNext, write := false, rd := { len := size, pieces := [(s.fab.devNext + 1, 0)] } }] } } := by
  have hr' : s.newId.2.winReason pa = none := hr
  have hp' : pkgOf pa = s.newId.2.newId.2.pkg := hp
  unfold State.winMemory
  rw [linePieces_one h0 hl]
  dsimp only [List.foldl_cons, List.foldl_nil]
  rw [hr']
  unfold State.ncSend
  dsimp only
  rw [if_pos hp', Nat.sub_self]
  rfl

/-- R286, R287: one that goes no further ends as a bus error: all ones. -/
theorem State.winMemory_refused {s : State} {pa size r : Nat} (h0 : size ≠ 0) (hl : pa % 64 + size ≤ 64) (hr : s.winReason pa = some r) :
    s.winMemory false pa size [] = s.newId.2.hostError false size r false := by
  have hr' : s.newId.2.winReason pa = some r := hr
  unfold State.winMemory
  rw [linePieces_one h0 hl]
  dsimp only [List.foldl_cons, List.foldl_nil]
  rw [hr']
  rfl

/-! What an event of the endpoint announces. -/

/-- The registers of control space and what reads have returned are as before. -/
structure Announced (s t : State) : Prop where
  cs : t.cs = s.cs
  rdata : t.ep.rdata = s.ep.rdata

theorem Announced.refl (s : State) : Announced s s := ⟨rfl, rfl⟩

theorem Announced.trans {s t u : State} (h : Announced s t) (g : Announced t u) : Announced s u := ⟨g.cs.trans h.cs, g.rdata.trans h.rdata⟩

theorem Announced.rget {s t : State} (h : Announced s t) (k : RegKind) (i j : Nat) : t.rget k i j = s.rget k i j := by
  unfold State.rget
  rw [h.cs]

theorem setCfg_announced (s : State) (o : Nat) (v : BitVec 32) : Announced s (s.setCfg o v) := ⟨rfl, rfl⟩

theorem epUse_announced (s : State) : Announced s s.epUse := ⟨rfl, rfl⟩

theorem showIntx_announced (s : State) : Announced s s.showIntx := by
  unfold State.showIntx
  dsimp only
  split
  · exact setCfg_announced _ _ _
  · exact ⟨rfl, rfl⟩

theorem sendVec_announced (s : State) (v : Nat) : Announced s (s.sendVec v) := by
  unfold State.sendVec
  dsimp only
  split
  · exact .refl s
  · exact ⟨rfl, rfl⟩

theorem pmeEvent_announced (s : State) : Announced s s.pmeEvent := by
  unfold State.pmeEvent
  dsimp only
  split
  · exact ⟨rfl, rfl⟩
  · exact ⟨rfl, rfl⟩

/-- R293: an event sets its bit of EP_ISTAT, and its announcement changes no register of control space. -/
theorem epEvent_announced (s : State) (b : Nat) : Announced (s.rput .epIstat 0 0 (setBit (s.rget .epIstat) b true)) (s.epEvent b) := by
  have pme (t : State) (c : Prop) [Decidable c] : Announced t (if c then t.pmeEvent else t) := by
    split
    · exact pmeEvent_announced t
    · exact .refl t
  have pba (t : State) (p : W64) : Announced t { t with ep := { t.ep with pba := p } } := ⟨rfl, rfl⟩
  have vec (t : State) (c : Prop) [Decidable c] (p : W64) (v : Nat) :
      Announced t (if c then ({ t with ep := { t.ep with pba := p } } : State).sendVec v else t) := by
    split
    · exact .trans (pba t p) (sendVec_announced _ v)
    · exact .refl t
  unfold State.epEvent
  exact .trans (.trans (.trans (pme _ _) (vec _ _ _ _)) (showIntx_announced _)) (epUse_announced _)

/-- R287: a bus error shows its reason and where it was, and sets its bit of EP_ISTAT. -/
theorem State.winErr_shows (s : State) {r : Nat} (hr : r < 2 ^ 16) (bar2 : Bool) :
    (s.winErr r bar2).fget .epWinerrReason = r ∧ (s.winErr r bar2).fget .epWinerrInbar2 = b2n bar2 ∧
      bit ((s.winErr r bar2).rget .epIstat) 16 = true ∧ (s.winErr r bar2).ep.rdata = s.ep.rdata := by
  have hu := epEvent_announced (((s.fput .epWinerrReason 0 0 r).fbump .epWinerrCount 0 0).fput .epWinerrInbar2 0 0 (b2n bar2)) 16
  have hf (f : Fld) (hk : f.kind = .epWinerr) : (s.winErr r bar2).fget f =
      (((s.fput .epWinerrReason 0 0 r).fbump .epWinerrCount 0 0).fput .epWinerrInbar2 0 0 (b2n bar2)).fget f := by
    unfold State.winErr State.fget
    rw [hu.rget, State.rget_rput_ne _ _ _ _ _ _ _ _ (by rw [hk]; decide)]
  refine ⟨?_, ?_, ?_, hu.rdata⟩
  · rw [hf _ rfl, State.fget_fput_disjoint _ _ _ _ _ _ _ _ (by decide), State.fbump, State.fget_fput_disjoint _ _ _ _ _ _ _ _ (by decide),
      State.fget_fput _ _ _ _ _ (by decide)]
    exact Nat.mod_eq_of_lt hr
  · rw [hf _ rfl, State.fget_fput _ _ _ _ _ (by decide)]
    cases bar2 <;> rfl
  · unfold State.winErr
    rw [hu.rget, State.rget_rput_same, bit_setBit]
    simp

theorem State.fget_hostRead (s : State) (p : Bool) (data : List Byte) (f : Fld) : (s.hostRead p data).fget f = s.fget f := rfl

theorem State.rget_hostRead (s : State) (p : Bool) (data : List Byte) (k : RegKind) : (s.hostRead p data).rget k = s.rget k := rfl

theorem State.rdata_hostRead (s : State) (p : Bool) (data : List Byte) : (s.hostRead p data).ep.rdata = s.ep.rdata ++ [(p, data)] := rfl

/-- R287: a host's read of `size` bytes that reaches nothing shows its error and gives all ones. -/
theorem State.hostError_shows (s : State) (size : Nat) :
    (s.hostError false size rOutsideWindow false).fget .epWinerrReason = rOutsideWindow ∧
      (s.hostError false size rOutsideWindow false).fget .epWinerrInbar2 = 0 ∧
      bit ((s.hostError false size rOutsideWindow false).rget .epIstat) 16 = true ∧
      (s.hostError false size rOutsideWindow false).ep.rdata = s.ep.rdata ++ [(false, List.replicate size 0xFF)] := by
  obtain ⟨hreason, hbar, hstat, hdata⟩ := s.winErr_shows (r := rOutsideWindow) (by decide) false
  have hp : (decide (rOutsideWindow = rPoisoned) || decide (rOutsideWindow = rEccUncorrectable)) = false := by decide
  have he : s.hostError false size rOutsideWindow false = (s.winErr rOutsideWindow false).hostRead false (List.replicate size 0xFF) := by
    unfold State.hostError
    rw [hp]
    exact if_neg (by decide)
  rw [he, State.fget_hostRead, State.fget_hostRead, State.rget_hostRead, State.rdata_hostRead, hdata]
  exact ⟨hreason, hbar, hstat, rfl⟩

/-! The host's accesses through the aperture and BAR2, and device accesses that end. -/

/-! The endpoint's leaving of L0s and L1 shows in no answer about addresses and registers. -/

theorem State.fget_epUse (s : State) (f : Fld) (i j : Nat) : s.epUse.fget f i j = s.fget f i j := rfl

theorem State.target_epUse (s : State) (pa : Nat) : s.epUse.target pa = s.target pa := rfl

theorem State.winReason_epUse (s : State) (pa : Nat) : s.epUse.winReason pa = s.winReason pa := rfl

theorem State.csRead_epUse (s : State) (off sz : Nat) : s.epUse.csRead off sz = s.csRead off sz := rfl

/-- R287: neither the enable nor the length refuses a read of eight bytes. -/
theorem readAccess_on {s : State} (hb : s.barOn = true) {off lim : Nat} (ho : off + 8 ≤ lim) :
    ¬ ((!s.barOn) = true ∨ 8 = 0 ∨ lim < off + 8 ∨ (false = true ∧ ([] : List Byte).length ≠ 8)) := by
  simp [hb]
  omega

/-- R286: a read of eight bytes through the aperture at an address of memory. -/
theorem exec_windowRead_mem {s : State} (hb : s.barOn = true) {off q : Nat} (ho : off + 8 ≤ 0x80000)
    (ht : s.target (s.fget .epWinbaseBase * 2 ^ 19 + off) = .mem q) :
    exec (.windowAccess false off 8 []) s = .next (s.epUse.winMemory false (s.fget .epWinbaseBase * 2 ^ 19 + off) 8 []) := by
  show execWindowAccess false off 8 [] s = _
  unfold execWindowAccess
  rw [if_neg (readAccess_on hb ho)]
  dsimp only
  rw [State.fget_epUse, State.target_epUse, ht]

/-- R286: one at an address of control space. -/
theorem exec_windowRead_ctrl {s : State} (hb : s.barOn = true) {off o : Nat} (ho : off + 8 ≤ 0x80000)
    (ht : s.target (s.fget .epWinbaseBase * 2 ^ 19 + off) = .ctrl o) :
    exec (.windowAccess false off 8 []) s = .next (s.epUse.hostCtl false o 8 [] false) := by
  show execWindowAccess false off 8 [] s = _
  unfold execWindowAccess
  rw [if_neg (readAccess_on hb ho)]
  dsimp only
  rw [State.fget_epUse, State.target_epUse, ht]

/-- R287, R288: a host's read of control space returns what it shows. -/
theorem State.hostCtl_read {s : State} {o : Nat} {v : W64} (h : s.csRead o 3 = some v) (bar2 : Bool) :
    s.epUse.hostCtl false o 8 [] bar2 = s.epUse.hostRead false (leBytes 8 v.toNat) := by
  unfold State.hostCtl
  simp [State.csRead_epUse, h]

theorem exec_bar2Read {s : State} (hb : s.barOn = true) {off : Nat} (ho : off + 8 ≤ 0x1000000) :
    exec (.bar2Access false off 8 []) s = .next (s.epUse.hostCtl false (0xA000000 + off) 8 [] true) := if_neg (readAccess_on hb ho)

/-- R287: without Memory Space Enable the host's accesses do nothing. -/
theorem exec_hostAccess_off {s : State} (hb : s.barOn = false) (w : Bool) (off n : Nat) (data : List Byte) :
    exec (.windowAccess w off n data) s = .next s ∧ exec (.bar2Access w off n data) s = .next s :=
  ⟨if_pos (.inl (by simp [hb])), if_pos (.inl (by simp [hb]))⟩

/-- R64: the command of the only device access, once it has ended, returns it to its sender. -/
theorem exec_deviceAccessCompletion {s : State} {d : Dev} (hd : s.fab.devs = [d]) {st : Nat} {v : W64} (he : s.devEnd d = some (st, v)) :
    exec (.deviceAccessCompletion d.id) s = .next (s.devReturns d st v) := by
  have hf : s.fab.devs.find? (fun e => e.id == d.id) = some d := by simp [hd]
  show execDeviceAccessCompletion d.id s = _
  unfold execDeviceAccessCompletion
  rw [hf]
  dsimp only
  rw [he]

/-- R9, R64: the host's read of control space, once due, ends with the value or with OUTSIDE_WINDOW. -/
theorem State.devEnd_hostRead {s : State} {d : Dev} {o : Nat} (hd : s.fab.devs = [d]) (hn : d.done = none) (hw : d.write = false) (hh : d.who = .host)
    (ht : s.target d.pa = .ctrl o) (hat : d.at_ + 13 ≤ s.fcyc) : ∃ r, s.devEnd d = some r := by
  have ho : s.devOldest d = true := by simp [State.devOldest, hd, hn]
  unfold State.devEnd
  simp only [hn, ht, ho, hat, hw, hh, State.mayReach]
  cases s.csRead o d.sz with
  | none => exact ⟨_, rfl⟩
  | some v => exact ⟨_, rfl⟩

/-- R64: a host's access that no aperture access waits for just leaves. -/
theorem State.devReturns_host {s : State} {d : Dev} (hd : s.fab.devs = [d]) (hh : d.who = .host) (ha : s.ep.accs = []) (st : Nat) (v : W64) :
    s.devReturns d st v = { s with fab := { s.fab with devs := [] } } := by
  unfold State.devReturns
  simp [hh, hd, State.pieceEnds, ha]

/-- R34: a store whose device access ended well takes its entry out of the store buffer. -/
theorem State.storeEnds_sent {s : State} {c i : Nat} {e : SbEnt} (he : (s.core c).sbHead i = some e) (hs : e.devSent = true) :
    s.storeEnds c i 0 = s.modCore c (fun k => k.sbPop (s.cyc c) i e) := by
  unfold State.storeEnds
  rw [he]
  simp [hs]

/-- R34, R64: a core's store that has been performed leaves, and its store-buffer entry with it. -/
theorem State.devReturns_store {s : State} {d : Dev} {c i : Nat} {e : SbEnt} (hd : s.fab.devs = [d]) (hh : d.who = .ctx c i) (hw : d.write = true)
    (he : (s.core c).sbHead i = some e) (hs : e.devSent = true) (v : W64) :
    s.devReturns d 0 v = ({ s with fab := { s.fab with devs := [] } } : State).modCore c (fun k => k.sbPop (s.cyc c) i e) := by
  have he' : (({ s with fab := { s.fab with devs := [] } } : State).core c).sbHead i = some e := he
  have hf : s.fab.devs.filter (fun x => x.id != d.id) = [] := by simp [hd]
  unfold State.devReturns
  rw [hf, hh, hw]
  exact State.storeEnds_sent he' hs

/-! The clauses of the obligation. -/

/-- R10: a host's write of a plain register. -/
theorem exec_registerWrite_plain {s : State} {k : RegKind} {i j : Nat} {v : W64} (hn : ctlNamed (k.addr i j) 3 = some (some (k, i, j)))
    (h : k = .mcPatrol ∨ k = .hsTmo ∨ k = .slpCfg ∨ k = .glbMemras ∨ k = .ectData ∨ k = .ectAddr ∨ k = .slpGerr) :
    exec (.registerWrite .control .host (k.addr i j) 8 v) s = .next (s.rput k i j (k.writeVal (s.rget k i j) v)) := by
  rw [exec_registerWrite (by rw [hn]; rfl)]
  exact congrArg Host.Outcome.next ((State.ctlPut_register hn s .host v).trans (s.regPut_plain .host i j v h))

/-- R303: a host's write of a register locked by its channel. -/
theorem exec_registerWrite_locked {s : State} {k : RegKind} {i j : Nat} {v : W64} (hn : ctlNamed (k.addr i j) 3 = some (some (k, i, j)))
    (h : k = .dmaChring ∨ k = .dmaChtrig ∨ k = .dmaChcpl) (he : s.fget .dmaChctlEn i j = 1) :
    exec (.registerWrite .control .host (k.addr i j) 8 v) s = .next s := by
  rw [exec_registerWrite (by rw [hn]; rfl)]
  exact congrArg Host.Outcome.next ((State.ctlPut_register hn s .host v).trans (State.regPut_locked he .host v h))

/-- R239: a host's write of mailbox memory. -/
theorem exec_registerWrite_mailbox {a : Nat} (h1 : a < 0x40000) (h2 : 0x100 ≤ a % 0x1000) (h3 : a % 8 = 0) (s : State) (v : W64) :
    exec (.registerWrite .control .host (0xA000000 + a) 8 v) s = .next (s.mbxStored a v) := by
  have hn := ctlNamed_mailbox h1 h2 h3
  rw [exec_registerWrite (by rw [hn]; rfl)]
  exact congrArg Host.Outcome.next (State.ctlPut_mailbox hn s .host v)

theorem State.mbxStored_other {a b : Nat} (hb : b < a ∨ a + 8 ≤ b) (s : State) (v : W64) :
    Memory.get (s.mbxStored a v).kiln.mbx b = Memory.get s.kiln.mbx b :=
  Memory.get_putN_ne 8 s.kiln.mbx a v.toNat b hb

/-- R64: a core's write of MC_PATROL once its device access has arrived: with the right it stores, without it ends with OUTSIDE_WINDOW. -/
theorem exec_registerWrite_core {s : State} {c i x y : Nat} {d : Dev} {v : W64} (hd : s.devNextOf c i = some d)
    (hw : s.DevWrites d (RegKind.mcPatrol.addr x y) v) (hs : d.sz = 3) (hn : ctlNamed (RegKind.mcPatrol.addr x y) 3 = some (some (.mcPatrol, x, y))) :
    exec (.registerWrite .control (.ctx c i) (RegKind.mcPatrol.addr x y) 8 v) s =
      .next (if s.mayReach (.ctx c i) (RegKind.mcPatrol.addr x y) = true
        then (s.rput .mcPatrol x y (RegKind.mcPatrol.writeVal (s.rget .mcPatrol x y) v)).devDone d.id 0 0 else s.devDone d.id rOutsideWindow 0) := by
  rw [exec_registerWrite (by rw [hn]; rfl), State.ctlWrite_ctx_arrived hd hw]
  by_cases hr : s.mayReach (.ctx c i) (RegKind.mcPatrol.addr x y) = true
  · rw [if_pos ⟨hr, hs⟩, if_pos hr, State.ctlPut_register hn, State.regPut_plain _ _ _ _ _ (.inl rfl)]
  · rw [if_neg (fun h => hr h.1), if_neg hr]

/-- R286: an aperture's read of this package's memory joins the queue of the MSC and waits for its answer. -/
theorem exec_windowRead_sent {s : State} (hb : s.barOn = true) {off q : Nat} (ho : off + 8 ≤ 0x80000)
    (ht : s.target (s.fget .epWinbaseBase * 2 ^ 19 + off) = .mem q) (hq : q = s.pkg) (hl : off % 64 ≤ 56)
    (hp : s.populated (s.fget .epWinbaseBase * 2 ^ 19 + off) = true) (hlost : s.lost q = false)
    (hc : s.inCarve (s.fget .epWinbaseBase * 2 ^ 19 + off) = false) :
    ∃ t, exec (.windowAccess false off 8 []) s = .next t ∧
      t.home.ncq = s.home.ncq ++ [{ id := s.fab.devNext + 1, agent := .ep s.fab.devNext, write := false,
                                    pa := s.fget .epWinbaseBase * 2 ^ 19 + off, len := 8, at_ := s.fcyc + 3 }] ∧
      t.ep.accs = s.ep.accs ++ [{ id := s.fab.devNext, write := false, rd := { len := 8, pieces := [(s.fab.devNext + 1, 0)] } }] ∧
      t.ep.rdata = s.ep.rdata := by
  have hm := State.target_mem ht
  have hw := State.winReason_none (hm ▸ hlost) hp hc
  rw [← State.winReason_epUse] at hw
  rw [exec_windowRead_mem hb ho ht, State.winMemory_sent (by decide) (by omega) hw (hm.symm.trans hq)]
  exact ⟨_, rfl, rfl, rfl, rfl⟩

/-- R286, R287: one where no memory is ends as a bus error. -/
theorem exec_windowRead_refused {s : State} (hb : s.barOn = true) {off q : Nat} (ho : off + 8 ≤ 0x80000)
    (ht : s.target (s.fget .epWinbaseBase * 2 ^ 19 + off) = .mem q) (hl : off % 64 ≤ 56)
    (hp : s.populated (s.fget .epWinbaseBase * 2 ^ 19 + off) = false) (hlost : s.lost q = false) :
    ∃ t, exec (.windowAccess false off 8 []) s = .next t ∧ t.fget .epWinerrReason = rOutsideWindow ∧ t.fget .epWinerrInbar2 = 0 ∧
      bit (t.rget .epIstat) 16 = true ∧ t.ep.rdata = s.ep.rdata ++ [(false, List.replicate 8 0xFF)] := by
  have hm := State.target_mem ht
  have hw := State.winReason_unpopulated (hm ▸ hlost) hp
  rw [← State.winReason_epUse] at hw
  rw [exec_windowRead_mem hb ho ht, State.winMemory_refused (by decide) (by omega) hw]
  exact ⟨_, rfl, s.epUse.newId.2.hostError_shows 8⟩

/-- R287, R288: what a host's read of control space leaves: its value, and nothing else but in the endpoint. -/
theorem hostRead_shows (s : State) (data : List Byte) :
    (s.epUse.hostRead false data).ep.rdata = s.ep.rdata ++ [(false, data)] ∧ { s.epUse.hostRead false data with ep := s.ep } = s := ⟨rfl, rfl⟩

/-- R34, R64: the completion of a core's store that has been performed. -/
theorem exec_deviceAccessCompletion_store {s : State} {d : Dev} {c i : Nat} {e : SbEnt} (hd : s.fab.devs = [d]) (hn : d.done = some 0)
    (hh : d.who = .ctx c i) (hw : d.write = true) (he : (s.core c).sbHead i = some e) (hs : e.devSent = true) :
    ∃ t, exec (.deviceAccessCompletion d.id) s = .next t ∧ t.fab.devs = [] ∧ t.core c = (s.core c).sbPop (s.cyc c) i e ∧
      { t with fab := s.fab } = s.setCore c (t.core c) := by
  have hr : s.devEnd d = some (0, d.rdata) := by
    unfold State.devEnd
    rw [hn]
  have hk : (({ s with fab := { s.fab with devs := [] } } : State).modCore c (fun k => k.sbPop (s.cyc c) i e)).core c = (s.core c).sbPop (s.cyc c) i e := by
    rw [State.core_modCore, if_pos rfl]
    rfl
  rw [exec_deviceAccessCompletion hd hr, State.devReturns_store hd hh hw he hs]
  refine ⟨_, rfl, rfl, hk, ?_⟩
  rw [hk]
  rfl

/-- Settles O49: each access by the lemma about where it goes. -/
theorem hostAccessesAndRegisters : Obligations.HostAccessesAndRegisters := by
  intro s
  refine ⟨?plain, ?unnamed, ?mailbox, ?core, ?off, ?aperture, ?bar2, ?completion, ?store⟩
  case plain =>
    intro k i j v _ _ hn
    exact ⟨exec_registerWrite_plain hn, exec_registerWrite_locked hn⟩
  case unnamed =>
    intro off v hn
    exact exec_registerWrite_unnamed hn .host v s
  case mailbox =>
    intro a v h1 h2 h3
    exact ⟨s.mbxStored a v, exec_registerWrite_mailbox h1 h2 h3 s v, s.mbxWord_mbxStored a v, fun b hb => State.mbxStored_other hb s v, rfl⟩
  case core =>
    intro c i d v k x y hd hw hpa hv hs hat hk _ hn
    subst hk
    have hx := exec_registerWrite_core hd (State.devWrites_of_val hw hpa hv hs hat) hs hn
    exact ⟨fun hr => by rw [hx, if_pos hr], fun hr => by rw [hx, if_neg (by simp [hr])]⟩
  case off =>
    intro hb w off n data
    exact exec_hostAccess_off hb w off n data
  case aperture =>
    intro hb off pa ho hpa
    subst hpa
    refine ⟨fun q r ht hq hl hr => ⟨fun hp hlost hc => ?_, fun hp hlost => exec_windowRead_refused hb ho ht hl hp hlost⟩, fun o v ht hv => ?_⟩
    · rw [hr]
      exact exec_windowRead_sent hb ho ht hq hl hp hlost hc
    · rw [exec_windowRead_ctrl hb ho ht, State.hostCtl_read hv]
      exact ⟨_, rfl, hostRead_shows s _⟩
  case bar2 =>
    intro hb off v ho hv
    rw [exec_bar2Read hb ho, State.hostCtl_read hv]
    exact ⟨_, rfl, hostRead_shows s _⟩
  case completion =>
    intro d o hd hn hw hh ht hat ha
    obtain ⟨r, hr⟩ := State.devEnd_hostRead hd hn hw hh ht hat
    rw [exec_deviceAccessCompletion hd hr, State.devReturns_host hd hh ha]
    exact ⟨_, rfl, rfl, rfl⟩
  case store =>
    intro d c i e hd hn hh hw he hs
    exact exec_deviceAccessCompletion_store hd hn hh hw he hs

end Sys2Proof.Machine
end

section
/-! The interrupt router: what a source event, a DELIVER, a COMPLETE and a write of a route do (R39, R70 to R73, R139). -/

namespace Sys2Proof.Machine

/-! Source events. -/

/-- R70, R72: a source event of an edge route that is no message route's fires the route. -/
theorem exec_routeEvent_edge {r : Nat} (hl : levelRoute r = false) (hr : r < 428) (s : State) :
    exec (.routeEvent r true) s = .next (s.fireRoute r) := by
  show execRouteEvent r true s = _
  simp [execRouteEvent, hl, hr]

theorem State.fireRoute_disabled {s : State} {r : Nat} (he : s.fget .irtRouteEn r = 0) : s.fireRoute r = s := if_pos he

/-- R72: a disabled edge route does nothing. -/
theorem exec_routeEvent_disabled {s : State} {r : Nat} (hl : levelRoute r = false) (he : s.fget .irtRouteEn r = 0) (a : Bool) :
    exec (.routeEvent r a) s = .next s := by
  show execRouteEvent r a s = _
  simp [execRouteEvent, hl, State.fireRoute_disabled he]

/-- R72 step 3: an event of an edge route whose delivery is under way is kept in PEND. -/
theorem State.fireRoute_sent {s : State} {r : Nat} (hl : levelRoute r = false) (he : s.fget .irtRouteEn r ≠ 0) (hs : s.fget .irtRouteSent r ≠ 0) :
    s.fireRoute r = s.fput .irtRoutePend r 0 1 := by
  unfold State.fireRoute
  rw [if_neg he, if_neg hs, hl]
  rfl

/-- R72 step 1: an event of an enabled route with nothing under way starts its delivery to a target in a member package. -/
theorem State.fireRoute_idle {s : State} {r q c i : Nat} (he : s.fget .irtRouteEn r ≠ 0) (hs : s.fget .irtRouteSent r = 0)
    (ht : hartParts (s.fget .irtRouteTarget r) = some (q, c, i)) (hq : s.member q = true) :
    s.fireRoute r = (s.fput .irtRouteSent r 0 1).sendDeliver r (s.fget .irtRouteTarget r) (s.fget .irtRouteVector r) := by
  have htry : s.tryDeliver r =
      ((s.fput .irtRouteSent r 0 1).sendDeliver r (s.fget .irtRouteTarget r) (s.fget .irtRouteVector r), false) := by
    unfold State.tryDeliver
    simp only [ht, hq, if_true]
  unfold State.fireRoute State.redeliver
  rw [if_neg he, if_pos hs, htry]
  rfl

/-- R72, R139: DELIVER to a context of this package arrives at its core four F-cycles on. -/
theorem State.sendDeliver_here {s : State} {hart c i : Nat} (ht : hartParts hart = some (s.pkg, c, i)) (r vec : Nat) :
    s.sendDeliver r hart vec =
      s.send { kind := .deliver, core := c, tag := i, arg := vec + 64 * r, part := s.fget .irtRoutePart r, pkg := s.pkg } (s.fcyc + 4) := by
  unfold State.sendDeliver
  rw [ht]
  exact if_pos rfl

/-- Setting SENT leaves the route's partition and the package's number. -/
theorem State.sent_leaves (s : State) (r v : Nat) :
    (s.fput .irtRouteSent r 0 v).fget .irtRoutePart r = s.fget .irtRoutePart r ∧ (s.fput .irtRouteSent r 0 v).pkg = s.pkg :=
  ⟨State.fget_fput_disjoint _ _ _ _ _ _ _ _ (by decide), State.fget_fput_ne _ _ _ _ _ _ _ _ (by decide)⟩

/-- R72, R139: what firing an idle route with a target in this package leaves. -/
theorem State.fireRoute_delivers {s : State} {r c i : Nat} (he : s.fget .irtRouteEn r ≠ 0) (hs : s.fget .irtRouteSent r = 0)
    (hm : s.member s.pkg = true) (ht : hartParts (s.fget .irtRouteTarget r) = some (s.pkg, c, i)) :
    s.fireRoute r = (s.fput .irtRouteSent r 0 1).send
      { kind := .deliver, core := c, tag := i, arg := s.fget .irtRouteVector r + 64 * r, part := s.fget .irtRoutePart r, pkg := s.pkg } (s.fcyc + 4) := by
  obtain ⟨hpart, hpkg⟩ := s.sent_leaves r 1
  rw [State.fireRoute_idle he hs ht hm, State.sendDeliver_here (hpkg.symm ▸ ht), hpart, hpkg]
  rfl

/-! Wakes by an interrupt, and DELIVER at its core. -/

/-- R39: a context that becomes READY changes in its state alone, and no other context changes. -/
theorem Core.ctx_makeReady (k : Core) (t i : Nat) (head : Bool) (j : Nat) :
    (k.makeReady t i head).ctx j = if j = i then { k.ctx i with st := .ready } else k.ctx j := by
  have hq (l : Core) : ((l.enqueue i head).noteChange t).ctx j = l.ctx j := by
    unfold Core.enqueue
    split <;> rfl
  unfold Core.makeReady
  rw [hq, Core.ctx_modCtx]
  rfl

/-- R39: an interrupt leaves a core as it is, or makes the context READY. -/
theorem Core.intWake_cases (k : Core) (t i : Nat) : k.intWake t i = k ∨ k.intWake t i = k.makeReady t i false := by
  unfold Core.intWake
  split
  · cases (k.ctx i).st
    case wait | sleep | idle => exact .inr rfl
    case active | ready | miss | empty => exact .inl rfl
  · exact .inl rfl

/-- R39: an ACTIVE context stays so. -/
theorem Core.intWake_active {k : Core} {i : Nat} (h : (k.ctx i).st = .active) (t : Nat) : k.intWake t i = k := by
  unfold Core.intWake
  rw [h]
  exact ite_self _

/-- R39: an interrupt changes no other context, and no pending bit. -/
theorem Core.ctx_intWake_ne (k : Core) (t : Nat) {i j : Nat} (h : j ≠ i) : (k.intWake t i).ctx j = k.ctx j := by
  rcases k.intWake_cases t i with e | e
  · rw [e]
  · rw [e, Core.ctx_makeReady, if_neg h]

theorem Core.ipend_intWake (k : Core) (t i : Nat) : ((k.intWake t i).ctx i).ipend = (k.ctx i).ipend := by
  rcases k.intWake_cases t i with e | e
  · rw [e]
  · rw [e, Core.ctx_makeReady, if_pos rfl]

/-- R72 step 2: a core with the pending bit of a delivered vector set in a context. -/
def Core.delivered (k : Core) (t i vec : Nat) : Core := (k.modCtx i (fun x => { x with ipend := setBit x.ipend vec true })).intWake t i

theorem Core.delivered_others (k : Core) (t i vec : Nat) : SameOthers k (k.delivered t i vec) i := by
  intro j hj
  rw [Core.delivered, Core.ctx_intWake_ne _ _ hj, Core.ctx_modCtx, if_neg hj]

theorem Core.ipend_delivered (k : Core) (t i vec : Nat) : ((k.delivered t i vec).ctx i).ipend = setBit (k.ctx i).ipend vec true := by
  rw [Core.delivered, Core.ipend_intWake, Core.ctx_modCtx, if_pos rfl]

/-- R72 step 2: a DELIVER that has arrived at a context that is not EMPTY. -/
theorem exec_deliver {s : State} {c : Nat} {m : Msg} (hm : s.arrived (fun m => m.kind == .deliver && m.core == c) = some m)
    (hst : (s.ctx c (m.tag % 1024)).st ≠ .empty) :
    exec (.deliver c) s = .next ((s.takeMsg m).modCore c (fun k => k.delivered (s.cyc c) (m.tag % 1024) (m.arg % 64))) := by
  show execDeliver c s = _
  unfold execDeliver
  rw [hm]
  exact if_neg hst

/-! COMPLETE. -/

/-- R72 step 4: a COMPLETE that has arrived is every matching route's, in turn. -/
theorem exec_complete {s : State} {m : Msg} (hm : s.arrived (fun m => m.kind == .complete) = some m) :
    exec .complete s = .next (((s.takeMsg m).sentRoutes m.tag m.arg).foldl State.routeComplete (s.takeMsg m)) := by
  show execComplete s = _
  unfold execComplete
  rw [hm]

/-- A COMPLETE that matches no route is ignored. -/
theorem exec_complete_ignored {s : State} {m : Msg} (hm : s.arrived (fun m => m.kind == .complete) = some m)
    (hr : (s.takeMsg m).sentRoutes m.tag m.arg = []) : exec .complete s = .next (s.takeMsg m) := by
  rw [exec_complete hm, hr]
  rfl

/-- R72 step 4: the COMPLETE of an edge route with no event in PEND clears SENT. -/
theorem State.routeComplete_edge {s : State} {r : Nat} (hl : levelRoute r = false) (hp : s.fget .irtRoutePend r = 0) :
    s.routeComplete r = (s.fput .irtRouteSent r 0 0).fput .irtRoutePend r 0 0 := by
  unfold State.routeComplete
  simp [hl, hp]

theorem State.idle_shows (s : State) (r : Nat) :
    ((s.fput .irtRouteSent r 0 0).fput .irtRoutePend r 0 0).fget .irtRouteSent r = 0 ∧
      ((s.fput .irtRouteSent r 0 0).fput .irtRoutePend r 0 0).fget .irtRoutePend r = 0 := by
  refine ⟨?_, State.fget_fput _ _ _ _ _ (by decide)⟩
  rw [State.fget_fput_disjoint _ _ _ _ _ _ _ _ (by decide)]
  exact State.fget_fput _ _ _ _ _ (by decide)

/-! The write of a route. -/

theorem bit_of_bits_zero {n : Nat} {v : BitVec n} {i : Nat} (h : bits v i 1 = 0) : bit v i = false := by
  have ht := testBit_bits v i 1 0
  rw [h] at ht
  simpa [bit] using ht.symm

/-- R71: the fields that a write of a disabled route stores, EN aside: LEVEL as the route has it, LOST as the write leaves it. -/
def routeWord (level lost : Bool) (v : W64) : W64 :=
  setBits (BitVec.ofNat 64 (b2n level * 2 + bits v 2 6 * 4 + bits v 8 6 * 2 ^ 8 + bits v 16 21 * 2 ^ 16)) 50 1 (b2n lost)

/-- The fields of a route as they are written, EN, SENT and PEND clear. -/
theorem routeWord_fields (level lost : Bool) (v : W64) :
    bits (routeWord level lost v) 0 1 = 0 ∧ bits (routeWord level lost v) 2 6 = bits v 2 6 ∧ bits (routeWord level lost v) 8 6 = bits v 8 6 ∧
      bits (routeWord level lost v) 16 21 = bits v 16 21 ∧ bits (routeWord level lost v) 48 1 = 0 ∧ bits (routeWord level lost v) 49 1 = 0 := by
  have hl : b2n level ≤ 1 := by cases level <;> decide
  have h2 := bits_lt v 2 6
  have h8 := bits_lt v 8 6
  have h16 := bits_lt v 16 21
  have field (lo len : Nat) (h : lo + len ≤ 50) : bits (routeWord level lost v) lo len =
      (b2n level * 2 + bits v 2 6 * 4 + bits v 8 6 * 2 ^ 8 + bits v 16 21 * 2 ^ 16) / 2 ^ lo % 2 ^ len := by
    have hfit : b2n level * 2 + bits v 2 6 * 4 + bits v 8 6 * 2 ^ 8 + bits v 16 21 * 2 ^ 16 < 2 ^ 64 := by omega
    rw [routeWord, bits_setBits_disjoint _ _ _ _ _ _ (.inl h), bits, BitVec.toNat_ofNat, Nat.mod_eq_of_lt hfit, Nat.shiftRight_eq_div_pow]
  refine ⟨?_, ?_, ?_, ?_, ?_, ?_⟩ <;> rw [field _ _ (by decide)] <;> omega

/-- R71: a route's register after its fields are written: enabled, or left disabled with the reason and the route's number in IRT_REASON. -/
def State.routeSet (s : State) (r : Nat) (w : W64) (on : Bool) : State :=
  if on then (s.rput .irtRoute r 0 w).rput .irtRoute r 0 (setBit w 0 true) else
    ((s.rput .irtRoute r 0 w).fput .irtReasonReason 0 0 rNotPermitted).fput .irtReasonRoute 0 0 r

/-- R71: a write with EN of a disabled route whose source is not asserted: its fields, and EN or the reason by the check. -/
theorem State.routePut_disabled {s : State} {r : Nat} {v : W64} (hi : s.routeInert r = false) (he : s.fget .irtRouteEn r = 0) (hv : bit v 0 = true)
    (hs : r ∉ s.fab.level ∨ s.routeOk r (bits v 8 6) (bits v 16 21) = false) :
    s.routePut r v = s.routeSet r (routeWord (levelRoute r) (bit (s.rget .irtRoute r) 50 && !bit v 50) v) (s.routeOk r (bits v 8 6) (bits v 16 21)) := by
  have hold : bit (s.rget .irtRoute r) 0 = false := bit_of_bits_zero he
  unfold State.routePut State.routeSet
  dsimp only
  rw [hi, hold, hv]
  cases hok : s.routeOk r (bits v 8 6) (bits v 16 21) with
  | false => rfl
  | true =>
    have hn : s.fab.level.contains r = false := by simpa [hok] using hs
    rw [hn]
    rfl

/-- R71: what a route that passes its check shows, and that no other route changes. -/
theorem State.routeSet_enabled (s : State) (r : Nat) (level lost : Bool) (v : W64) :
    let t := s.routeSet r (routeWord level lost v) true
    t.fget .irtRouteEn r = 1 ∧ t.fget .irtRouteTarget r = bits v 16 21 ∧ t.fget .irtRouteVector r = bits v 2 6 ∧
      t.fget .irtRoutePart r = bits v 8 6 ∧ t.fget .irtRouteSent r = 0 ∧ t.fget .irtRoutePend r = 0 ∧
      (∀ i, i ≠ r → t.rget .irtRoute i = s.rget .irtRoute i) ∧ { t with cs := s.cs } = s := by
  intro t
  obtain ⟨-, hvec, hpart, htarget, hsent, hpend⟩ := routeWord_fields level lost v
  have hw : t.rget .irtRoute r = setBit (routeWord level lost v) 0 true := State.rget_rput_same _ _ _ _ _
  have field (lo len : Nat) (h : 1 ≤ lo) : bits (t.rget .irtRoute r) lo len = bits (routeWord level lost v) lo len := by
    rw [hw, setBit, bits_setBits_disjoint _ _ _ _ _ _ (.inr h)]
  refine ⟨?_, (field 16 21 (by decide)).trans htarget, (field 2 6 (by decide)).trans hvec, (field 8 6 (by decide)).trans hpart,
    (field 48 1 (by decide)).trans hsent, (field 49 1 (by decide)).trans hpend, fun i hi => ?_, rfl⟩
  · exact (congrArg (bits · 0 1) hw).trans (bits_setBits _ _ _ _ (by decide))
  · show ((s.rput .irtRoute r 0 _).rput .irtRoute r 0 _).rget .irtRoute i = _
    simp [State.rget_rput, hi]

/-- R71: what one that fails it shows: disabled, with its reason and number. -/
theorem State.routeSet_refused (s : State) (r : Nat) (level lost : Bool) (v : W64) :
    let t := s.routeSet r (routeWord level lost v) false
    t.fget .irtRouteEn r = 0 ∧ t.fget .irtReasonReason = rNotPermitted ∧ t.fget .irtReasonRoute = r % 4096 ∧ { t with cs := s.cs } = s := by
  refine ⟨?_, ?_, State.fget_fput _ .irtReasonRoute _ _ _ (by decide), rfl⟩
  · show (State.fput _ _ _ _ _).fget _ _ = 0
    rw [State.fget_fput_ne _ _ _ _ _ _ _ _ (by decide), State.fget_fput_ne _ _ _ _ _ _ _ _ (by decide)]
    exact (congrArg (bits · 0 1) (State.rget_rput_same s .irtRoute r 0 _)).trans (routeWord_fields level lost v).1
  · show (State.fput _ _ _ _ _).fget _ = _
    rw [State.fget_fput_disjoint _ _ _ _ _ _ _ _ (by decide)]
    exact State.fget_fput _ .irtReasonReason _ _ _ (by decide)

/-- R71: the host's write of a route that exists. -/
theorem exec_irtRouteWrite {n : Nat} (hn : n < 4096) (v : W64) (s : State) : exec (.irtRouteWrite .host n v) s = .next (s.routePut n v) := by
  have hk : RegKind.irtRoute.has n 0 = true := by
    show (decide (n < 4096) && true) = true
    rw [decide_eq_true hn, Bool.and_true]
  exact State.regWrite_has hk s .host v _

/-- R73: the host's doorbell of a message route. -/
theorem exec_msiDoorbell {v : BitVec 32} (hr : 512 ≤ bits v 0 12) (hz : bits v 12 20 = 0) (s : State) :
    exec (.msiDoorbell .host v) s = .next (s.fireRoute (bits v 0 12)) := by
  show Host.Outcome.next (s.msiPut v none) = _
  simp [State.msiPut, hr, hz]

/-- Settles O24: each command by the lemma about it, and what it leaves by the lemmas about the route's register. -/
theorem interruptRouting : Obligations.InterruptRouting := by
  intro s
  refine ⟨?idle, ?sent, fun r a hl he => exec_routeEvent_disabled hl he a, ?deliver, ?complete, fun m hm hr => exec_complete_ignored hm hr, ?enable,
    ?refuse, fun v hr hz => exec_msiDoorbell hr hz s⟩
  case idle =>
    intro r c i hl hr he hs hm ht
    rw [exec_routeEvent_edge hl hr, State.fireRoute_delivers he hs hm ht]
    exact ⟨_, rfl, State.fget_fput s .irtRouteSent r 0 1 (by decide), rfl, rfl⟩
  case sent =>
    intro r hl hr he hs
    rw [exec_routeEvent_edge hl hr, State.fireRoute_sent hl he hs]
    exact ⟨_, rfl, State.fget_fput s .irtRoutePend r 0 1 (by decide), rfl⟩
  case deliver =>
    rintro c m i hm rfl hst
    have hk : ((s.takeMsg m).modCore c (fun k => k.delivered (s.cyc c) (m.tag % 1024) (m.arg % 64))).core c =
        (s.core c).delivered (s.cyc c) (m.tag % 1024) (m.arg % 64) := by
      rw [State.core_modCore, if_pos rfl]
      rfl
    refine ⟨_, exec_deliver hm hst, ⟨rfl, fun d hd => ?_⟩, ?_, ?_⟩
    · rw [State.core_modCore, if_neg hd]
    · rw [hk]
      exact Core.delivered_others _ _ _ _
    · rw [State.ctx, hk]
      exact Core.ipend_delivered _ _ _ _
  case complete =>
    intro m r hm hr hl hp
    obtain ⟨hsent, hpend⟩ := (s.takeMsg m).idle_shows r
    have hend : (s.takeMsg m).routeComplete r = _ := State.routeComplete_edge hl hp
    rw [exec_complete hm, hr, List.foldl_cons, List.foldl_nil, hend]
    exact ⟨_, rfl, hsent, hpend, rfl⟩
  case enable =>
    intro n v hn hi _ he hv hok hlev
    rw [exec_irtRouteWrite hn, State.routePut_disabled hi he hv (.inl hlev), hok]
    exact ⟨_, rfl, State.routeSet_enabled _ _ _ _ _⟩
  case refuse =>
    intro n v hn hi _ he hv hok
    rw [exec_irtRouteWrite hn, State.routePut_disabled hi he hv (.inr hok), hok]
    exact ⟨_, rfl, State.routeSet_refused _ _ _ _ _⟩

end Sys2Proof.Machine
end

section
/-! Interrupt claims and ends of interrupt (R20, R67 to R69, R72, R367): the CSR instructions on mifclaim, sifclaim, mifeoi and sifeoi, and a COMPLETE that
matches no route. -/

namespace Sys2Proof.Machine

/-! CSR instructions that stay in their context. -/

/-- An instruction that issues is of an ACTIVE context. -/
theorem Issues.active {s : State} {h : Ins} {q : IssQ} (hi : Issues s h q) : (s.ctx h.core h.ctx).st = .active := by
  refine Decidable.byContradiction fun hn => ?_
  have hst : decide (((s.core h.core).ctx h.ctx).st = .active) = false := decide_eq_false hn
  have hok := hi.2
  simp only [Core.issueOk, hst, Bool.and_false, Bool.false_and, Bool.false_eq_true] at hok

theorem SameBesideFlow.st {x y : Ctx} (h : SameBesideFlow x y) : y.st = x.st := by
  unfold SameBesideFlow at h
  rw [← h]

/-- `LeavesCtx`, by what has become of the core. -/
theorem leavesCtx_of_core {s u : State} {h : Ins} {x : Ctx} {k : Core} (hbeside : SameBesideCore s u h.core) (hk : u.core h.core = k)
    (hothers : SameOthers (s.core h.core) k h.ctx) (hpipe : SameBesidePipe (s.core h.core) k) (hflow : SameBesideFlow x (k.ctx h.ctx)) :
    LeavesCtx s u h x := by
  subst hk
  exact ⟨hbeside, hothers, hpipe, hflow⟩

theorem SameBesideCore.refl (s : State) (c : Nat) : SameBesideCore s s c := ⟨rfl, fun _ _ => rfl⟩

/-- A further change of the instruction's core is one of its core alone. -/
theorem SameBesideCore.modCore {s u : State} {c : Nat} (hu : SameBesideCore s u c) (f : Core → Core) : SameBesideCore s (u.modCore c f) c := by
  obtain ⟨hbeside, hcores⟩ := hu
  refine ⟨hbeside, fun d hd => ?_⟩
  rw [State.core_modCore, if_neg hd]
  exact hcores d hd

/-- What issuing uses up is of the pipeline. -/
theorem State.issued_leavesCtx (s : State) (h : Ins) (q : IssQ) : LeavesCtx s (s.issued h q) h (s.ctx h.core h.ctx) := by
  refine leavesCtx_of_core ((SameBesideCore.refl s h.core).modCore (fun k => k.mark (s.cyc h.core) h q))
    (k := (s.core h.core).mark (s.cyc h.core) h q) ?_ (fun j hj => ?_) (Core.pipe_mark _ _ _ _) ?_
  · rw [State.issued, State.core_setCore, if_pos rfl]
  · rw [Core.ctx_mark, if_neg hj]
  · rw [Core.ctx_mark, if_pos rfl]
    exact Ctx.flow_marked _ _ _

/-- A further change of the context, which does not look at its pipeline. -/
theorem LeavesCtx.modCtx {s u : State} {h : Ins} {x : Ctx} (hu : LeavesCtx s u h x) {f : Ctx → Ctx}
    (hf : ∀ y, SameBesideFlow x y → SameBesideFlow (f x) (f y)) : LeavesCtx s (u.modCtx h.core h.ctx f) h (f x) := by
  obtain ⟨hcore, hothers, hpipe, hflow⟩ := hu
  refine leavesCtx_of_core (hcore.modCore _) (k := (u.core h.core).modCtx h.ctx f) ?_ (fun j hj => ?_) (hpipe.trans (Core.pipe_modCtx _ _ _)) ?_
  · rw [State.modCtx, State.core_modCore, if_pos rfl]
  · rw [Core.ctx_modCtx, if_neg hj]
    exact hothers j hj
  · rw [Core.ctx_modCtx, if_pos rfl]
    exact hf _ hflow

/-- R20, R22, R39: how a CSR instruction ends: its register written, fetch restarted, and its context looked at for interrupts. -/
def State.csrEnds (s : State) (t : Nat) (h : Ins) (rd : Nat) (v : W64) : State :=
  s.modCore h.core (fun k => (k.serialDone t h (some rd) (fun x => x.setX rd v)).intWake t h.ctx)

theorem Ctx.flow_serial (x : Ctx) (pc : W64) (t : Nat) : SameBesideFlow x { x.restart pc t with nextIssue := t } := rfl

/-- A serialising instruction's own context has its effect, beside the pipeline. -/
theorem Core.flow_serialDone {k : Core} {h : Ins} {x : Ctx} (hx : SameBesideFlow x (k.ctx h.ctx)) (t rd : Nat) (v : W64) :
    SameBesideFlow (x.setX rd v) ((k.serialDone t h (some rd) (fun x => x.setX rd v)).ctx h.ctx) := by
  rw [Core.ctx_serialDone, if_pos rfl]
  have hset := Ctx.flow_setX (hx.trans (Ctx.flow_sampled _)) rd v
  exact hset.trans ((Ctx.flow_owe _ _ _ _).trans ((Ctx.flow_adv _ _).trans (Ctx.flow_serial _ _ _)))

theorem Ctx.st_setX (x : Ctx) (r : Nat) (v : W64) : (x.setX r v).st = x.st := by
  unfold Ctx.setX
  split <;> rfl

/-- The end of a CSR instruction leaves its context, which is ACTIVE, with the register written. -/
theorem LeavesCtx.csrEnds {s u : State} {h : Ins} {x : Ctx} (hu : LeavesCtx s u h x) (hst : x.st = .active) (t rd : Nat) (v : W64) :
    LeavesCtx s (u.csrEnds t h rd v) h (x.setX rd v) := by
  obtain ⟨hcore, hothers, hpipe, hflow⟩ := hu
  have hend := Core.flow_serialDone hflow t rd v
  have hact := hend.st.trans ((Ctx.st_setX x rd v).trans hst)
  refine leavesCtx_of_core (hcore.modCore _) (k := (u.core h.core).serialDone t h (some rd) (fun x => x.setX rd v)) ?_ (fun j hj => ?_)
    (hpipe.trans (Core.pipe_serialDone _ _ _ _ _)) hend
  · rw [State.csrEnds, State.core_modCore, if_pos rfl, Core.intWake_active hact]
  · rw [Core.ctx_serialDone, if_neg hj]
    exact hothers j hj

/-- The needs of a CSR instruction (R20, R367). -/
def csrQ (op : CsrOp) (rd src : Nat) : IssQ := serialQ (csrSrcRegs op src ++ [rd])

/-- The CSRs whose access is no FP state's, waits for no store and has no effect beside its read and its write. -/
def PlainCsr (csr : Nat) : Prop := csr ≠ 0x7C2 ∧ 3 < csr ∧ ¬ csrDrains csr

/-- R20, R367: an access of such a CSR reads it, writes it where it does, and ends. -/
theorem State.csrDo_ends {s : State} {h : Ins} {op : CsrOp} {csr rd src : Nat} (hc : PlainCsr csr) (hi : Issues s h (csrQ op rd src))
    (hok : s.csrOk h.core h.ctx csr (csrWrites op src) = true) {v : W64} (hv : (s.issued h (csrQ op rd src)).csrOld h.core h.ctx csr = v) :
    s.csrDo h op csr rd src = .next ((if csrWrites op src then
        (s.issued h (csrQ op rd src)).csrPut h.core h.ctx csr (csrNew op v (csrOperand op (s.ctx h.core h.ctx) src))
          (csrOnes op (csrOperand op (s.ctx h.core h.ctx) src))
      else s.issued h (csrQ op rd src)).csrEnds (s.cyc h.core) h rd v) := by
  obtain ⟨hdata, hfp, hdrains⟩ := hc
  rw [State.csrDo_plain rd rfl hi hok hfp (fun hd => absurd hd hdrains), ← hv]
  unfold CsrResult
  dsimp only
  rw [if_neg hdata]
  rfl

/-! The highest-priority vector and its claim. -/

theorem bit_and {n : Nat} (a b : BitVec n) (i : Nat) : bit (a &&& b) i = (bit a i && bit b i) := BitVec.getLsbD_and

/-- R67: the lowest-numbered vector of the level that is pending and enabled has the highest priority. -/
theorem Ctx.topVector_eq_some {x : Ctx} {m : Bool} {n : Nat} (hn : if m then n < 16 else 16 ≤ n ∧ n < 64) (hp : bit x.ipend n = true)
    (he : bit x.ien n = true) (hlow : ∀ j, j < n → m = true ∨ 16 ≤ j → bit x.ipend j = false ∨ bit x.ien j = false) : x.topVector m = some n := by
  have hbit (j : Nat) (hj : j < n) (hl : m = true ∨ 16 ≤ j) : bit (x.ipend &&& x.ien) j = false := by
    rw [bit_and, Bool.and_eq_false_iff]
    exact hlow j hj hl
  have htop : bit (x.ipend &&& x.ien) n = true := by rw [bit_and, hp, he, Bool.and_true]
  cases m with
  | true =>
    refine List.find?_range_eq_some.mpr ⟨htop, List.mem_range.mpr hn, fun j hj => ?_⟩
    rw [hbit j hj (.inl rfl)]
    rfl
  | false =>
    obtain ⟨h16, h64⟩ : 16 ≤ n ∧ n < 64 := hn
    show ((List.range 48).map (· + 16)).find? _ = _
    rw [List.find?_map, List.find?_range_eq_some (i := n - 16) |>.mpr ⟨?_, List.mem_range.mpr (by omega), fun j hj => ?_⟩]
    · exact congrArg some (Nat.sub_add_cancel h16)
    · rw [Function.comp_apply, Nat.sub_add_cancel h16]
      exact htop
    · rw [Function.comp_apply, hbit (j + 16) (by omega) (.inr (by omega))]
      rfl

/-- R67: with nothing pending and enabled at the level there is none. -/
theorem Ctx.topVector_eq_none {x : Ctx} {m : Bool}
    (h : ∀ n, (if m then n < 16 else 16 ≤ n ∧ n < 64) → bit x.ipend n = false ∨ bit x.ien n = false) : x.topVector m = none := by
  have hbit (n : Nat) (hn : if m then n < 16 else 16 ≤ n ∧ n < 64) : ¬ bit (x.ipend &&& x.ien) n = true := by
    rw [Bool.not_eq_true, bit_and, Bool.and_eq_false_iff]
    exact h n hn
  cases m with
  | true => exact List.find?_eq_none.mpr fun n hn => hbit n (List.mem_range.mp hn)
  | false =>
    refine List.find?_eq_none.mpr fun n hn => ?_
    obtain ⟨j, hj, rfl⟩ := List.mem_map.mp hn
    have hlt : j < 48 := List.mem_range.mp hj
    exact hbit (j + 16) (show 16 ≤ j + 16 ∧ j + 16 < 64 by omega)

/-- R68: a context after a claim that writes. -/
def Ctx.claimed (x : Ctx) (m : Bool) : Ctx :=
  match x.topVector m with
  | some n => { x with ipend := setBit x.ipend n false }
  | none => x

theorem Ctx.claim_some {x : Ctx} {m : Bool} {n : Nat} (h : x.topVector m = some n) : x.claim m = BitVec.ofNat 64 (n + 64) := by
  rw [Ctx.claim, h]

theorem Ctx.claim_none {x : Ctx} {m : Bool} (h : x.topVector m = none) : x.claim m = 0 := by
  rw [Ctx.claim, h]

theorem Ctx.claimed_some {x : Ctx} {m : Bool} {n : Nat} (h : x.topVector m = some n) : x.claimed m = { x with ipend := setBit x.ipend n false } := by
  rw [Ctx.claimed, h]

theorem Ctx.claimed_none {x : Ctx} {m : Bool} (h : x.topVector m = none) : x.claimed m = x := by
  rw [Ctx.claimed, h]

/-- The pending and enabled vectors are not of the pipeline. -/
theorem SameBesideFlow.topVector {x y : Ctx} (h : SameBesideFlow x y) (m : Bool) : y.topVector m = x.topVector m := by
  unfold SameBesideFlow at h
  have hp : y.ipend = x.ipend := by rw [← h]
  have he : y.ien = x.ien := by rw [← h]
  rw [Ctx.topVector, Ctx.topVector, hp, he]

theorem SameBesideFlow.claim {x y : Ctx} (h : SameBesideFlow x y) (m : Bool) : y.claim m = x.claim m := by
  rw [Ctx.claim, Ctx.claim, h.topVector]

theorem SameBesideFlow.claimed {x y : Ctx} (h : SameBesideFlow x y) (m : Bool) : SameBesideFlow (x.claimed m) (y.claimed m) := by
  cases hv : x.topVector m with
  | none => rwa [Ctx.claimed_none hv, Ctx.claimed_none ((h.topVector m).trans hv)]
  | some n =>
    rw [Ctx.claimed_some hv, Ctx.claimed_some ((h.topVector m).trans hv)]
    unfold SameBesideFlow at h
    rw [← h]
    rfl

theorem Ctx.st_claimed (x : Ctx) (m : Bool) : (x.claimed m).st = x.st := by
  unfold Ctx.claimed
  split <;> rfl

/-! mifclaim and sifclaim. -/

/-- R46: the number of a level's claim CSR. -/
def claimCsr (m : Bool) : Nat := if m then 0x7D2 else 0x5D2

theorem State.csrOld_claim (s : State) (c i : Nat) (m : Bool) : s.csrOld c i (claimCsr m) = (s.ctx c i).claim m := by
  cases m <;> rfl

theorem State.csrPut_claim (s : State) (c i : Nat) (m : Bool) (v ones : W64) :
    s.csrPut c i (claimCsr m) v ones = s.modCtx c i (fun x => x.claimed m) := by
  cases m <;> rfl

theorem claimCsr_plain (m : Bool) : PlainCsr (claimCsr m) := by
  cases m <;> simp [PlainCsr, claimCsr, csrDrains]

/-- R68: a CSR instruction on a claim CSR returns the claim as it was, and clears the vector's pending bit where it writes. -/
theorem exec_ifClaim {s : State} {h : Ins} {op : CsrOp} {m : Bool} {rd src : Nat} (hi : Issues s h (csrQ op rd src))
    (hok : s.csrOk h.core h.ctx (claimCsr m) (csrWrites op src) = true) :
    ∃ t, exec (.ifClaim h op m rd src) s = .next t ∧
      LeavesCtx s t h ((if csrWrites op src then (s.ctx h.core h.ctx).claimed m else s.ctx h.core h.ctx).setX rd ((s.ctx h.core h.ctx).claim m)) := by
  have hissued := s.issued_leavesCtx h (csrQ op rd src)
  have ⟨_, _, _, hflow⟩ := hissued
  have hold := (State.csrOld_claim (s.issued h (csrQ op rd src)) h.core h.ctx m).trans (hflow.claim m)
  refine ⟨_, State.csrDo_ends (claimCsr_plain m) hi hok hold, ?_⟩
  rw [State.csrPut_claim]
  cases csrWrites op src with
  | true => exact (hissued.modCtx fun _ hy => hy.claimed m).csrEnds ((Ctx.st_claimed _ _).trans hi.active) _ _ _
  | false => exact hissued.csrEnds hi.active _ _ _

/-! mifeoi and sifeoi. -/

/-- R46: the number of a level's end-of-interrupt CSR. -/
def eoiCsr (m : Bool) : Nat := if m then 0x7D3 else 0x5D3

theorem State.csrOld_eoi (s : State) (c i : Nat) (m : Bool) : s.csrOld c i (eoiCsr m) = 0 := by
  cases m <;> rfl

theorem eoiCsr_plain (m : Bool) : PlainCsr (eoiCsr m) := by
  cases m <;> simp [PlainCsr, eoiCsr, csrDrains]

/-- R69: a write of the S-level CSR with a vector below 16 does nothing. -/
theorem State.csrPut_eoi_low {v : W64} (hv : bits v 0 6 < 16) (s : State) (c i : Nat) (ones : W64) : s.csrPut c i (eoiCsr false) v ones = s :=
  if_pos hv

/-- R69: every other write is the end of the vector's interrupt. -/
theorem State.csrPut_eoi {m : Bool} {v : W64} (hv : m = true ∨ 16 ≤ bits v 0 6) (s : State) (c i : Nat) (ones : W64) :
    s.csrPut c i (eoiCsr m) v ones = s.eoiPut c i v := by
  cases m with
  | true => rfl
  | false => exact if_neg (by simpa using hv)

/-- A message to another package changes its links alone. -/
theorem State.reelSend_reel (s : State) (q : Nat) (m : RMsg) : ∃ r, s.reelSend q m = { s with reel := r } := by
  unfold State.reelSend
  dsimp only
  split
  · exact ⟨_, rfl⟩
  split
  · exact ⟨_, rfl⟩
  · exact ⟨_, rfl⟩

theorem foldl_reel {α : Type} {f : State → α → State} (hf : ∀ s x, ∃ r, f s x = { s with reel := r }) (l : List α) (s : State) :
    ∃ r, l.foldl f s = { s with reel := r } := by
  induction l generalizing s with
  | nil => exact ⟨s.reel, rfl⟩
  | cons x l ih =>
    obtain ⟨r, hr⟩ := hf s x
    rw [List.foldl_cons, hr]
    obtain ⟨r', hr'⟩ := ih { s with reel := r }
    exact ⟨r', hr'⟩

/-- R72, R139: COMPLETE arrives at this package's router three F-cycles on; what the others' are sent is on the links. -/
theorem State.sendComplete_here (s : State) (hart vec : Nat) :
    ∃ r, s.sendComplete hart vec =
      { s.send { kind := .complete, tag := hart, arg := vec, pkg := s.pkg } (s.fcyc + 3) with reel := r } := by
  refine foldl_reel (fun t q => ?_) _ _
  split
  · exact t.reelSend_reel q _
  · exact ⟨t.reel, rfl⟩

/-- What a write of an end-of-interrupt CSR leaves, from what it sends: the fabric and the links beside, its context with the register written. -/
theorem exec_ifEoi {s : State} {h : Ins} {op : CsrOp} {m : Bool} {rd src : Nat} (hi : Issues s h (csrQ op rd src))
    (hok : s.csrOk h.core h.ctx (eoiCsr m) (csrWrites op src) = true) (hw : csrWrites op src = true) {f : Fab} {r : Reel}
    (hput : ∀ ones, (s.issued h (csrQ op rd src)).csrPut h.core h.ctx (eoiCsr m)
      (csrNew op 0 (csrOperand op (s.ctx h.core h.ctx) src)) ones =
        { s.issued h (csrQ op rd src) with fab := f, reel := r }) :
    ∃ t, exec (.ifEoi h op m rd src) s = .next t ∧ LeavesCtx s { t with fab := s.fab, reel := s.reel } h ((s.ctx h.core h.ctx).setX rd 0) ∧
      t.fab = f ∧ t.reel = r := by
  refine ⟨_, State.csrDo_ends (eoiCsr_plain m) hi hok (State.csrOld_eoi _ _ _ m), ?_⟩
  rw [if_pos hw, hput]
  exact ⟨(s.issued_leavesCtx h _).csrEnds hi.active _ _ _, rfl, rfl⟩

/-- R72: a COMPLETE matches a route by SENT, its target, and its vector, for which 64 stands for every one. -/
theorem State.sentRoutes_eq_nil {s : State} {hart vec : Nat}
    (h : ∀ r, s.fget .irtRouteSent r = 0 ∨ s.fget .irtRouteTarget r ≠ hart ∨ (vec ≠ 64 ∧ s.fget .irtRouteVector r ≠ vec)) :
    s.sentRoutes hart vec = [] := by
  refine List.filter_eq_nil_iff.mpr fun r _ => ?_
  simp only [Bool.and_eq_true, Bool.or_eq_true, decide_eq_true_eq]
  rintro ⟨⟨hs, ht⟩, hv⟩
  rcases h r with h0 | h0 | ⟨h1, h2⟩
  · omega
  · exact h0 ht
  · exact hv.elim h1 h2

/-- Settles O25: a claim by the vector that has the highest priority, an end of interrupt by what its write sends. -/
theorem interruptClaimsAndCompletions : Obligations.InterruptClaimsAndCompletions := by
  refine ⟨?_, fun s m hm hr => exec_complete_ignored hm (State.sentRoutes_eq_nil hr)⟩
  rintro s h op m rd src x rfl hi
  refine ⟨fun hok => ⟨fun n hn hp he hlow => ?claims, fun hnone => ?nothing⟩, ?ends⟩
  case claims =>
    have htop := Ctx.topVector_eq_some hn hp he hlow
    have ht := exec_ifClaim hi hok
    rw [Ctx.claim_some htop, Ctx.claimed_some htop] at ht
    cases hw : csrWrites op src <;>
    · rw [hw] at ht
      exact ht
  case nothing =>
    have htop := Ctx.topVector_eq_none hnone
    have ht := exec_ifClaim hi hok
    rwa [Ctx.claim_none htop, Ctx.claimed_none htop, ite_self] at ht
  case ends =>
    rintro v hok hw rfl
    by_cases hv : m = true ∨ 16 ≤ bits (csrNew op 0 (csrOperand op (s.ctx h.core h.ctx) src)) 0 6
    · obtain ⟨r, hr⟩ := (s.issued h (csrQ op rd src)).sendComplete_here (s.hartid h.core h.ctx)
        (bits (csrNew op 0 (csrOperand op (s.ctx h.core h.ctx) src)) 0 6)
      obtain ⟨t, ht, hleaves, hfab, -⟩ := exec_ifEoi hi hok hw fun ones => (State.csrPut_eoi hv _ _ _ ones).trans hr
      exact ⟨t, ht, hleaves, fun _ => hfab, fun hm hlow => absurd hv (not_or.mpr ⟨by simp [hm], Nat.not_le.mpr hlow⟩)⟩
    · obtain ⟨rfl, hlow⟩ : m = false ∧ bits (csrNew op 0 (csrOperand op (s.ctx h.core h.ctx) src)) 0 6 < 16 := by simpa using hv
      obtain ⟨t, ht, hleaves, hfab, hreel⟩ := exec_ifEoi hi hok hw fun ones => State.csrPut_eoi_low hlow _ _ _ ones
      exact ⟨t, ht, hleaves, fun h => absurd h hv, fun _ _ => ⟨hfab, hreel⟩⟩

end Sys2Proof.Machine
end

section
/-! The entries of a table's bucket (R78 to R80): which are malformed, which match, and the TLB entry that a match gives. -/

namespace Sys2Proof.Machine

/-- R79: an entry is malformed, by its two words. -/
def EntryMalformed (w0 w1 : W64) : Prop :=
  bits w0 1 6 < 12 ∨ 47 < bits w0 1 6 ∨ bits w1 52 12 ≠ 0 ∨ bits w1 0 36 % 2 ^ (bits w0 1 6 - 12) ≠ 0 ∨ (bit w0 9 = true ∧ bit w0 8 = false) ∨
    (bit w0 8 = false ∧ bit w0 9 = false ∧ bit w0 10 = false) ∨ bits w0 14 2 = 3

/-- R80: an entry matches an address under an ASID and a listed size. -/
def EntryMatches (w0 w1 : W64) (asid size va : Nat) : Prop :=
  bit w0 0 = true ∧ ¬EntryMalformed w0 w1 ∧ bits w0 1 6 = size ∧ bits w1 36 16 = asid ∧
    bits w1 0 36 / 2 ^ (bits w0 1 6 - 12) = va % 2 ^ 48 / 2 ^ bits w0 1 6

/-- The TLB entry that a matching entry gives, from its word0. -/
def matchedEntry (w0 : W64) (part asid va : Nat) : TlbE where
  part := part
  asid := asid
  size := bits w0 1 6
  vpn := va % 2 ^ 48 / 2 ^ bits w0 1 6
  ppn := bits w0 16 40 / 2 ^ (bits w0 1 6 - 12)
  g := bit w0 7
  r := bit w0 8
  w := bit w0 9
  x := bit w0 10
  u := bit w0 11
  d := bit w0 13
  mt := bits w0 14 2

/-- R79: an entry with a size from 12 to 47, zeros where they are due, usable permissions and a defined memory type is not malformed. -/
theorem not_entryMalformed_of_legal {w0 w1 : W64} (hlo : 12 ≤ bits w0 1 6) (hhi : bits w0 1 6 ≤ 47) (hres : bits w1 52 12 = 0)
    (hvpn : bits w1 0 36 % 2 ^ (bits w0 1 6 - 12) = 0) (hwr : bit w0 9 = true → bit w0 8 = true) (hrx : bit w0 8 = true ∨ bit w0 10 = true)
    (hmt : bits w0 14 2 ≠ 3) : ¬EntryMalformed w0 w1 := by
  rintro (h | h | h | h | ⟨hw, hr⟩ | ⟨hr, -, hx⟩ | h)
  · exact absurd hlo (Nat.not_le.mpr h)
  · exact absurd hhi (Nat.not_le.mpr h)
  · exact h hres
  · exact h hvpn
  · exact absurd hr (by simp [hwr hw])
  · exact absurd hrx (by simp [hr, hx])
  · exact hmt h

section
variable {d : LineData} {pos part asid size va : Nat} {w0 w1 : W64}
variable (hw0 : w0 = BitVec.ofNat 64 (bits d (128 * pos) 64)) (hw1 : w1 = BitVec.ofNat 64 (bits d (128 * pos + 64) 64))
include hw0 hw1

/-- R78, R80: a bucket position gives its TLB entry and its word0 where its two words match, and nothing elsewhere. -/
theorem bucketEntry_eq [Decidable (EntryMatches w0 w1 asid size va)] :
    bucketEntry d pos part asid size va =
      if EntryMatches w0 w1 asid size va then some (matchedEntry w0 part asid va, w0) else none := by
  subst hw0 hw1
  refine ite_congr (propext ?_) (fun _ => rfl) fun _ => rfl
  -- The model's Boolean test, read as propositions: what it calls bad is `EntryMalformed`.
  simp only [EntryMatches, EntryMalformed, Bool.and_eq_true, Bool.or_eq_true, Bool.not_eq_true', ← Bool.not_eq_true, decide_eq_true_eq,
    and_assoc, or_assoc]

theorem bucketEntry_of_matches (h : EntryMatches w0 w1 asid size va) :
    bucketEntry d pos part asid size va = some (matchedEntry w0 part asid va, w0) := by
  classical exact (bucketEntry_eq hw0 hw1).trans (if_pos h)

theorem bucketEntry_of_not_matches (h : ¬EntryMatches w0 w1 asid size va) : bucketEntry d pos part asid size va = none := by
  classical exact (bucketEntry_eq hw0 hw1).trans (if_neg h)

end

/-- Settles O26: V and malformedness each keep an entry from matching, and one that is not malformed matches by size, ASID and VPN alone. -/
theorem tableEntriesThatMatch : Obligations.TableEntriesThatMatch := by
  intro d pos part asid size va w0 w1 hw0 hw1
  refine ⟨fun hv => ?invalid, fun hbad => ?malformed, fun hv hlo hhi hres hvpn hwr hrx hmt => ⟨fun hne => ?differs, fun hs ha hp => ?matched⟩⟩
  case invalid => exact bucketEntry_of_not_matches hw0 hw1 fun ⟨h, _⟩ => Bool.false_ne_true (hv.symm.trans h)
  case malformed => exact bucketEntry_of_not_matches hw0 hw1 fun ⟨_, h, _⟩ => h hbad
  case differs =>
    refine bucketEntry_of_not_matches hw0 hw1 ?_
    rintro ⟨-, -, rfl, rfl, hp⟩
    exact hne.elim (· rfl) (Or.elim · (· rfl) (· hp))
  case matched =>
    have hlegal := not_entryMalformed_of_legal hlo hhi hres hvpn hwr hrx hmt
    subst hs
    exact ⟨_, bucketEntry_of_matches hw0 hw1 ⟨hv, hlegal, rfl, ha.symm, hp⟩, rfl, rfl, rfl, rfl, rfl, rfl, rfl, rfl, rfl, rfl, rfl, rfl⟩

end Sys2Proof.Machine
end
